-- ==== Sys2Proof/Word.lean ====
section
/-! DEFINITION. The words of the machine and their plainest arithmetic (00_scope R2, R5; 03 R74). -/

namespace Sys2Proof

/-- One byte. -/
abbrev Byte := BitVec 8

/-- A 32-bit word: an instruction word, a stream element, a tag. -/
abbrev Word := BitVec 32

/-- A 64-bit value: a scalar register, a payload. -/
abbrev DWord := BitVec 64

/-- A byte memory: address and byte pairs, addresses strictly rising, no entry zero (Host.Cell). -/
abbrev Mem := List (Nat × Byte)

/-- A table by number, keys strictly rising. -/
abbrev Tab (α : Type) := List (Nat × α)

end Sys2Proof
end

