-- ==== Sys2Proof/Syntax.lean ====
section
/-! DEFINITION. The syntax of the machine: operand forms, the arguments of events, and the ONE inductive `Instr`
with a constructor for every row of spec/opcode_table.json. Rows with an encoding are the instructions of chapters
6 to 9 and 14; rows without one are the part's other steps, whose arguments name the place where the step happens
and, where the spec leaves a choice to firmware or to physics, that choice. -/

namespace Sys2Proof

/-- A source that has an alternate bit (06 R156, Table 6-1). -/
inductive Src where
  | s (r : BitVec 5)
  | x (n : BitVec 2)
  | xt
  | xc
  | q (n : Fin 3)
deriving DecidableEq, Repr

/-- A scalar register or a stream register: a destination with qd, a float operand with qa or qb (06 R159, R174). -/
inductive SQ where
  | s (r : BitVec 5)
  | q (n : Fin 3)
deriving DecidableEq, Repr

/-- The fmt codes 0 to 4 (06 R159, 08 Table 8-1). -/
inductive Fmt where
  | f32 | bf16x2 | f16x2 | e4m3x4 | e5m2x4
deriving DecidableEq, Repr

/-- Rounding codes 0 to 4 (03 Table 3-3). -/
inductive Rm where
  | rn | rz | ru | rd | rs
deriving DecidableEq, Repr

/-- Integer condition codes (07 Table 7-3). -/
inductive IntCc where
  | eq | ne | lt | ge | lo | hs
deriving DecidableEq, Repr

/-- Float condition codes (06 R180). -/
inductive FloatCc where
  | eq | ne | lt | le | gt | ge | un
deriving DecidableEq, Repr

/-- Width codes of LD and LDX (06 Table 6-4). -/
inductive LoadWidth where
  | s8 | z8 | s16 | z16 | s32 | z32 | d64
deriving DecidableEq, Repr

/-- Width codes of ST and STX (06 Table 6-4). -/
inductive StoreWidth where
  | b8 | b16 | b32 | b64
deriving DecidableEq, Repr

/-- Operand formats mf of MMA (06 Table 6-11). -/
inductive MmaFmt where
  | f32 | bf16 | f16 | e4m3 | e5m2 | e2m1 | int8
deriving DecidableEq, Repr

/-- Modes of SSTART (08 Table 8-5). -/
inductive GenMode where
  | read | write | drain
deriving DecidableEq, Repr

/-- Scopes of XINV (14 R369); field a is used with kind 1 only. -/
inductive XinvKind where
  | colour
  | page (a : BitVec 5)
  | all
deriving DecidableEq, Repr

/-! ## Arguments of events -/

/-- A core: an element, by the physical position 8y + x of its die and its element position (14 R372), or the die
controller of a die position. -/
inductive CoreId where
  | element (die pos : Nat)
  | controller (die : Nat)
deriving DecidableEq, Repr

/-- Kinds of channel source (14 R387). -/
inductive SourceKind where
  | element | memActor | node | headgate
deriving DecidableEq, Repr

/-- A source endpoint: die position, kind, element position or slot or node or headgate number, output index. -/
structure Source where
  die : Nat
  kind : SourceKind
  pos : Nat
  out : Nat
deriving DecidableEq, Repr

/-- Kinds of channel destination (14 R387, dkind 0 to 3). -/
inductive DestKind where
  | element | memActor | node | outfall
deriving DecidableEq, Repr

/-- A destination endpoint: die position, kind, place, input index (14 R387). -/
structure Dest where
  die : Nat
  kind : DestKind
  pos : Nat
  din : Nat
deriving DecidableEq, Repr

/-- A router of the fabric: die position and plot index (13 R348, 14 R372). -/
structure Loc where
  die : Nat
  plot : Nat
deriving DecidableEq, Repr

/-- What TOKEN_ARRIVAL delivers: packet `i` into its flume queue, or the next token of a flume queue into the port
queue it backs (02 R36, 04 R98). -/
inductive Arrival where
  | packet (i : Nat)
  | release (dest : Dest) (colour : Nat)
deriving DecidableEq, Repr

/-- Which deferral of 02 R52 ran into its limit. -/
inductive DeferKind where
  | context | window
deriving DecidableEq, Repr

/-- A rectangle of plots in panel plot coordinates (13 R331, 14 R384). -/
structure Rect where
  x0 : Nat
  y0 : Nat
  w : Nat
  h : Nat
deriving DecidableEq, Repr

/-- One placed actor replica: actor index in the image, replica index, die position, element position, actor slot,
address of its blob and of its retire bitmaps (12 R318, 02 R57). -/
structure PlacedReplica where
  actor : Nat
  replica : Nat
  die : Nat
  pos : Nat
  slot : Nat
  addr : Nat
  bitmap : Nat
deriving DecidableEq, Repr

/-- One placed node: node index in the image, die position, node number of 14 Table 14-6. -/
structure PlacedNode where
  node : Nat
  die : Nat
  unit : Nat
deriving DecidableEq, Repr

/-- One placed memory actor: index in the image, die position, slot. -/
structure PlacedMa where
  ma : Nat
  die : Nat
  slot : Nat
deriving DecidableEq, Repr

/-- A placement that the loader has chosen for one load (12 R318: it may choose any that meets the rules). -/
structure Plan where
  replicas : List PlacedReplica
  nodes : List PlacedNode
  mas : List PlacedMa
deriving DecidableEq, Repr

/-- How an Eolo frame travels (16 R431). -/
inductive Carrier where
  | ethernet (etherType vlanTags : Nat)
  | udp4 (port : Nat) (fragment df : Bool)
  | udp6 (port : Nat) (fragment : Bool)
deriving DecidableEq, Repr

/-- One Eolo frame (16 R431, R432): its carrier, total size, source address, header fields and body bytes. -/
structure Frame where
  carrier : Carrier
  size : Nat
  source : Nat
  ver : BitVec 8
  type : BitVec 8
  flags : BitVec 16
  session : BitVec 32
  seq : BitVec 32
  ack : BitVec 32
  window : BitVec 16
  code : BitVec 16
  length : BitVec 32
  rid : BitVec 64
  body : List Byte
deriving DecidableEq, Repr

/-! ## The instructions and the events -/

/-- Every row of spec/opcode_table.json, in the table's order. -/
inductive Instr where
  -- major 0x00, integer register (06 R174, 07 R195)
  | add (d : SQ) (a b : Src) (w : Bool)
  | sub (d : SQ) (a b : Src) (w : Bool)
  | and (d : SQ) (a b : Src)
  | or (d : SQ) (a b : Src)
  | xor (d : SQ) (a b : Src)
  | andn (d : SQ) (a b : Src)
  | orn (d : SQ) (a b : Src)
  | sll (d : SQ) (a b : Src) (w : Bool)
  | srl (d : SQ) (a b : Src) (w : Bool)
  | sra (d : SQ) (a b : Src) (w : Bool)
  | rol (d : SQ) (a b : Src) (w : Bool)
  | mul (d : SQ) (a b : Src) (w : Bool)
  | mulh (d : SQ) (a b : Src)
  | mulhz (d : SQ) (a b : Src)
  | div (d : SQ) (a b : Src) (w : Bool)
  | divz (d : SQ) (a b : Src) (w : Bool)
  | rem (d : SQ) (a b : Src) (w : Bool)
  | remz (d : SQ) (a b : Src) (w : Bool)
  | min (d : SQ) (a b : Src)
  | max (d : SQ) (a b : Src)
  | minz (d : SQ) (a b : Src)
  | maxz (d : SQ) (a b : Src)
  | adds (d : SQ) (a b : Src) (w : Bool)
  | subs (d : SQ) (a b : Src) (w : Bool)
  | clz (d : SQ) (a : Src) (w : Bool)
  | ctz (d : SQ) (a : Src) (w : Bool)
  | popc (d : SQ) (a : Src) (w : Bool)
  | brev (d : SQ) (a : Src)
  | bswap (d : SQ) (a : Src)
  | ext (d : SQ) (a b : Src)
  | extz (d : SQ) (a b : Src)
  | ins (d : BitVec 5) (a b : Src)
  | rand (d : SQ) (a b : Src)
  -- majors 0x01 to 0x07, immediates (06 R161, 07 R198 to R203)
  | addi (d a : BitVec 5) (imm : BitVec 16)
  | andi (d a : BitVec 5) (imm : BitVec 16)
  | ori (d a : BitVec 5) (imm : BitVec 16)
  | xori (d a : BitVec 5) (imm : BitVec 16)
  | slli (d a : BitVec 5) (w : Bool) (k : BitVec 6)
  | srli (d a : BitVec 5) (w : Bool) (k : BitVec 6)
  | srai (d a : BitVec 5) (w : Bool) (k : BitVec 6)
  | lui (d : BitVec 5) (imm : BitVec 16)
  | cmpi (cc : IntCc) (pd : BitVec 3) (a : BitVec 5) (imm : BitVec 13)
  -- majors 0x08 to 0x0B, element memory (06 R162, R177, 07 R214 to R220)
  | ld (wd : LoadWidth) (d a : BitVec 5) (off : BitVec 13)
  | st (wd : StoreWidth) (d a : BitVec 5) (off : BitVec 13)
  | ldx (wd : LoadWidth) (d a b : BitVec 5)
  | stx (wd : StoreWidth) (d a b : BitVec 5)
  | ldc (d : BitVec 5) (k : BitVec 8)
  -- majors 0x0C to 0x0F, control flow (06 R163 to R165, R178, 07 R206 to R213)
  | br (pn : Bool) (p : BitVec 3) (off : BitVec 22)
  | jmp (off : BitVec 22)
  | call (off : BitVec 22)
  | jr (a : BitVec 5)
  | callr (a : BitVec 5)
  | ret
  | done
  | nop
  | loop (c : BitVec 5) (body : BitVec 16)
  | rpt (c : BitVec 5) (n : BitVec 4)
  -- majors 0x10 to 0x13, floating point (06 R159, R160, 08 R223 to R238)
  | fadd (fmt : Fmt) (d a b : SQ)
  | fsub (fmt : Fmt) (d a b : SQ)
  | fmul (fmt : Fmt) (d a b : SQ)
  | fdiv (fmt : Fmt) (d a b : SQ)
  | fmin (fmt : Fmt) (d a b : SQ)
  | fmax (fmt : Fmt) (d a b : SQ)
  | fabs (fmt : Fmt) (d a : SQ)
  | fneg (fmt : Fmt) (d a : SQ)
  | fcps (fmt : Fmt) (d a b : SQ)
  | fsqrt (fmt : Fmt) (d a : SQ)
  | frcp (fmt : Fmt) (d a : SQ)
  | frsq (fmt : Fmt) (d a : SQ)
  | fexp2 (fmt : Fmt) (d a : SQ)
  | flog2 (fmt : Fmt) (d a : SQ)
  | fclass (fmt : Fmt) (d : BitVec 5) (a : SQ)
  | fsum2 (fmt : Fmt) (d a : SQ)
  | fpack (fmt : Fmt) (d a b : SQ)
  | funpack (fmt : Fmt) (d a : SQ)
  | fma (fmt : Fmt) (d : BitVec 5) (a b : SQ)
  | fms (fmt : Fmt) (d : BitVec 5) (a b : SQ)
  | fnma (fmt : Fmt) (d : BitVec 5) (a b : SQ)
  | fcvt (src dst : Fmt) (rm : Rm) (sat : Bool) (d a : SQ)
  | fcvtFromE2m1 (dst : Fmt) (rm : Rm) (d a : SQ)
  | fcvtToE2m1 (src : Fmt) (rm : Rm) (sat : Bool) (d a : SQ)
  | fcvti32 (src : Fmt) (rm : Rm) (sgn : Bool) (d a : SQ)
  | fcvti64 (src : Fmt) (rm : Rm) (sgn : Bool) (d : BitVec 5) (a : SQ)
  | fcvti8 (src : Fmt) (rm : Rm) (sgn : Bool) (d a : SQ)
  | icvtf32 (dst : Fmt) (rm : Rm) (sgn : Bool) (d a : SQ)
  | icvtf64 (dst : Fmt) (rm : Rm) (sgn : Bool) (d : SQ) (a : BitVec 5)
  | icvtf8 (dst : Fmt) (rm : Rm) (sgn : Bool) (d a : SQ)
  | fcmp (cc : FloatCc) (pd : BitVec 3) (a b : SQ)
  -- major 0x14, streams (06 R170, 08 R239 to R250)
  | sbindGenerator (q g : Fin 3)
  | sbindInputPort (q : Fin 3) (i : BitVec 3)
  | sbindOutputPort (q : Fin 3) (o : BitVec 4)
  | sbindUnbind (q : Fin 3)
  | scfg (g : Fin 3) (k : Fin 10) (a : BitVec 5)
  | sstart (g : Fin 3) (m : GenMode) (a : BitVec 5)
  | sstop (g : Fin 3)
  | swait (g : Fin 3)
  | scount (d : BitVec 5) (g : Fin 3)
  -- majors 0x15 to 0x17, tokens and tags (06 R167, R168, R184, 09 R258 to R273)
  | send (o : BitVec 4) (a : Src) (arm nx : Bool)
  | sendt (o : BitVec 4) (a b : Src) (arm : Bool)
  | sendbTile (o : BitVec 4) (t : BitVec 4) (scale clear : Bool)
  | sendbMemory (o : BitVec 4) (a : Src) (b : BitVec 5)
  | mreq (o : BitVec 4) (a : Src)
  | tagnext (d : BitVec 5)
  | tagret (a : Src) (fin : Bool)
  | tagmk (d : BitVec 5) (a b : Src)
  | tagctx (d : BitVec 5) (a : Src)
  | tagiter (d : BitVec 5) (a : Src)
  | ctxnew (d : BitVec 5) (a : Src) (pool : BitVec 4)
  | ctxfree (a : Src) (pool : BitVec 4)
  | stop (o : BitVec 4) (level : BitVec 3)
  | eos (o : BitVec 4)
  -- majors 0x18 and 0x19, matrix (06 R169, R183, 09 R278 to R290)
  | mma (mf : MmaFmt) (sc clear : Bool) (acc : BitVec 2) (ta tb : BitVec 4) (a : BitVec 5)
  | mzero (acc : BitVec 2)
  | mread (d a : BitVec 5) (acc : BitVec 2)
  | mstore (acc : BitVec 2) (a : BitVec 5)
  | mloada (acc : BitVec 2) (a : BitVec 5)
  | mfill (t : BitVec 4)
  | mempty (t : BitVec 4)
  | mwait
  | mstat (d : BitVec 5)
  | msr (clear : Bool) (acc : BitVec 2) (ta tb : BitVec 4)
  | mldm (a : BitVec 5)
  -- majors 0x1A to 0x1C, compares, predicates, select, element system (06 R181, R182, R185)
  | cmp (cc : IntCc) (pd : BitVec 3) (a b : Src) (w : Bool)
  | pand (pd pa pb : BitVec 3)
  | por (pd pa pb : BitVec 3)
  | pxor (pd pa pb : BitVec 3)
  | pnot (pd pa : BitVec 3)
  | pmov (pd pa : BitVec 3)
  | sel (d : BitVec 5) (pn : Bool) (p : BitVec 3) (a b : Src)
  | qshape (d : BitVec 5) (k : Fin 10)
  | rdid (d : BitVec 5) (k : Fin 7)
  | fault (a : Src)
  | fenceE
  | perf (d : BitVec 5) (k : Fin 8)
  | cyc (d : BitVec 5)
  -- major 0x1D, controller (06 R171, 14 R362 to R371)
  | scmd (d a : BitVec 5)
  | scwait (d a : BitVec 5)
  | csrr (d : BitVec 5) (k : BitVec 12)
  | csrw (a : BitVec 5) (k : BitVec 12)
  | eret
  | waitev (d : BitVec 5) (m : BitVec 12)
  | mbxrd (d a : BitVec 5) (k : Fin 5)
  | mbxwr (d a : BitVec 5) (k : Fin 5)
  | xinv (kind : XinvKind) (colour : BitVec 4)
  -- major 0x3B, two words (06 R166, 07 R201)
  | lix (d : BitVec 5) (imm : BitVec 44)
  -- firings, matching, windows, contexts (02)
  | stepLimit
  | deferralLimit (why : DeferKind)
  | tokenArrival (a : Arrival)
  | matchToken (die pos : Nat)
  | runQueueJoin (die pos : Nat)
  | endFiringReady (die pos slot : Nat)
  | dispatch (die pos : Nat)
  | firingCommit (die pos : Nat)
  | streamReadResume (die pos : Nat)
  | retireToken (die pos port : Nat)
  | freeNotice (i : Nat)
  | sluiceReply (die pool : Nat)
  -- nodes (02 R32 to R34)
  | turnoutPair (die node : Nat)
  | unorderedConfluence (die node input : Nat)
  | orderedConfluence (die node input : Nat)
  -- stream generators, drains, matrix unit (08, 09)
  | generatorRead (die pos : Nat) (g : Fin 3)
  | generatorWrite (die pos : Nat) (g : Fin 3)
  | drainToken (die pos : Nat) (g : Fin 3)
  | matrixCommandExecute (die pos : Nat)
  -- memory actors (04, 15)
  | memoryRequestIssue (die slot : Nat)
  | addressTranslation (die slot : Nat)
  | startToken (die slot : Nat)
  | writeDataToken (die slot : Nat)
  | afterToken (die slot : Nat)
  | memoryPerform (die slot index granule : Nat)
  | memoryResponse (die slot : Nat)
  | storeAcknowledgement (die slot index : Nat)
  | completionSegment (die slot : Nat)
  | spillWrite (dest : Dest) (colour : Nat) (failed : Bool)
  -- fabric and links (13, 15)
  | packetForward (i : Nat) (hop : Loc)
  | escapeSubchannel (i : Nat)
  | link (die link : Nat)
  | laneLoss (die link : Nat)
  -- faults and repairs (15)
  | faultRecordDelivery (die : Nat)
  | faultToken (die : Nat)
  | repairRequest (colour : Nat)
  | repairToken (i : Nat)
  -- launches, loads, switch (13)
  | headgateDescriptor (i : Nat)
  | headgateToken (die gate : Nat)
  | heldTokenRelease (die gate : Nat)
  | loaderWake (colour : Nat) (plan : Plan)
  | regionSchedule (colour : Nat) (rect : Rect) (plan : Plan)
  | quantum (die : Nat)
  | timer (die : Nat)
  | loadSelect (colour : Nat)
  | switchToken (src : Source) (colour : Nat)
  | elementSwitch (die pos : Nat)
  | drainedNotice (die colour : Nat)
  | loadComplete (colour : Nat)
  | completionMessage (colour : Nat)
  | mailboxDelivery (die k src : Nat)
  -- stream commands (14), by the issuing die position and the ticket
  | cfgWriteElementMemory (die ticket : Nat)
  | cfgWriteStagedBlock (die ticket : Nat)
  | cfgWriteActiveBlock (die ticket : Nat)
  | cfgWriteStagingArea (die ticket : Nat)
  | cfgWriteStagedNode (die ticket : Nat)
  | cfgWriteActiveNode (die ticket : Nat)
  | cfgBankImage (die ticket : Nat)
  | cfgBankConstants (die ticket : Nat)
  | loadStageOpen (die ticket : Nat)
  | loadStageClose (die ticket : Nat)
  | loadCommit (die ticket : Nat)
  | loadAbort (die ticket : Nat)
  | loadSwitch (die ticket : Nat)
  | regionGrant (die ticket : Nat)
  | regionFree (die ticket : Nat)
  | maSet (die ticket : Nat)
  | maStart (die ticket : Nat)
  | maResumeHalt (die ticket : Nat)
  | maResumeFault (die ticket : Nat)
  | maHalt (die ticket : Nat)
  | chanBind (die ticket : Nat)
  | chanDepth (die ticket : Nat)
  | inject (die ticket : Nat)
  | repairResume (die ticket : Nat)
  | repairSkip (die ticket : Nat)
  | repairSubst (die ticket : Nat)
  | repairAbort (die ticket : Nat)
  | weir (die ticket : Nat)
  | colourRead (die ticket : Nat)
  | stateSave (die ticket : Nat)
  | stateLoad (die ticket : Nat)
  | sluiceSet (die ticket : Nat)
  | sluiceClear (die ticket : Nat)
  | rebalMove (die ticket : Nat)
  | plotClock (die ticket : Nat)
  | genMarkHold (die ticket : Nat)
  | genMarkRelease (die ticket : Nat)
  | genMarkQuery (die ticket : Nat)
  | xlateRoot (die ticket : Nat)
  | streamCommandComplete (die ticket : Nat)
  -- pre-emption (15)
  | elementFreeze (die pos : Nat)
  | memoryActorWeir (die slot : Nat)
  | cutComplete (colour : Nat)
  | cutCompletionWins (colour : Nat)
  | launchResume (colour : Nat) (rect : Rect) (plan : Plan)
  -- Eolo (16)
  | hello (f : Frame)
  | bye (f : Frame)
  | eoloWrite (f : Frame)
  | eoloRead (f : Frame)
  | image (f : Frame)
  | unload (f : Frame)
  | launch (f : Frame)
  | stream (f : Frame)
  | queryIdentity (f : Frame)
  | queryLiveMap (f : Frame)
  | queryQuote (f : Frame)
  | queryKey (f : Frame)
  | querySetPort (f : Frame)
  | regionOpen (f : Frame)
  | regionAbort (f : Frame)
  | journal (f : Frame)
  | eoloRepair (f : Frame)
  | peerWindow (f : Frame)
  | peerInboundGrant (f : Frame)
  | peerBind (f : Frame)
  | eoloAck (f : Frame)
  | eoloRetransmit (session : Nat)
  | completion (i : Nat)
  | eoloFault (die : Nat)
  | halt (die : Nat)
  | message (die : Nat)
  -- boot, telemetry, physics (16, 18)
  | moduleReset (failures : List (BitVec 64)) (halves : List (Nat × Nat))
  | telemetryUpdate (die : Nat)
  | thermal (die plot : Nat) (tenthsC : Nat)
  | xinvAcknowledged (die acker : Nat)
  | nonInstruction
  | laneRetrain (die link : Nat) (degrades : Bool)
deriving DecidableEq, Repr

end Sys2Proof
end

