-- ==== Sys2Proof/WellFormed.lean ====
section
/-! DEFINITION. The checks an instruction meets beyond its types: the operand combinations that chapter 6 reserves
although the fields could hold them. -/

namespace Sys2Proof

/-- FSUM2, FPACK and FUNPACK take fmt 1 to 4 (06 Table 6-7). -/
def Fmt.packed : Fmt → Bool
  | .f32 => false
  | _ => true

/-- The combinations of sc and mf that R183 allows (06). -/
def MmaFmt.scOk (mf : MmaFmt) (sc : Bool) : Bool :=
  match mf with
  | .e2m1 => sc
  | .e4m3 | .e5m2 => true
  | .f32 | .bf16 | .f16 | .int8 => !sc

/-- A shift amount with w must be below 32 (06 R175). -/
def shiftOk (w : Bool) (k : BitVec 6) : Bool := !w || k.toNat < 32

/-- Source formats of FCVT differ from its destination (06 Table 6-6). -/
def fcvtOk (src dst : Fmt) : Bool := src ≠ dst

/-- The rows of the table that have an encoding. -/
def Instr.isIsa : Instr → Bool
  | .stepLimit | .deferralLimit _ | .tokenArrival _ | .matchToken _ _ | .runQueueJoin _ _ | .endFiringReady _ _ _
  | .dispatch _ _ | .firingCommit _ _ | .streamReadResume _ _ | .retireToken _ _ _ | .freeNotice _ | .sluiceReply _ _
  | .turnoutPair _ _ | .unorderedConfluence _ _ _ | .orderedConfluence _ _ _ | .generatorRead _ _ _
  | .generatorWrite _ _ _ | .drainToken _ _ _ | .matrixCommandExecute _ _ | .memoryRequestIssue _ _
  | .addressTranslation _ _ | .startToken _ _ | .writeDataToken _ _ | .afterToken _ _ | .memoryPerform _ _ _ _
  | .memoryResponse _ _ | .storeAcknowledgement _ _ _ | .completionSegment _ _ | .spillWrite _ _ _
  | .packetForward _ _ | .escapeSubchannel _ | .link _ _ | .laneLoss _ _ | .faultRecordDelivery _ | .faultToken _
  | .repairRequest _ | .repairToken _ | .headgateDescriptor _ | .headgateToken _ _ | .heldTokenRelease _ _
  | .loaderWake _ _ | .regionSchedule _ _ _ | .quantum _ | .timer _ | .loadSelect _ | .switchToken _ _
  | .elementSwitch _ _ | .drainedNotice _ _ | .loadComplete _ | .completionMessage _ | .mailboxDelivery _ _ _
  | .cfgWriteElementMemory _ _ | .cfgWriteStagedBlock _ _ | .cfgWriteActiveBlock _ _ | .cfgWriteStagingArea _ _
  | .cfgWriteStagedNode _ _ | .cfgWriteActiveNode _ _ | .cfgBankImage _ _ | .cfgBankConstants _ _
  | .loadStageOpen _ _ | .loadStageClose _ _ | .loadCommit _ _ | .loadAbort _ _ | .loadSwitch _ _
  | .regionGrant _ _ | .regionFree _ _ | .maSet _ _ | .maStart _ _ | .maResumeHalt _ _ | .maResumeFault _ _
  | .maHalt _ _ | .chanBind _ _ | .chanDepth _ _ | .inject _ _ | .repairResume _ _ | .repairSkip _ _
  | .repairSubst _ _ | .repairAbort _ _ | .weir _ _ | .colourRead _ _ | .stateSave _ _ | .stateLoad _ _
  | .sluiceSet _ _ | .sluiceClear _ _ | .rebalMove _ _ | .plotClock _ _ | .genMarkHold _ _ | .genMarkRelease _ _
  | .genMarkQuery _ _ | .xlateRoot _ _ | .streamCommandComplete _ _ | .elementFreeze _ _ | .memoryActorWeir _ _
  | .cutComplete _ | .cutCompletionWins _ | .launchResume _ _ _ | .hello _ | .bye _ | .eoloWrite _ | .eoloRead _
  | .image _ | .unload _ | .launch _ | .stream _ | .queryIdentity _ | .queryLiveMap _ | .queryQuote _ | .queryKey _
  | .querySetPort _ | .regionOpen _ | .regionAbort _ | .journal _ | .eoloRepair _ | .peerWindow _
  | .peerInboundGrant _ | .peerBind _ | .eoloAck _ | .eoloRetransmit _ | .completion _ | .eoloFault _ | .halt _
  | .message _ | .moduleReset _ _ | .telemetryUpdate _ | .thermal _ _ _ | .xinvAcknowledged _ _ | .nonInstruction
  | .laneRetrain _ _ _ => false
  | _ => true

/-- A well-formed instruction: one that some word of chapter 6 encodes. Events are arguments of turns, not words. -/
def Instr.wellFormed : Instr → Bool
  | .slli _ _ w k | .srli _ _ w k | .srai _ _ w k => shiftOk w k
  | .loop _ body => body ≠ 0
  | .fsum2 fmt _ _ | .funpack fmt _ _ => fmt.packed
  | .fpack fmt _ _ _ => fmt.packed
  | .fcvt src dst _ _ _ _ => fcvtOk src dst
  | .stop _ level => level ≠ 0 && level ≠ 7
  | .mma mf sc _ _ _ _ a => mf.scOk sc && (mf = .e2m1 || a = 0)
  | i => i.isIsa

end Sys2Proof
end

