-- ==== Sys2Proof/Decode.lean ====
section
/-! DEFINITION. Decoding of instruction words (06 R152 to R187) and, after it, the encoder. Decoding is total: every
word that is no instruction is rejected, with the fault it raises (06 R186). -/

namespace Sys2Proof

/-- Why a word is no instruction: the fault of R154 and R186 that it raises. -/
inductive DecodeError where
  | illegal
  | extword
  | truncated
deriving DecidableEq, Repr

/-- The `n` bits of `w` from bit `lo` upward. -/
def fld (w : Word) (lo n : Nat) : BitVec n := w.extractLsb' lo n

/-- Bit `i` of `w`. -/
def wbit (w : Word) (i : Nat) : Bool := w.getLsbD i

/-! ## Operand fields -/

/-- The alternate bank of 06 Table 6-1; other field values are reserved. -/
def decSrc (alt : Bool) (f : BitVec 5) : Option Src :=
  if alt then
    match f.toNat with
    | 0 => some (.x 0)
    | 1 => some (.x 1)
    | 2 => some (.x 2)
    | 3 => some (.x 3)
    | 4 => some .xt
    | 5 => some .xc
    | 8 => some (.q 0)
    | 9 => some (.q 1)
    | 10 => some (.q 2)
    | _ => none
  else some (.s f)

/-- A stream number; 3 and above are reserved (06 R159). -/
def decQ (n : Nat) : Option (Fin 3) :=
  match n with
  | 0 => some 0
  | 1 => some 1
  | 2 => some 2
  | _ => none

/-- A field with a q bit (06 R159, R174). -/
def decSQ (q : Bool) (f : BitVec 5) : Option SQ :=
  if q then (decQ f.toNat).map .q else some (.s f)

/-- fmt codes (06 R159). -/
def decFmt (f : BitVec 3) : Option Fmt :=
  match f.toNat with
  | 0 => some .f32
  | 1 => some .bf16x2
  | 2 => some .f16x2
  | 3 => some .e4m3x4
  | 4 => some .e5m2x4
  | _ => none

/-- Rounding codes (03 Table 3-3). -/
def decRm (f : BitVec 3) : Option Rm :=
  match f.toNat with
  | 0 => some .rn
  | 1 => some .rz
  | 2 => some .ru
  | 3 => some .rd
  | 4 => some .rs
  | _ => none

/-- Integer condition codes (06 R176). -/
def decIntCc (f : BitVec 3) : Option IntCc :=
  match f.toNat with
  | 0 => some .eq
  | 1 => some .ne
  | 2 => some .lt
  | 3 => some .ge
  | 4 => some .lo
  | 5 => some .hs
  | _ => none

/-- Float condition codes (06 R180). -/
def decFloatCc (f : BitVec 3) : Option FloatCc :=
  match f.toNat with
  | 0 => some .eq
  | 1 => some .ne
  | 2 => some .lt
  | 3 => some .le
  | 4 => some .gt
  | 5 => some .ge
  | 6 => some .un
  | _ => none

/-- Load widths (06 Table 6-4). -/
def decLoadWidth (f : BitVec 3) : Option LoadWidth :=
  match f.toNat with
  | 0 => some .s8
  | 1 => some .z8
  | 2 => some .s16
  | 3 => some .z16
  | 4 => some .s32
  | 5 => some .z32
  | 6 => some .d64
  | _ => none

/-- Store widths (06 Table 6-4). -/
def decStoreWidth (f : BitVec 3) : Option StoreWidth :=
  match f.toNat with
  | 0 => some .b8
  | 2 => some .b16
  | 4 => some .b32
  | 6 => some .b64
  | _ => none

/-- Operand formats of MMA (06 Table 6-11). -/
def decMmaFmt (f : BitVec 3) : Option MmaFmt :=
  match f.toNat with
  | 0 => some .f32
  | 1 => some .bf16
  | 2 => some .f16
  | 3 => some .e4m3
  | 4 => some .e5m2
  | 5 => some .e2m1
  | 6 => some .int8
  | _ => none

/-! ## Sub-maps -/

/-- Major 0x00, two sources, .w accepted (06 Table 6-3). -/
def alu2w (op : Nat) : Option (SQ → Src → Src → Bool → Instr) :=
  match op with
  | 0x00 => some .add
  | 0x01 => some .sub
  | 0x08 => some .sll
  | 0x09 => some .srl
  | 0x0A => some .sra
  | 0x0B => some .rol
  | 0x10 => some .mul
  | 0x14 => some .div
  | 0x15 => some .divz
  | 0x16 => some .rem
  | 0x17 => some .remz
  | 0x1C => some .adds
  | 0x1D => some .subs
  | _ => none

/-- Major 0x00, two sources, no .w. -/
def alu2 (op : Nat) : Option (SQ → Src → Src → Instr) :=
  match op with
  | 0x02 => some .and
  | 0x03 => some .or
  | 0x04 => some .xor
  | 0x05 => some .andn
  | 0x06 => some .orn
  | 0x11 => some .mulh
  | 0x12 => some .mulhz
  | 0x18 => some .min
  | 0x19 => some .max
  | 0x1A => some .minz
  | 0x1B => some .maxz
  | 0x28 => some .ext
  | 0x29 => some .extz
  | 0x2C => some .rand
  | _ => none

/-- Major 0x00, one source (06 R174: b and balt are then reserved), .w accepted. -/
def alu1w (op : Nat) : Option (SQ → Src → Bool → Instr) :=
  match op with
  | 0x20 => some .clz
  | 0x21 => some .ctz
  | 0x22 => some .popc
  | _ => none

/-- Major 0x00, one source, no .w. -/
def alu1 (op : Nat) : Option (SQ → Src → Instr) :=
  match op with
  | 0x23 => some .brev
  | 0x24 => some .bswap
  | _ => none

/-- Major 0x00 (06 R174). -/
def decInt (w : Word) : Option Instr :=
  let op := (fld w 0 6).toNat
  let ww := wbit w 7
  if wbit w 6 then none
  else if op = 0x2A then
    match decSrc (wbit w 10) (fld w 16 5), decSrc (wbit w 9) (fld w 11 5) with
    | some a, some b => if wbit w 8 || ww then none else some (.ins (fld w 21 5) a b)
    | _, _ => none
  else
    match decSQ (wbit w 8) (fld w 21 5), decSrc (wbit w 10) (fld w 16 5) with
    | some d, some a =>
      match alu1w op, alu1 op with
      | some k, _ => if fld w 11 5 = 0 && !wbit w 9 then some (k d a ww) else none
      | none, some k => if fld w 11 5 = 0 && !wbit w 9 && !ww then some (k d a) else none
      | none, none =>
        match decSrc (wbit w 9) (fld w 11 5) with
        | some b =>
          match alu2w op, alu2 op with
          | some k, _ => some (k d a b ww)
          | none, some k => if ww then none else some (k d a b)
          | none, none => none
        | none => none
    | _, _ => none

/-- Major 0x05 (06 R175). -/
def decShift (w : Word) : Option Instr :=
  let d := fld w 21 5
  let a := fld w 16 5
  let ww := wbit w 6
  let k := fld w 0 6
  if fld w 7 7 = 0 && shiftOk ww k then
    match (fld w 14 2).toNat with
    | 0 => some (.slli d a ww k)
    | 1 => some (.srli d a ww k)
    | 2 => some (.srai d a ww k)
    | _ => none
  else none

/-- Major 0x07 (06 R172, R176). -/
def decCmpi (w : Word) : Option Instr :=
  if fld w 24 2 = 0 then
    (decIntCc (fld w 13 3)).map fun cc => .cmpi cc (fld w 21 3) (fld w 16 5) (fld w 0 13)
  else none

/-- Major 0x0A (06 R177). -/
def decIndexed (w : Word) : Option Instr :=
  if fld w 0 7 = 0 then
    if wbit w 10 then (decStoreWidth (fld w 7 3)).map fun wd => .stx wd (fld w 21 5) (fld w 16 5) (fld w 11 5)
    else (decLoadWidth (fld w 7 3)).map fun wd => .ldx wd (fld w 21 5) (fld w 16 5) (fld w 11 5)
  else none

/-- Major 0x0E (06 R178). -/
def decJump (w : Word) : Option Instr :=
  let a := fld w 16 5
  if fld w 21 5 = 0 && fld w 4 12 = 0 then
    match (fld w 0 4).toNat with
    | 0 => some (.jr a)
    | 1 => some (.callr a)
    | 2 => if a = 0 then some .ret else none
    | 3 => if a = 0 then some .done else none
    | 4 => if a = 0 then some .nop else none
    | _ => none
  else none

/-- Major 0x0F (06 R165). -/
def decLoop (w : Word) : Option Instr :=
  if fld w 16 4 = 0 then
    if wbit w 25 then if fld w 4 12 = 0 then some (.rpt (fld w 20 5) (fld w 0 4)) else none
    else if fld w 0 16 = 0 then none else some (.loop (fld w 20 5) (fld w 0 16))
  else none

/-- Major 0x10, two sources (06 Table 6-7). -/
def float2 (fn : Nat) : Option (Fmt → SQ → SQ → SQ → Instr) :=
  match fn with
  | 0x00 => some .fadd
  | 0x01 => some .fsub
  | 0x02 => some .fmul
  | 0x03 => some .fdiv
  | 0x04 => some .fmin
  | 0x05 => some .fmax
  | 0x08 => some .fcps
  | 0x10 => some .fpack
  | _ => none

/-- Major 0x10, one source: b and qb are reserved. -/
def float1 (fn : Nat) : Option (Fmt → SQ → SQ → Instr) :=
  match fn with
  | 0x06 => some .fabs
  | 0x07 => some .fneg
  | 0x09 => some .fsqrt
  | 0x0A => some .frcp
  | 0x0B => some .frsq
  | 0x0C => some .fexp2
  | 0x0D => some .flog2
  | 0x0F => some .fsum2
  | 0x11 => some .funpack
  | _ => none

/-- Major 0x10 (06 R159, Table 6-7). -/
def decFloat (w : Word) : Option Instr :=
  let fn := (fld w 0 5).toNat
  match decFmt (fld w 5 3), decSQ (wbit w 9) (fld w 16 5) with
  | some fmt, some a =>
    if fn = 0x0E then
      if fld w 11 5 = 0 && !wbit w 8 && !wbit w 10 then some (.fclass fmt (fld w 21 5) a) else none
    else
      match decSQ (wbit w 10) (fld w 21 5), float1 fn, float2 fn with
      | some d, some k, _ =>
        if fld w 11 5 = 0 && !wbit w 8 && (fmt.packed || (fn ≠ 0x0F && fn ≠ 0x11)) then some (k fmt d a) else none
      | some d, none, some k =>
        match decSQ (wbit w 8) (fld w 11 5) with
        | some b => if fmt.packed || fn ≠ 0x10 then some (k fmt d a b) else none
        | none => none
      | _, _, _ => none
  | _, _ => none

/-- Major 0x11 (06 Table 6-7; qd is reserved). -/
def decFma (w : Word) : Option Instr :=
  match decFmt (fld w 5 3), decSQ (wbit w 9) (fld w 16 5), decSQ (wbit w 8) (fld w 11 5) with
  | some fmt, some a, some b =>
    if wbit w 10 then none
    else
      match (fld w 0 5).toNat with
      | 0 => some (.fma fmt (fld w 21 5) a b)
      | 1 => some (.fms fmt (fld w 21 5) a b)
      | 2 => some (.fnma fmt (fld w 21 5) a b)
      | _ => none
  | _, _, _ => none

/-- Major 0x12 (06 R160, Table 6-6). -/
def decConvert (w : Word) : Option Instr :=
  let fn := (fld w 0 5).toNat
  let sat := wbit w 15
  let sgn := wbit w 11
  if wbit w 8 then none
  else
    match decFmt (fld w 5 3), decRm (fld w 12 3) with
    | some fmt, some rm =>
      if fn = 0x09 then
        match decSQ (wbit w 9) (fld w 16 5) with
        | some a => if wbit w 10 || sat then none else some (.fcvti64 fmt rm sgn (fld w 21 5) a)
        | none => none
      else
        match decSQ (wbit w 10) (fld w 21 5) with
        | some d =>
          if fn = 0x0D then if wbit w 9 || sat then none else some (.icvtf64 fmt rm sgn d (fld w 16 5))
          else
            match decSQ (wbit w 9) (fld w 16 5) with
            | some a =>
              if fn < 5 then
                match decFmt (fld w 0 3) with
                | some src => if !sgn && fcvtOk src fmt then some (.fcvt src fmt rm sat d a) else none
                | none => none
              else
                match fn with
                | 0x05 => if sat || sgn then none else some (.fcvtFromE2m1 fmt rm d a)
                | 0x06 => if sgn then none else some (.fcvtToE2m1 fmt rm sat d a)
                | 0x08 => if sat then none else some (.fcvti32 fmt rm sgn d a)
                | 0x0A => if sat then none else some (.fcvti8 fmt rm sgn d a)
                | 0x0C => if sat then none else some (.icvtf32 fmt rm sgn d a)
                | 0x0E => if sat then none else some (.icvtf8 fmt rm sgn d a)
                | _ => none
            | none => none
        | none => none
    | _, _ => none

/-- Major 0x13 (06 R172, R180). -/
def decFcmp (w : Word) : Option Instr :=
  if fld w 24 2 = 0 && !wbit w 10 && fld w 3 5 = 0 then
    match decFloatCc (fld w 0 3), decSQ (wbit w 9) (fld w 16 5), decSQ (wbit w 8) (fld w 11 5) with
    | some cc, some a, some b => some (.fcmp cc (fld w 21 3) a b)
    | _, _, _ => none
  else none

/-- Major 0x14 sub 0, SBIND (06 Table 6-9, 08 Table 8-5). -/
def decSbind (w : Word) : Option Instr :=
  if fld w 23 3 = 0 && fld w 16 5 = 0 && fld w 11 5 = 0 && fld w 4 2 = 0 then
    match decQ (fld w 21 2).toNat with
    | some q =>
      match (fld w 6 2).toNat with
      | 0 => (decQ (fld w 0 4).toNat).map fun g => .sbindGenerator q g
      | 1 => if wbit w 3 then none else some (.sbindInputPort q (fld w 0 3))
      | 2 => some (.sbindOutputPort q (fld w 0 4))
      | _ => if fld w 0 4 = 0 then some (.sbindUnbind q) else none
    | none => none
  else none

/-- Parameter indices of SCFG; 10 to 63 are reserved (08 R240). -/
def decParam (n : Nat) : Option (Fin 10) :=
  if h : n < 10 then some ⟨n, h⟩ else none

/-- Major 0x14 (06 R170, 08 R240). -/
def decStream (w : Word) : Option Instr :=
  let d := fld w 21 5
  let a := fld w 16 5
  if fld w 8 3 = 0 then decSbind w
  else if fld w 11 5 = 0 then
    match decQ (fld w 6 2).toNat with
    | some g =>
      match (fld w 8 3).toNat with
      | 1 => if d = 0 then (decParam (fld w 0 6).toNat).map fun k => .scfg g k a else none
      | 2 =>
        if d = 0 then
          match (fld w 0 6).toNat with
          | 0 => some (.sstart g .read a)
          | 1 => some (.sstart g .write a)
          | 2 => some (.sstart g .drain a)
          | _ => none
        else none
      | 3 => if d = 0 && a = 0 && fld w 0 6 = 0 then some (.sstop g) else none
      | 4 => if d = 0 && a = 0 && fld w 0 6 = 0 then some (.swait g) else none
      | 5 => if a = 0 && fld w 0 6 = 0 then some (.scount d g) else none
      | _ => none
    | none => none
  else none

/-- Major 0x15 (06 R167, Table 6-10, 09 Table 9-3). -/
def decToken (w : Word) : Option Instr :=
  let o := fld w 22 4
  let bf := fld w 12 5
  match (fld w 8 3).toNat with
  | 0 =>
    if bf = 0 && fld w 2 6 = 0 then
      (decSrc (wbit w 11) (fld w 17 5)).map fun a => .send o a (wbit w 1) (wbit w 0)
    else none
  | 1 =>
    if fld w 3 5 = 0 && !wbit w 0 then
      match decSrc (wbit w 11) (fld w 17 5), decSrc (wbit w 2) bf with
      | some a, some b => some (.sendt o a b (wbit w 1))
      | _, _ => none
    else none
  | 2 =>
    if wbit w 6 then
      if fld w 17 5 = 0 && !wbit w 11 && fld w 13 4 = 0 && fld w 4 2 = 0 then
        some (.sendbTile o (fld w 0 4) (wbit w 12) (wbit w 7))
      else none
    else if fld w 0 6 = 0 && !wbit w 7 then
      (decSrc (wbit w 11) (fld w 17 5)).map fun a => .sendbMemory o a bf
    else none
  | 3 =>
    if bf = 0 && fld w 0 8 = 0 then (decSrc (wbit w 11) (fld w 17 5)).map fun a => .mreq o a
    else none
  | _ => none

/-- Major 0x16 (06 R184, Table 6-12). -/
def decTag (w : Word) : Option Instr :=
  let d := fld w 21 5
  let noB := fld w 11 5 = 0 && !wbit w 9
  let noA := fld w 16 5 = 0 && !wbit w 10
  let pool := fld w 4 4
  if wbit w 3 then none
  else
    match (fld w 0 3).toNat with
    | 0 => if noA && noB && !wbit w 8 && pool = 0 then some (.tagnext d) else none
    | 1 =>
      if d = 0 && noB && pool = 0 then (decSrc (wbit w 10) (fld w 16 5)).map fun a => .tagret a (wbit w 8)
      else none
    | 2 =>
      if !wbit w 8 && pool = 0 then
        match decSrc (wbit w 10) (fld w 16 5), decSrc (wbit w 9) (fld w 11 5) with
        | some a, some b => some (.tagmk d a b)
        | _, _ => none
      else none
    | 3 =>
      if noB && !wbit w 8 && pool = 0 then (decSrc (wbit w 10) (fld w 16 5)).map fun a => .tagctx d a else none
    | 4 =>
      if noB && !wbit w 8 && pool = 0 then (decSrc (wbit w 10) (fld w 16 5)).map fun a => .tagiter d a else none
    | 5 => if noB && !wbit w 8 then (decSrc (wbit w 10) (fld w 16 5)).map fun a => .ctxnew d a pool else none
    | 6 =>
      if d = 0 && noB && !wbit w 8 then (decSrc (wbit w 10) (fld w 16 5)).map fun a => .ctxfree a pool else none
    | _ => none

/-- Major 0x17 (06 R168). -/
def decEnd (w : Word) : Option Instr :=
  if wbit w 25 || fld w 3 18 ≠ 0 then none
  else if fld w 0 3 = 0 then some (.eos (fld w 21 4))
  else if fld w 0 3 = 7 then none
  else some (.stop (fld w 21 4) (fld w 0 3))

/-- Major 0x18 (06 R169, R183, Table 6-11, 09 Table 9-7). -/
def decMatrix (w : Word) : Option Instr :=
  let d := fld w 21 5
  let a := fld w 16 5
  let ta := fld w 12 4
  let tb := fld w 8 4
  let acc := fld w 6 2
  if wbit w 4 then
    if wbit w 5 then none
    else
      match (fld w 0 4).toNat with
      | 0x0 => if d = 0 && a = 0 && ta = 0 && tb = 0 then some (.mzero acc) else none
      | 0x1 => if ta = 0 && tb = 0 then some (.mread d a acc) else none
      | 0x2 => if d = 0 && ta = 0 && tb = 0 then some (.mstore acc a) else none
      | 0x3 => if d = 0 && ta = 0 && tb = 0 then some (.mloada acc a) else none
      | 0x4 => if d = 0 && a = 0 && tb = 0 && acc = 0 then some (.mfill ta) else none
      | 0x5 => if d = 0 && a = 0 && tb = 0 && acc = 0 then some (.mempty ta) else none
      | 0x6 => if d = 0 && a = 0 && ta = 0 && tb = 0 && acc = 0 then some .mwait else none
      | 0x7 => if a = 0 && ta = 0 && tb = 0 && acc = 0 then some (.mstat d) else none
      | _ => none
  else
    match decMmaFmt (fld w 0 3) with
    | some mf =>
      if d = 0 && mf.scOk (wbit w 3) && (mf = .e2m1 || a = 0) then some (.mma mf (wbit w 3) (wbit w 5) acc ta tb a)
      else none
    | none => none

/-- Major 0x19 (06 Table 6-11, 09 Table 9-7). -/
def decSemiring (w : Word) : Option Instr :=
  let ta := fld w 12 4
  let tb := fld w 8 4
  let acc := fld w 6 2
  match (fld w 0 5).toNat with
  | 0 => if fld w 21 5 = 0 && fld w 16 5 = 0 then some (.msr (wbit w 5) acc ta tb) else none
  | 1 =>
    if fld w 21 5 = 0 && ta = 0 && tb = 0 && acc = 0 && !wbit w 5 then some (.mldm (fld w 16 5)) else none
  | _ => none

/-- Major 0x1A (06 R172, R181, Table 6-8). -/
def decPred (w : Word) : Option Instr :=
  let pd := fld w 21 3
  let pa := fld w 16 3
  let pb := fld w 11 3
  if fld w 24 2 = 0 && fld w 6 2 = 0 then
    if fld w 3 3 = 0 then
      match decIntCc (fld w 0 3), decSrc (wbit w 10) (fld w 16 5), decSrc (wbit w 9) (fld w 11 5) with
      | some cc, some a, some b => some (.cmp cc pd a b (wbit w 8))
      | _, _, _ => none
    else if fld w 8 3 = 0 && fld w 0 3 = 0 && fld w 19 2 = 0 && fld w 14 2 = 0 then
      match (fld w 3 3).toNat with
      | 1 => some (.pand pd pa pb)
      | 2 => some (.por pd pa pb)
      | 3 => some (.pxor pd pa pb)
      | 4 => if pb = 0 then some (.pnot pd pa) else none
      | 5 => if pb = 0 then some (.pmov pd pa) else none
      | _ => none
    else none
  else none

/-- Major 0x1B (06 R182). -/
def decSel (w : Word) : Option Instr :=
  if fld w 4 5 = 0 then
    match decSrc (wbit w 10) (fld w 16 5), decSrc (wbit w 9) (fld w 11 5) with
    | some a, some b => some (.sel (fld w 21 5) (wbit w 3) (fld w 0 3) a b)
    | _, _ => none
  else none

/-- The k of QSHAPE, RDID and PERF (09 R291). -/
def decBounded (n b : Nat) : Option (Fin b) :=
  if h : n < b then some ⟨n, h⟩ else none

/-- Major 0x1C (06 R185, Table 6-13). -/
def decSystem (w : Word) : Option Instr :=
  let d := fld w 21 5
  let k := (fld w 3 5).toNat
  if fld w 8 2 = 0 && fld w 11 5 = 0 then
    if fld w 0 3 = 2 then
      if d = 0 && k = 0 then (decSrc (wbit w 10) (fld w 16 5)).map .fault else none
    else if fld w 16 5 = 0 && !wbit w 10 then
      match (fld w 0 3).toNat with
      | 0 => (decBounded k 10).map fun k => .qshape d k
      | 1 => (decBounded k 7).map fun k => .rdid d k
      | 3 => if d = 0 && k = 0 then some .fenceE else none
      | 4 => (decBounded k 8).map fun k => .perf d k
      | 5 => if k = 0 then some (.cyc d) else none
      | _ => none
    else none
  else none

/-- Major 0x1D in the controller form (06 R171; 14 R362, Table 14-2): sub 0 to 8, every field that the table marks — zero. -/
def decController (w : Word) : Option Instr :=
  let d := fld w 21 5
  let a := fld w 16 5
  let imm := fld w 0 12
  match (fld w 12 4).toNat with
  | 0 => if imm = 0 then some (.scmd d a) else none
  | 1 => if imm = 0 then some (.scwait d a) else none
  | 2 => if a = 0 then some (.csrr d imm) else none
  | 3 => if d = 0 then some (.csrw a imm) else none
  | 4 => if d = 0 && a = 0 && imm = 0 then some .eret else none
  | 5 => if a = 0 then some (.waitev d imm) else none
  | 6 => (decBounded imm.toNat 5).map fun k => .mbxrd d a k
  | 7 => (decBounded imm.toNat 5).map fun k => .mbxwr d a k
  | 8 =>
    if d = 0 && fld w 6 6 = 0 then
      match (fld w 4 2).toNat with
      | 0 => if a = 0 then some (.xinv .colour (fld w 0 4)) else none
      | 1 => some (.xinv (.page a) (fld w 0 4))
      | 2 => if a = 0 then some (.xinv .all (fld w 0 4)) else none
      | _ => none
    else none
  | _ => none

/-- Every one-word major (06 Table 6-2). -/
def decWord (w : Word) : Option Instr :=
  let d := fld w 21 5
  let a := fld w 16 5
  match (fld w 26 6).toNat with
  | 0x00 => decInt w
  | 0x01 => some (.addi d a (fld w 0 16))
  | 0x02 => some (.andi d a (fld w 0 16))
  | 0x03 => some (.ori d a (fld w 0 16))
  | 0x04 => some (.xori d a (fld w 0 16))
  | 0x05 => decShift w
  | 0x06 => if a = 0 then some (.lui d (fld w 0 16)) else none
  | 0x07 => decCmpi w
  | 0x08 => (decLoadWidth (fld w 13 3)).map fun wd => .ld wd d a (fld w 0 13)
  | 0x09 => (decStoreWidth (fld w 13 3)).map fun wd => .st wd d a (fld w 0 13)
  | 0x0A => decIndexed w
  | 0x0B => if a = 0 && fld w 8 8 = 0 then some (.ldc d (fld w 0 8)) else none
  | 0x0C => some (.br (wbit w 25) (fld w 22 3) (fld w 0 22))
  | 0x0D =>
    if fld w 22 3 = 0 then if wbit w 25 then some (.call (fld w 0 22)) else some (.jmp (fld w 0 22)) else none
  | 0x0E => decJump w
  | 0x0F => decLoop w
  | 0x10 => decFloat w
  | 0x11 => decFma w
  | 0x12 => decConvert w
  | 0x13 => decFcmp w
  | 0x14 => decStream w
  | 0x15 => decToken w
  | 0x16 => decTag w
  | 0x17 => decEnd w
  | 0x18 => decMatrix w
  | 0x19 => decSemiring w
  | 0x1A => decPred w
  | 0x1B => decSel w
  | 0x1C => decSystem w
  | 0x1D => decController w
  | _ => none

/-- An extension word (06 R153). -/
def isExtWord (w : Word) : Bool := fld w 28 4 = 0xF

/-- Decoding of a first word, with the word after it where major 0x3B needs one (06 R154, R166, R186). -/
def decodeWords (w : Word) (w2 : Option Word) : Except DecodeError Instr :=
  if isExtWord w then .error .extword
  else if (fld w 26 6).toNat = 0x3B then
    match w2 with
    | none => .error .truncated
    | some v =>
      if isExtWord v && fld w 16 5 = 0 then .ok (.lix (fld w 21 5) (fld w 0 16 ++ fld v 0 28)) else .error .illegal
  else
    match decWord w with
    | some i => .ok i
    | none => .error .illegal

/-- Bytes an instruction occupies: 8 for major 0x3B, otherwise 4 (06 R152). -/
def Instr.size : Instr → Nat
  | .lix _ _ => 8
  | _ => 4

/-- The little-endian word of four bytes (00 R2). -/
def wordOfBytes (b0 b1 b2 b3 : Byte) : Word := b3 ++ b2 ++ b1 ++ b0

/-- The decoder over bytes in memory order: the instruction and the bytes after it. -/
def decode (bs : List Byte) : Except DecodeError (Instr × List Byte) :=
  match bs with
  | b0 :: b1 :: b2 :: b3 :: rest =>
    let w := wordOfBytes b0 b1 b2 b3
    match rest with
    | c0 :: c1 :: c2 :: c3 :: rest2 =>
      match decodeWords w (some (wordOfBytes c0 c1 c2 c3)) with
      | .ok i => .ok (i, if i.size = 8 then rest2 else rest)
      | .error e => .error e
    | _ =>
      match decodeWords w none with
      | .ok i => .ok (i, rest)
      | .error e => .error e
  | _ => .error .truncated

/-- What the die controller's profile leaves out (06 R187): majors 0x10 to 0x19 and 0x1C, LDC, DONE, and any alternate
or qd bit. -/
def Src.controllerOk : Src → Bool
  | .s _ => true
  | _ => false

/-- A destination or operand without its q bit. -/
def SQ.controllerOk : SQ → Bool
  | .s _ => true
  | .q _ => false

/-- The controller profile (06 R187). -/
def Instr.controllerOk : Instr → Bool
  | .add d a b _ | .sub d a b _ | .sll d a b _ | .srl d a b _ | .sra d a b _ | .rol d a b _ | .mul d a b _
  | .div d a b _ | .divz d a b _ | .rem d a b _ | .remz d a b _ | .adds d a b _ | .subs d a b _ =>
    d.controllerOk && a.controllerOk && b.controllerOk
  | .and d a b | .or d a b | .xor d a b | .andn d a b | .orn d a b | .mulh d a b | .mulhz d a b | .min d a b
  | .max d a b | .minz d a b | .maxz d a b | .ext d a b | .extz d a b | .rand d a b =>
    d.controllerOk && a.controllerOk && b.controllerOk
  | .clz d a _ | .ctz d a _ | .popc d a _ => d.controllerOk && a.controllerOk
  | .brev d a | .bswap d a => d.controllerOk && a.controllerOk
  | .ins _ a b | .cmp _ _ a b _ | .sel _ _ _ a b => a.controllerOk && b.controllerOk
  | .addi _ _ _ | .andi _ _ _ | .ori _ _ _ | .xori _ _ _ | .slli _ _ _ _ | .srli _ _ _ _ | .srai _ _ _ _ | .lui _ _
  | .cmpi _ _ _ _ | .ld _ _ _ _ | .st _ _ _ _ | .ldx _ _ _ _ | .stx _ _ _ _ | .br _ _ _ | .jmp _ | .call _ | .jr _
  | .callr _ | .ret | .nop | .loop _ _ | .rpt _ _ | .pand _ _ _ | .por _ _ _ | .pxor _ _ _ | .pnot _ _ | .pmov _ _
  | .lix _ _ | .scmd _ _ | .scwait _ _ | .csrr _ _ | .csrw _ _ | .eret | .waitev _ _ | .mbxrd _ _ _ | .mbxwr _ _ _
  | .xinv _ _ => true
  | _ => false

/-- The element profile (06 R187): every encoded instruction but major 0x1D. -/
def Instr.elementOk : Instr → Bool
  | .scmd _ _ | .scwait _ _ | .csrr _ _ | .csrw _ _ | .eret | .waitev _ _ | .mbxrd _ _ _ | .mbxwr _ _ _ | .xinv _ _ =>
    false
  | i => i.isIsa

/-- Majors that RPT may not repeat (07 R211: 0x0C to 0x0F and 0x3B). -/
def Instr.repeatable : Instr → Bool
  | .br _ _ _ | .jmp _ | .call _ | .jr _ | .callr _ | .ret | .done | .nop | .loop _ _ | .rpt _ _ | .lix _ _ => false
  | _ => true

/-- The `i`-th byte of a number. -/
def byteOf (w i : Nat) : Byte := BitVec.ofNat 8 (w / 2 ^ (8 * i))

/-- The host's question: the instruction the decoder reads from bits numbered as spec/opcode_table.json numbers them;
bits above `nbits` are zero. -/
def decodeTableWord (nbits w : Nat) : Option Instr :=
  let v := w % 2 ^ nbits
  match decode ((List.range 8).map (byteOf v)) with
  | .ok (i, _) => some i
  | .error _ => none

/-! ## The encoder, from the same tables -/

/-- The alternate bit of a source. -/
def Src.alt : Src → Bool
  | .s _ => false
  | _ => true

/-- The register field of a source. -/
def Src.field : Src → BitVec 5
  | .s r => r
  | .x n => 0#3 ++ n
  | .xt => 4
  | .xc => 5
  | .q n => BitVec.ofNat 5 (8 + n.val)

/-- The q bit. -/
def SQ.isQ : SQ → Bool
  | .s _ => false
  | .q _ => true

/-- The register field of a scalar or stream operand. -/
def SQ.field : SQ → BitVec 5
  | .s r => r
  | .q n => BitVec.ofNat 5 n.val

/-- fmt code. -/
def Fmt.code : Fmt → BitVec 3
  | .f32 => 0
  | .bf16x2 => 1
  | .f16x2 => 2
  | .e4m3x4 => 3
  | .e5m2x4 => 4

/-- Rounding code. -/
def Rm.code : Rm → BitVec 3
  | .rn => 0
  | .rz => 1
  | .ru => 2
  | .rd => 3
  | .rs => 4

/-- Integer condition code. -/
def IntCc.code : IntCc → BitVec 3
  | .eq => 0
  | .ne => 1
  | .lt => 2
  | .ge => 3
  | .lo => 4
  | .hs => 5

/-- Float condition code. -/
def FloatCc.code : FloatCc → BitVec 3
  | .eq => 0
  | .ne => 1
  | .lt => 2
  | .le => 3
  | .gt => 4
  | .ge => 5
  | .un => 6

/-- Load width code. -/
def LoadWidth.code : LoadWidth → BitVec 3
  | .s8 => 0
  | .z8 => 1
  | .s16 => 2
  | .z16 => 3
  | .s32 => 4
  | .z32 => 5
  | .d64 => 6

/-- Store width code. -/
def StoreWidth.code : StoreWidth → BitVec 3
  | .b8 => 0
  | .b16 => 2
  | .b32 => 4
  | .b64 => 6

/-- MMA operand format code. -/
def MmaFmt.code : MmaFmt → BitVec 3
  | .f32 => 0
  | .bf16 => 1
  | .f16 => 2
  | .e4m3 => 3
  | .e5m2 => 4
  | .e2m1 => 5
  | .int8 => 6

/-- SSTART mode code. -/
def GenMode.code : GenMode → BitVec 6
  | .read => 0
  | .write => 1
  | .drain => 2

/-- One bit. -/
abbrev b1 (b : Bool) : BitVec 1 := BitVec.ofBool b

/-- The R form of major 0x00 (06 R158, R174). -/
def encInt (op : BitVec 6) (d : SQ) (a b : Src) (w : Bool) : Word :=
  (0#6 ++ d.field ++ a.field ++ b.field ++ b1 a.alt ++ b1 b.alt ++ b1 d.isQ ++ b1 w ++ 0#1 ++ op : BitVec 32)

/-- The I form (06 R161). -/
def encI (op : BitVec 6) (d a : BitVec 5) (imm : BitVec 16) : Word := (op ++ d ++ a ++ imm : BitVec 32)

/-- The float R form (06 R159). -/
def encFloat (op : BitVec 6) (fn : BitVec 5) (fmt : Fmt) (d a b : SQ) : Word :=
  (op ++ d.field ++ a.field ++ b.field ++ b1 d.isQ ++ b1 a.isQ ++ b1 b.isQ ++ fmt.code ++ fn : BitVec 32)

/-- The conversion form (06 R160). -/
def encConvert (fn : BitVec 5) (fmt : Fmt) (rm : Rm) (sat sgn : Bool) (d a : SQ) : Word :=
  (0x12#6 ++ d.field ++ a.field ++ b1 sat ++ rm.code ++ b1 sgn ++ b1 d.isQ ++ b1 a.isQ ++ 0#1 ++ fmt.code ++ fn :
    BitVec 32)

/-- The stream form (06 R170). -/
def encStream (d a b : BitVec 5) (sub : BitVec 3) (g : BitVec 2) (par : BitVec 6) : Word :=
  (0x14#6 ++ d ++ a ++ b ++ sub ++ g ++ par : BitVec 32)

/-- The token form (06 R167). -/
def encToken (o : BitVec 4) (a b : BitVec 5) (aalt : Bool) (sub : BitVec 3) (flags : BitVec 8) : Word :=
  (0x15#6 ++ o ++ a ++ b ++ b1 aalt ++ sub ++ flags : BitVec 32)

/-- Major 0x16 (06 R184). -/
def encTag (op : BitVec 3) (d : BitVec 5) (a b : Src) (fin : Bool) (pool : BitVec 4) : Word :=
  (0x16#6 ++ d ++ a.field ++ b.field ++ b1 a.alt ++ b1 b.alt ++ b1 fin ++ pool ++ 0#1 ++ op : BitVec 32)

/-- The matrix form (06 R169). -/
def encMatrix (op : BitVec 6) (d a : BitVec 5) (ta tb : BitVec 4) (acc : BitVec 2) (c : Bool) (fn : BitVec 5) : Word :=
  (op ++ d ++ a ++ ta ++ tb ++ acc ++ b1 c ++ fn : BitVec 32)

/-- Predicate operations of major 0x1A (06 R172, R181). -/
def encPred (kind : BitVec 3) (pd pa pb : BitVec 3) : Word :=
  (0x1A#6 ++ 0#2 ++ pd ++ 0#2 ++ pa ++ 0#2 ++ pb ++ 0#3 ++ 0#2 ++ kind ++ 0#3 : BitVec 32)

/-- Major 0x1C (06 R185). -/
def encSystem (op : BitVec 3) (d : BitVec 5) (a : Src) (k : BitVec 5) : Word :=
  (0x1C#6 ++ d ++ a.field ++ 0#5 ++ b1 a.alt ++ 0#2 ++ k ++ op : BitVec 32)

/-- Major 0x1D in the controller form (06 R171; 14 R362). -/
def encController (d a : BitVec 5) (sub : BitVec 4) (imm : BitVec 12) : Word :=
  (0x1D#6 ++ d ++ a ++ sub ++ imm : BitVec 32)

/-- The words of an instruction, first word first; an event has none. -/
def encode : Instr → List Word
  | .add d a b w => [encInt 0x00 d a b w]
  | .sub d a b w => [encInt 0x01 d a b w]
  | .and d a b => [encInt 0x02 d a b false]
  | .or d a b => [encInt 0x03 d a b false]
  | .xor d a b => [encInt 0x04 d a b false]
  | .andn d a b => [encInt 0x05 d a b false]
  | .orn d a b => [encInt 0x06 d a b false]
  | .sll d a b w => [encInt 0x08 d a b w]
  | .srl d a b w => [encInt 0x09 d a b w]
  | .sra d a b w => [encInt 0x0A d a b w]
  | .rol d a b w => [encInt 0x0B d a b w]
  | .mul d a b w => [encInt 0x10 d a b w]
  | .mulh d a b => [encInt 0x11 d a b false]
  | .mulhz d a b => [encInt 0x12 d a b false]
  | .div d a b w => [encInt 0x14 d a b w]
  | .divz d a b w => [encInt 0x15 d a b w]
  | .rem d a b w => [encInt 0x16 d a b w]
  | .remz d a b w => [encInt 0x17 d a b w]
  | .min d a b => [encInt 0x18 d a b false]
  | .max d a b => [encInt 0x19 d a b false]
  | .minz d a b => [encInt 0x1A d a b false]
  | .maxz d a b => [encInt 0x1B d a b false]
  | .adds d a b w => [encInt 0x1C d a b w]
  | .subs d a b w => [encInt 0x1D d a b w]
  | .clz d a w => [encInt 0x20 d a (.s 0) w]
  | .ctz d a w => [encInt 0x21 d a (.s 0) w]
  | .popc d a w => [encInt 0x22 d a (.s 0) w]
  | .brev d a => [encInt 0x23 d a (.s 0) false]
  | .bswap d a => [encInt 0x24 d a (.s 0) false]
  | .ext d a b => [encInt 0x28 d a b false]
  | .extz d a b => [encInt 0x29 d a b false]
  | .ins d a b => [encInt 0x2A (.s d) a b false]
  | .rand d a b => [encInt 0x2C d a b false]
  | .addi d a imm => [encI 0x01 d a imm]
  | .andi d a imm => [encI 0x02 d a imm]
  | .ori d a imm => [encI 0x03 d a imm]
  | .xori d a imm => [encI 0x04 d a imm]
  | .slli d a w k => [encI 0x05 d a (0#2 ++ 0#7 ++ b1 w ++ k : BitVec 16)]
  | .srli d a w k => [encI 0x05 d a (1#2 ++ 0#7 ++ b1 w ++ k : BitVec 16)]
  | .srai d a w k => [encI 0x05 d a (2#2 ++ 0#7 ++ b1 w ++ k : BitVec 16)]
  | .lui d imm => [encI 0x06 d 0 imm]
  | .cmpi cc pd a imm => [encI 0x07 (0#2 ++ pd : BitVec 5) a (cc.code ++ imm : BitVec 16)]
  | .ld wd d a off => [encI 0x08 d a (wd.code ++ off : BitVec 16)]
  | .st wd d a off => [encI 0x09 d a (wd.code ++ off : BitVec 16)]
  | .ldx wd d a b => [(0x0A#6 ++ d ++ a ++ b ++ 0#1 ++ wd.code ++ 0#7 : BitVec 32)]
  | .stx wd d a b => [(0x0A#6 ++ d ++ a ++ b ++ 1#1 ++ wd.code ++ 0#7 : BitVec 32)]
  | .ldc d k => [encI 0x0B d 0 (0#8 ++ k : BitVec 16)]
  | .br pn p off => [(0x0C#6 ++ b1 pn ++ p ++ off : BitVec 32)]
  | .jmp off => [(0x0D#6 ++ 0#1 ++ 0#3 ++ off : BitVec 32)]
  | .call off => [(0x0D#6 ++ 1#1 ++ 0#3 ++ off : BitVec 32)]
  | .jr a => [encI 0x0E 0 a 0]
  | .callr a => [encI 0x0E 0 a 1]
  | .ret => [encI 0x0E 0 0 2]
  | .done => [encI 0x0E 0 0 3]
  | .nop => [encI 0x0E 0 0 4]
  | .loop c body => [(0x0F#6 ++ 0#1 ++ c ++ 0#4 ++ body : BitVec 32)]
  | .rpt c n => [(0x0F#6 ++ 1#1 ++ c ++ 0#4 ++ 0#12 ++ n : BitVec 32)]
  | .fadd fmt d a b => [encFloat 0x10 0x00 fmt d a b]
  | .fsub fmt d a b => [encFloat 0x10 0x01 fmt d a b]
  | .fmul fmt d a b => [encFloat 0x10 0x02 fmt d a b]
  | .fdiv fmt d a b => [encFloat 0x10 0x03 fmt d a b]
  | .fmin fmt d a b => [encFloat 0x10 0x04 fmt d a b]
  | .fmax fmt d a b => [encFloat 0x10 0x05 fmt d a b]
  | .fabs fmt d a => [encFloat 0x10 0x06 fmt d a (.s 0)]
  | .fneg fmt d a => [encFloat 0x10 0x07 fmt d a (.s 0)]
  | .fcps fmt d a b => [encFloat 0x10 0x08 fmt d a b]
  | .fsqrt fmt d a => [encFloat 0x10 0x09 fmt d a (.s 0)]
  | .frcp fmt d a => [encFloat 0x10 0x0A fmt d a (.s 0)]
  | .frsq fmt d a => [encFloat 0x10 0x0B fmt d a (.s 0)]
  | .fexp2 fmt d a => [encFloat 0x10 0x0C fmt d a (.s 0)]
  | .flog2 fmt d a => [encFloat 0x10 0x0D fmt d a (.s 0)]
  | .fclass fmt d a => [encFloat 0x10 0x0E fmt (.s d) a (.s 0)]
  | .fsum2 fmt d a => [encFloat 0x10 0x0F fmt d a (.s 0)]
  | .fpack fmt d a b => [encFloat 0x10 0x10 fmt d a b]
  | .funpack fmt d a => [encFloat 0x10 0x11 fmt d a (.s 0)]
  | .fma fmt d a b => [encFloat 0x11 0x00 fmt (.s d) a b]
  | .fms fmt d a b => [encFloat 0x11 0x01 fmt (.s d) a b]
  | .fnma fmt d a b => [encFloat 0x11 0x02 fmt (.s d) a b]
  | .fcvt src dst rm sat d a => [encConvert (0#2 ++ src.code : BitVec 5) dst rm sat false d a]
  | .fcvtFromE2m1 dst rm d a => [encConvert 0x05 dst rm false false d a]
  | .fcvtToE2m1 src rm sat d a => [encConvert 0x06 src rm sat false d a]
  | .fcvti32 src rm sgn d a => [encConvert 0x08 src rm false sgn d a]
  | .fcvti64 src rm sgn d a => [encConvert 0x09 src rm false sgn (.s d) a]
  | .fcvti8 src rm sgn d a => [encConvert 0x0A src rm false sgn d a]
  | .icvtf32 dst rm sgn d a => [encConvert 0x0C dst rm false sgn d a]
  | .icvtf64 dst rm sgn d a => [encConvert 0x0D dst rm false sgn d (.s a)]
  | .icvtf8 dst rm sgn d a => [encConvert 0x0E dst rm false sgn d a]
  | .fcmp cc pd a b =>
    [(0x13#6 ++ 0#2 ++ pd ++ a.field ++ b.field ++ 0#1 ++ b1 a.isQ ++ b1 b.isQ ++ 0#3 ++ 0#2 ++ cc.code : BitVec 32)]
  | .sbindGenerator q g =>
    [encStream (0#3 ++ BitVec.ofNat 2 q.val : BitVec 5) 0 0 0 0 (0#2 ++ BitVec.ofNat 4 g.val : BitVec 6)]
  | .sbindInputPort q i => [encStream (0#3 ++ BitVec.ofNat 2 q.val : BitVec 5) 0 0 0 1 (0#2 ++ 0#1 ++ i : BitVec 6)]
  | .sbindOutputPort q o => [encStream (0#3 ++ BitVec.ofNat 2 q.val : BitVec 5) 0 0 0 2 (0#2 ++ o : BitVec 6)]
  | .sbindUnbind q => [encStream (0#3 ++ BitVec.ofNat 2 q.val : BitVec 5) 0 0 0 3 0]
  | .scfg g k a => [encStream 0 a 0 1 (BitVec.ofNat 2 g.val) (BitVec.ofNat 6 k.val)]
  | .sstart g m a => [encStream 0 a 0 2 (BitVec.ofNat 2 g.val) m.code]
  | .sstop g => [encStream 0 0 0 3 (BitVec.ofNat 2 g.val) 0]
  | .swait g => [encStream 0 0 0 4 (BitVec.ofNat 2 g.val) 0]
  | .scount d g => [encStream d 0 0 5 (BitVec.ofNat 2 g.val) 0]
  | .send o a arm nx => [encToken o a.field 0 a.alt 0 (0#6 ++ b1 arm ++ b1 nx : BitVec 8)]
  | .sendt o a b arm => [encToken o a.field b.field a.alt 1 (0#5 ++ b1 b.alt ++ b1 arm ++ 0#1 : BitVec 8)]
  | .sendbTile o t scale clear =>
    [encToken o 0 (0#4 ++ b1 scale : BitVec 5) false 2 (b1 clear ++ 1#1 ++ 0#2 ++ t : BitVec 8)]
  | .sendbMemory o a b => [encToken o a.field b a.alt 2 0]
  | .mreq o a => [encToken o a.field 0 a.alt 3 0]
  | .tagnext d => [encTag 0 d (.s 0) (.s 0) false 0]
  | .tagret a fin => [encTag 1 0 a (.s 0) fin 0]
  | .tagmk d a b => [encTag 2 d a b false 0]
  | .tagctx d a => [encTag 3 d a (.s 0) false 0]
  | .tagiter d a => [encTag 4 d a (.s 0) false 0]
  | .ctxnew d a pool => [encTag 5 d a (.s 0) false pool]
  | .ctxfree a pool => [encTag 6 0 a (.s 0) false pool]
  | .stop o level => [(0x17#6 ++ 0#1 ++ o ++ 0#18 ++ level : BitVec 32)]
  | .eos o => [(0x17#6 ++ 0#1 ++ o ++ 0#18 ++ 0#3 : BitVec 32)]
  | .mma mf sc clear acc ta tb a =>
    [encMatrix 0x18 0 a ta tb acc clear (0#1 ++ b1 sc ++ mf.code : BitVec 5)]
  | .mzero acc => [encMatrix 0x18 0 0 0 0 acc false 0x10]
  | .mread d a acc => [encMatrix 0x18 d a 0 0 acc false 0x11]
  | .mstore acc a => [encMatrix 0x18 0 a 0 0 acc false 0x12]
  | .mloada acc a => [encMatrix 0x18 0 a 0 0 acc false 0x13]
  | .mfill t => [encMatrix 0x18 0 0 t 0 0 false 0x14]
  | .mempty t => [encMatrix 0x18 0 0 t 0 0 false 0x15]
  | .mwait => [encMatrix 0x18 0 0 0 0 0 false 0x16]
  | .mstat d => [encMatrix 0x18 d 0 0 0 0 false 0x17]
  | .msr clear acc ta tb => [encMatrix 0x19 0 0 ta tb acc clear 0x00]
  | .mldm a => [encMatrix 0x19 0 a 0 0 0 false 0x01]
  | .cmp cc pd a b w =>
    [(0x1A#6 ++ 0#2 ++ pd ++ a.field ++ b.field ++ b1 a.alt ++ b1 b.alt ++ b1 w ++ 0#2 ++ 0#3 ++ cc.code : BitVec 32)]
  | .pand pd pa pb => [encPred 1 pd pa pb]
  | .por pd pa pb => [encPred 2 pd pa pb]
  | .pxor pd pa pb => [encPred 3 pd pa pb]
  | .pnot pd pa => [encPred 4 pd pa 0]
  | .pmov pd pa => [encPred 5 pd pa 0]
  | .sel d pn p a b =>
    [(0x1B#6 ++ d ++ a.field ++ b.field ++ b1 a.alt ++ b1 b.alt ++ 0#5 ++ b1 pn ++ p : BitVec 32)]
  | .qshape d k => [encSystem 0 d (.s 0) (BitVec.ofNat 5 k.val)]
  | .rdid d k => [encSystem 1 d (.s 0) (BitVec.ofNat 5 k.val)]
  | .fault a => [encSystem 2 0 a 0]
  | .fenceE => [encSystem 3 0 (.s 0) 0]
  | .perf d k => [encSystem 4 d (.s 0) (BitVec.ofNat 5 k.val)]
  | .cyc d => [encSystem 5 d (.s 0) 0]
  | .scmd d a => [encController d a 0 0]
  | .scwait d a => [encController d a 1 0]
  | .csrr d k => [encController d 0 2 k]
  | .csrw a k => [encController 0 a 3 k]
  | .eret => [encController 0 0 4 0]
  | .waitev d m => [encController d 0 5 m]
  | .mbxrd d a k => [encController d a 6 (BitVec.ofNat 12 k.val)]
  | .mbxwr d a k => [encController d a 7 (BitVec.ofNat 12 k.val)]
  | .xinv .colour c => [encController 0 0 8 (0#6 ++ 0#2 ++ c : BitVec 12)]
  | .xinv (.page a) c => [encController 0 a 8 (0#6 ++ 1#2 ++ c : BitVec 12)]
  | .xinv .all c => [encController 0 0 8 (0#6 ++ 2#2 ++ c : BitVec 12)]
  | .lix d imm =>
    [(0x3B#6 ++ d ++ 0#5 ++ imm.extractLsb' 28 16 : BitVec 32), (0xF#4 ++ imm.extractLsb' 0 28 : BitVec 32)]
  | _ => []

/-- The bytes of a word in memory order (00 R2). -/
def bytesOfWord (w : Word) : List Byte := [fld w 0 8, fld w 8 8, fld w 16 8, fld w 24 8]

/-- The bytes of an instruction in memory order. -/
def encodeBytes (i : Instr) : List Byte := (encode i).flatMap bytesOfWord

end Sys2Proof
end

