-- ==== Sys2Proof/Config.lean ====
section
/-! DEFINITION. What an implementation fixes and the manual leaves open: free values without a body (nothing can be
proved of their value), and the constants that the assumption log names. -/

namespace Sys2Proof.Config

/-- What s1 to s31 hold at a dispatch (02 R48 leaves it open), by the free-value counter and the register (L5). -/
opaque freeReg : Nat → Nat → BitVec 64

/-- What p1 to p7 hold at a dispatch (02 R48 leaves it open), by the free-value counter and the predicate (L5). -/
opaque freePred : Nat → Nat → Bool

/-- The cycles that an instruction or a wait takes, by the free-value counter (the manual gives no cycle counts for
CYC, PERF 4 and 5 and lcnt: 09 R296 to R298, 14 R361) (L6). -/
opaque freeCycles : Nat → BitVec 64

/-- Room, in flits, that one router has for the packets of one class (13 R349 gives no size) (L15). -/
opaque routerRoom : Nat

/-- Data that boot measures into M0, ROM version and firmware digest; and into M1, security version and fuse words, by the
stepping code that they hold (16 R454, 18 R467) (L19). -/
opaque romAndFirmware : List (BitVec 8)
opaque securityAndFuses : Nat → List (BitVec 8)

/-- The signature of a quote body by the module identity key, 29,792 bytes (16 R455) (L19). -/
opaque quoteSignature : List (BitVec 8) → Vector (BitVec 8) 29792

/-- The identity public key, 64 bytes, and the vendor's certificate (16 R453) (L19). -/
opaque identityKey : Vector (BitVec 8) 64
opaque identityCertificate : List (BitVec 8)

/-- What a read through an optical window returns: the peer's memory is outside the module (16 R449) (L29). -/
opaque freePeer : Nat → BitVec 64

/-- Whether the partner's inbound grant refuses a request, by the free-value counter (16 R449) (L29). -/
opaque peerRefuses : Nat → Bool

/-- How many tokens of an outfall the partner's headgate has taken, by the outfall and the free-value counter: its host
opens the lid there (16 R450) (L29). -/
opaque peerTaken : Nat → Nat → Nat

/-- The partner that link training finds, die position and module number, by the boot and the die (16 R448) (L29). -/
opaque partner : Nat → Nat → Nat × Nat

/-- Responses for which a memory actor can reserve space, less one (13 R350 gives no size) (L15). -/
opaque responseRoom : Nat

/-- Where the mirror of the journal stands in the die control space of L0 (16 R445 gives no address) (L61). -/
opaque journalBase : Nat

/-- The detail word of a fault whose raising rule defines none, by the fault code (15 R401, 02 R66) (L33). -/
opaque freeDetail : Nat → BitVec 64

/-- A word of a report of the headworks whose layout the manual does not give, by the free-value counter (18 R464) (L33). -/
opaque freeNote : Nat → BitVec 64

/-- The jseq of the newest, or first returned, journal entry where there is none (16 R447, R455) (L33). -/
opaque noEntryJseq : BitVec 64

/-- Where the configuration store in L0's HBM holds a generation of an image (12 R322 gives no layout) (L34). -/
opaque storeBase : Nat → Nat → Nat

/-- Where the configuration store begins in physical memory (12 R322 gives no address) (L34). -/
opaque storeRegion : Nat

/-- What the bin table of a plot gives as the least mV for a frequency in MHz (14 R396) (L13). -/
opaque binMillivolts : Nat → Nat → Nat

/-- Whether .allowrace names a pair of memory actors: the image layout of chapter 12 does not say where it stands (L35). -/
opaque allowRace : List (BitVec 8) → Nat → Nat → Bool

/-- HBM errors that the stack of a die has corrected since the last telemetry update, by die position and free-value counter (18
R469) (L6). -/
opaque freeCorrected : Nat → Nat → Nat

/-- Power of a die in mW over the last 1 ms (18 R469, telemetry), by die position and free-value counter (L6). -/
opaque freePower : Nat → Nat → BitVec 32

/-- Which of the normal slots that may go a part of erratum 2 dispatches, by free-value counter (18 Table 18-1) (L51). -/
opaque freeSlot : Nat → Nat

/-- The fused sold grade code of the part in State.reset: an HX64-A (L2). -/
def soldGrade : Nat := 1

/-- The fused stepping code of the part in State.reset: B0 (L2). -/
def stepping : Nat := 2

/-- Spillway of a die at boot: byte offset in its stack, and size (14 Table 14-1 says boot sets them) (L12). -/
def spillBase : Nat := 0
def spillSize : Nat := 1073741824

/-- Plot voltage at boot in mV and the highest binned frequency in MHz (L13). -/
def bootMillivolts : Nat := 700
def binnedMHz : Nat := 1400

end Sys2Proof.Config
end

