-- ==== Sys2Proof/Machine/Keccak.lean ====
section
/-! DEFINITION. SHAKE256 (12 Table 12-1, 16 R454). The manual names the function and does not define it: the definition
is FIPS 202's (L37, PRESUMED). -/

namespace Sys2Proof.Machine

/-- A lane of the permutation's state: x + 5y. -/
def lane (a : List (BitVec 64)) (n : Nat) : BitVec 64 := (a[n]?).getD 0

/-- Rotation offsets by lane. -/
def rhoOffsets : List Nat :=
  [0, 1, 62, 28, 27, 36, 44, 6, 55, 20, 3, 10, 43, 25, 39, 41, 45, 15, 21, 8, 18, 2, 61, 56, 14]

/-- Round constants. -/
def roundConstants : List (BitVec 64) :=
  [0x0000000000000001, 0x0000000000008082, 0x800000000000808A, 0x8000000080008000, 0x000000000000808B,
   0x0000000080000001, 0x8000000080008081, 0x8000000000008009, 0x000000000000008A, 0x0000000000000088,
   0x0000000080008009, 0x000000008000000A] ++
  [0x000000008000808B, 0x800000000000008B, 0x8000000000008089, 0x8000000000008003, 0x8000000000008002,
   0x8000000000000080, 0x000000000000800A, 0x800000008000000A, 0x8000000080008081, 0x8000000000008080,
   0x0000000080000001, 0x8000000080008008]

/-- Theta. -/
def keccakTheta (a : List (BitVec 64)) : List (BitVec 64) :=
  let c := (List.range 5).map fun x => lane a x ^^^ lane a (x + 5) ^^^ lane a (x + 10) ^^^ lane a (x + 15) ^^^ lane a (x + 20)
  let d := (List.range 5).map fun x => lane c ((x + 4) % 5) ^^^ (lane c ((x + 1) % 5)).rotateLeft 1
  (List.range 25).map fun n => lane a n ^^^ lane d (n % 5)

/-- Rho and pi: lane (x, y) comes from lane (x + 3y, x). -/
def keccakRhoPi (a : List (BitVec 64)) : List (BitVec 64) :=
  (List.range 25).map fun n =>
    let x := n % 5
    let y := n / 5
    let m := (x + 3 * y) % 5 + 5 * x
    (lane a m).rotateLeft ((rhoOffsets[m]?).getD 0)

/-- Chi and iota. -/
def keccakChi (a : List (BitVec 64)) (rc : BitVec 64) : List (BitVec 64) :=
  (List.range 25).map fun n =>
    let row := n / 5 * 5
    let v := lane a n ^^^ (~~~(lane a (row + (n + 1) % 5)) &&& lane a (row + (n + 2) % 5))
    if n = 0 then v ^^^ rc else v

/-- The permutation. -/
def keccak (a : List (BitVec 64)) : List (BitVec 64) :=
  roundConstants.foldl (fun t rc => keccakChi (keccakRhoPi (keccakTheta t)) rc) a

/-- Little-endian lanes of a block. -/
def lanesOf : Nat → List (BitVec 8) → List (BitVec 64)
  | 0, _ => []
  | n + 1, l => BitVec.ofNat 64 ((l.take 8).foldr (fun b v => b.toNat + 256 * v) 0) :: lanesOf n (l.drop 8)

/-- Bytes of a lane. -/
def laneBytes (v : BitVec 64) : List (BitVec 8) := (List.range 8).map fun i => v.extractLsb' (8 * i) 8

/-- Bytes of one block of SHAKE256. -/
def shakeRate : Nat := 136

/-- The padded message: suffix 1111 and the 10*1 rule. -/
def shakePad (m : List (BitVec 8)) : List (BitVec 8) :=
  let r := shakeRate - m.length % shakeRate
  if r = 1 then m ++ [0x9F] else m ++ [0x1F] ++ List.replicate (r - 2) 0 ++ [0x80]

/-- Absorbing n blocks. -/
def absorb : Nat → List (BitVec 64) → List (BitVec 8) → List (BitVec 64)
  | 0, a, _ => a
  | n + 1, a, m =>
    let b := lanesOf 17 m
    absorb n (keccak ((List.range 25).map fun i => lane a i ^^^ lane b i)) (m.drop shakeRate)

/-- Squeezing n blocks. -/
def squeeze : Nat → List (BitVec 64) → List (BitVec 8)
  | 0, _ => []
  | n + 1, a => ((a.take 17).flatMap laneBytes) ++ squeeze n (keccak a)

/-- SHAKE256 of a message: n bytes. -/
def shake256 (m : List (BitVec 8)) (n : Nat) : List (BitVec 8) :=
  let p := shakePad m
  (squeeze ((n + shakeRate - 1) / shakeRate) (absorb (p.length / shakeRate) (List.replicate 25 0) p)).take n

end Sys2Proof.Machine
end

