-- ==== Sys2Proof/Machine/State.lean ====
section
/-! DEFINITION. The state of the whole module as plain data, the reasons a step can stop, and the state after reset.
Field by field it is the list of INVENTORY.md. Tables are keyed by number: an element by die * 6400 + position, a
memory actor by die * 64 + slot, a node by die * 1600 + number, a headgate, outfall or pool by die * 16 + number, a plot
by die * 400 + index, where `die` is always the physical position 8y + x (14 R372, Table 14-6). An entry that a table
does not list is the entity's reset value. -/

namespace Sys2Proof.Machine

/-- No meaning stops the whole machine with a fault: a fault of the manual aborts a firing (02 R51), stalls a memory
actor (15 R414) or traps (14 R360), and the machine goes on. The type has one constructor, which nothing raises. -/
inductive Fault where
  /-- Raised by nothing: every fault of the manual is an effect. Safe. -/
  | never
deriving DecidableEq, Repr

/-- Why a step has no meaning. -/
inductive Refusal where
  /-- Raised by an arm of Dispatch whose instruction has no meaning yet. Safe: nothing is claimed of it. -/
  | notModelled (mnemonic : String)
deriving DecidableEq, Repr

/-! ## Tokens and channels -/

/-- Token kinds 0 to 6 (02 Table 2-3). -/
inductive TokKind where
  | data | stop | eos | retire | switch | weir | repair
deriving DecidableEq, Repr

/-- A token (02 R25). -/
structure Token where
  payload : DWord
  tag : Word
  kind : TokKind
  level : Nat
  arm : Bool
  colour : Nat
  fin : Bool
deriving DecidableEq, Repr

/-- Kinds of channel (12 Table 12-4). -/
inductive ChanKind where
  | ordered | tagged | ret
deriving DecidableEq, Repr

/-- A source endpoint bound to a channel (14 R387). `load` is none in the active bank of a source that is not yet
active. `dests` lists the consumer replicas in replica order. -/
structure Bind where
  source : Source
  load : Option Nat
  colour : Nat
  chan : Nat
  kind : ChanKind
  dests : List Dest
  /-- EOS has left on the port (09 R266). -/
  closed : Bool
  /-- The switch token of this load has left (13 R338). -/
  switched : Bool
  /-- The weir of the present cut has left (15 R421). -/
  weired : Bool
  /-- Next sequence number (13 R351). -/
  seq : BitVec 20
  /-- The source is an unordered confluence, which stands for all the producers of its inputs (02 R28, R33). -/
  merges : Bool
deriving DecidableEq, Repr

/-- A consumer endpoint of a channel with its flume queue (02 R36, 04 R98, 14 R388): the tokens of the flume queue, oldest
first, in `queue`; those in the spillway behind them, by the physical addresses of their 16 bytes; and in `rear` the
tokens of the flume queue that have arrived behind the spilled ones. -/
structure Chan where
  dest : Dest
  load : Option Nat
  colour : Nat
  chan : Nat
  kind : ChanKind
  queue : List Token
  spilled : List Nat
  rear : List Token
  /-- Tokens that arrived before their turn, by sequence number (13 R351). -/
  early : List (BitVec 20 × Token)
  next : BitVec 20
  /-- EOS, switch and weir tokens that the consumer has counted (02 R28, 15 R421). -/
  eos : Nat
  switches : Nat
  weirs : Nat
  /-- Switch tokens that have entered the channel: their producers owe it no weir (15 R429). -/
  passed : Nat
  /-- A spill write has faulted: the channel spills no more for the rest of its load (15 R417). -/
  noSpill : Bool
  /-- A spill read has met an uncorrectable error: the channel delivers nothing more (15 R417). -/
  stuck : Bool
deriving DecidableEq, Repr

/-- Depth and spill attributes of a channel at its consumers on one die (14 R388). -/
structure Depth where
  die : Nat
  colour : Nat
  chan : Nat
  load : Option Nat
  depth : Nat
  spillable : Bool
  offset : Nat
deriving DecidableEq, Repr

/-- What a packet carries (13 Table 13-4): a token; a memory request for the granules of one aligned 64-byte block, and its
response or acknowledgement; a spill write, and a spill read; a stream command by its issuer and ticket; a sluice request
and a free notice by pool, value and element; a drained notice of a die and colour; the copy of a moved slot; an
invalidation of XINV. -/
inductive Cargo where
  | token (t : Token)
  | request (die slot index block flits : Nat)
  | response (die slot index block flits : Nat)
  | spill (failed : Bool)
  | unspill
  | command (issuer ticket : Nat)
  | ask (pool value elem : Nat)
  | notice (pool value elem : Nat)
  | drained (die colour : Nat)
  | moved (src dst : Nat)
  | inval (issuer acker : Nat)
deriving DecidableEq, Repr

/-- A packet of the fabric (13 R349 to R352). Header: destination, class, colour, load index, channel, sequence number. -/
structure Packet where
  cls : Nat
  colour : Nat
  load : Option Nat
  chan : Nat
  seq : BitVec 20
  dest : Dest
  cargo : Cargo
  here : Loc
  target : Loc
  /-- The culvert of its first die that it still has to cross first (04 R100). -/
  via : Option Nat
  escape : Bool
  /-- Router cycles for which its adaptive request has been refused. -/
  refused : Nat
deriving DecidableEq, Repr

/-! ## The scalar core -/

/-- One loop level (07 R209). -/
structure Loop where
  start : DWord
  stop : DWord
  left : DWord
deriving DecidableEq, Repr

/-- The repeat buffer while RPT runs (07 R211): the address of the RPT, its words, the position in them and the
repetitions left, the present one included. -/
structure Rpt where
  pc : DWord
  words : List Word
  idx : Nat
  left : DWord
deriving DecidableEq, Repr

/-- The scalar core (06 R155, 07 R194). Loop levels are listed innermost first. -/
structure CoreRegs where
  pc : DWord
  s : Vector DWord 32
  p : Vector Bool 8
  loops : List Loop
  rpt : Option Rpt
deriving DecidableEq, Repr

/-! ## Elements -/

/-- What a firing is doing (02 Table 2-5). -/
inductive FirStatus where
  | idle | running | stalled | waitDone
deriving DecidableEq, Repr

/-- A buffered send and its output port (09 R258). -/
structure Send where
  port : Nat
  tok : Token
deriving DecidableEq, Repr

/-- The request to a sluice of the CTXNEW that a firing executes (09 R271). -/
inductive CtxAsk where
  | none
  | asked (pool value : Nat)
  | granted (value : Nat)
  | refused (pool value : Nat)
deriving DecidableEq, Repr

/-- The running firing (02 R48 to R54, 07 R192, 09 R258). `place` is the matching entry, or 0x40 + n for the end firing
of slot n. -/
structure Firing where
  status : FirStatus
  place : Nat
  slot : Nat
  tag : Word
  retry : Bool
  steps : Nat
  counted : Bool
  latch : List Word
  stoch : Word
  clean : Bool
  sends : List Send
  holds : List (Nat × Nat)
  frees : List (Nat × Nat)
  advances : Nat
  opened : Bool
  ask : CtxAsk
  /-- The generator of the SWAIT at which the firing waits (08 R244, R249). -/
  swait : Option (Fin 3)
deriving DecidableEq, Repr

/-- States of a matching entry (02 R38). -/
inductive EntryState where
  | part | ready | queued | running | parked | faulted
deriving DecidableEq, Repr

/-- What a PARKED entry waits for (02 R53). -/
inductive Park where
  | none
  | window
  | context (pool value : Nat)
deriving DecidableEq, Repr

/-- A matching entry (02 R38). `levels` holds the stop level of each operand, 0 for data. -/
structure Entry where
  slot : Nat
  tag : Word
  present : BitVec 4
  payloads : Vector DWord 4
  levels : Vector (BitVec 3) 4
  arm : Bool
  defcnt : Nat
  st : EntryState
  retry : Bool
  park : Park
  /-- When it was taken, by the element's own count: which entry of a slot is the oldest (02 R46). -/
  age : Nat
deriving DecidableEq, Repr

/-- States of an actor slot's end (02 R42, Table 2-6): `ready` from end ready to the end firing's commit, `parked` while
that firing is PARKED by a deferral (R52, R61). -/
inductive EndState where
  | active
  | ending
  | ready (retry : Bool)
  | parked (why : Park) (retry : Bool)
  | faulted
  | ended
deriving DecidableEq, Repr

/-- One entry of a window table (02 R55); its retire bitmap stands in element memory (R57). -/
structure Win where
  ctx : BitVec 14
  n : BitVec 18
  o : BitVec 18
  final : Bool
deriving DecidableEq, Repr

/-- Binding of a stream register (08 R239). -/
inductive QBind where
  | unbound
  | gen (g : Fin 3)
  | inPort (i : BitVec 3)
  | outPort (o : BitVec 4)
deriving DecidableEq, Repr

/-- States of a generator (08 R239). -/
inductive GenState where
  | idle | read | write | drain | error
deriving DecidableEq, Repr

/-- A stream generator (08 R239 to R250). `held` are elements read and not yet popped, `waiting` pushes not yet written;
`ahead` is set once a SWAIT on the read run has completed. -/
structure Gen where
  base : BitVec 64
  cnt : Vector Nat 4
  str : Vector Int 4
  drain : BitVec 11
  st : GenState
  org : Int
  popped : Nat
  held : List Word
  ahead : Bool
  pushed : Nat
  waiting : List Word
  t : Nat
  f : Nat
  left : Nat
  stopping : Bool
deriving DecidableEq, Repr

/-- States of a tile slot (04 R123). -/
inductive TileState where
  | empty | filling | full
deriving DecidableEq, Repr

/-- A queued matrix command with the address taken at issue (09 R278 to R288). -/
inductive MCmd where
  | mma (mf : MmaFmt) (sc clear : Bool) (acc : BitVec 2) (ta tb : BitVec 4) (addr : Nat)
  | msr (clear : Bool) (acc : BitVec 2) (ta tb : BitVec 4)
  | mldm (addr : Nat)
  | mzero (acc : BitVec 2)
  | mstore (acc : BitVec 2) (addr : Nat)
  | mloada (acc : BitVec 2) (addr : Nat)
  | mfill (t : BitVec 4)
  | mempty (t : BitVec 4)
deriving DecidableEq, Repr

/-- A fault code with its detail word (15 R399, R401). -/
structure FaultInfo where
  code : Nat
  detail : DWord
deriving DecidableEq, Repr

/-- Element cut states (15 Table 15-4). -/
inductive CutState where
  | open | closed | frozen | saved
deriving DecidableEq, Repr

/-- An element (02, 04, 08, 09, 14 R378, 15 R421). -/
structure Element where
  core : CoreRegs
  x : Vector DWord 4
  xt : DWord
  xc : DWord
  fir : Firing
  mem : Mem
  active : Mem
  staged : Mem
  configured : Bool
  colour : Nat
  load : Nat
  armed : Bool
  imgDesc : Option (Nat × Nat)
  constDesc : Option Nat
  store : Tab Entry
  births : Nat
  ready : List Nat
  runq : List Nat
  lastNormal : Nat
  lastUrgent : Nat
  /-- Per slot, the dispatches of other normal slots since one of its firings waits; kept on a part of erratum 2. -/
  waits : Vector Nat 8
  rr : Nat
  ends : Vector EndState 8
  matchFull : Bool
  slotFull : List Nat
  wins : Tab Win
  ports : Vector (List Token) 8
  portEos : Vector Nat 8
  portSwitch : Vector Nat 8
  q : Vector QBind 3
  gens : Vector Gen 3
  acc : Vector Word 256
  tiles : Vector TileState 16
  mprog : Option (List Byte)
  mq : List MCmd
  pend : Option FaultInfo
  perf : Vector DWord 7
  cut : CutState
  dirty : List Nat
  /-- A copy at the switch met an uncorrectable error: the element dispatches nothing (14 R379). -/
  copyFault : Bool
deriving DecidableEq, Repr

/-! ## Die controllers -/

/-- A mailbox record of 32 bytes (14 R366). -/
structure Rec where
  w0 : DWord
  w1 : DWord
  w2 : DWord
  w3 : DWord
deriving DecidableEq, Repr

/-- Progress of a stream command (14 R374): issued; performed with its value and its targets, to complete later; complete. -/
inductive TicketPhase where
  | issued
  | performed (value : Nat) (places : List Nat)
  | done (word : DWord)
deriving DecidableEq, Repr

/-- A ticket with the 128 bits of its command (14 R370 to R372). -/
structure Ticket where
  num : BitVec 16
  lo : DWord
  hi : DWord
  phase : TicketPhase
deriving DecidableEq, Repr

/-- An XINV in progress and the die positions that have not acknowledged it (14 R369). -/
structure Inval where
  kind : XinvKind
  colour : Nat
  va : Nat
  waiting : List Nat
deriving DecidableEq, Repr

/-- What a double trap would have recorded (14 R360). -/
structure HaltInfo where
  code : Nat
  pc : DWord
  addr : DWord
  /-- The HALT event has been sent (16 Table 16-2). -/
  told : Bool
deriving DecidableEq, Repr

/-- A die controller (14 R356 to R371). Tickets are listed in the order of issue. -/
structure Controller where
  core : CoreRegs
  sram : Mem
  released : Bool
  halted : Option HaltInfo
  tl : Bool
  trapbase : DWord
  trapcnt : DWord
  quantum : DWord
  qcnt : DWord
  lcnt : DWord
  tcmp : DWord
  latched : BitVec 12
  spbase : DWord
  spsize : DWord
  shadow : List Loop
  tickets : List Ticket
  nextTicket : BitVec 16
  mbox : Vector (List Rec) 5
  inval : Option Inval
deriving DecidableEq, Repr

/-! ## Plots, memory actors, nodes, gates -/

/-- A plot (14 R384, R396, 01 R20, R21, 18 R471). `asked` is the frequency that it runs at without a thermal limit, `limit` the
frequency that a thermal limit leaves it while one applies, and `hot` its temperature in tenths of a degree. -/
structure Plot where
  colour : Option Nat
  lastColour : Option Nat
  mhz : Nat
  asked : Nat
  limit : Option Nat
  mv : Nat
  binned : Nat
  cycles : DWord
  hot : Nat
deriving DecidableEq, Repr

/-- What a unit of data is (04 R108): up to 8 bytes, or the granules of a tile unit. -/
abbrev Unit8 := List DWord

/-- Progress of a request that has been issued (04 R113, 15 R414). -/
inductive ReqState where
  | issued
  | performed
  | uncorrectable
deriving DecidableEq, Repr

/-- One request of a memory actor (04 R103 to R113, 15 Table 15-2): index, address, physical address of each granule once
it is issued, tag, operands, granules still to perform and granules read, completion segment, level of the stop that
follows its response, and whether its range check has failed, it is performed as SKIP states, or its acknowledgement has
come. -/
structure Req where
  index : Nat
  va : Nat
  pas : List Nat
  tag : Word
  data : Unit8
  cmp : DWord
  left : List Nat
  got : List (Nat × DWord)
  seg : Nat
  stops : Nat
  st : ReqState
  outOfRange : Bool
  skip : Bool
  /-- The store acknowledgement has been counted (04 R111). -/
  acked : Bool
  /-- An XINV has dropped an entry that it was translated from (15 R416). -/
  stale : Bool
deriving DecidableEq, Repr

/-- Something that a memory actor delivers on resp in request order: the response of a request, or a token passed on or
made in its place (04 R104, R105, R107). -/
inductive Resp where
  | req (index : Nat)
  | tok (t : Token)
deriving DecidableEq, Repr

/-- A completion segment (04 R109): units so far, and the tag of its closing stop once closed. -/
structure Seg where
  num : Nat
  units : Nat
  closed : Option Word
deriving DecidableEq, Repr

/-- States of a memory actor slot (14 R386, 15 R414). -/
inductive MaState where
  | unconfigured | configured | running | halted | stalled | ended
deriving DecidableEq, Repr

/-- Why a memory actor is stalled (15 R401, R414; 04 R108, R110). -/
inductive StallKind where
  /-- XLATE or ACCESS at the request being formed. -/
  | request
  /-- HBM_UNCORRECTABLE at an issued request. -/
  | memory (index : Nat)
  /-- A unit without an address, an address without a unit, a bad tile unit, or after ended. -/
  | surplusUnit
  | missingUnit
  | badUnit
  | afterEnded
deriving DecidableEq, Repr

/-- A stalled memory actor's fault (15 R401). -/
structure Stall where
  kind : StallKind
  code : Nat
  seq : Nat
  tag : Word
  index : Nat
  /-- The slot was halted: its repair leaves it halted (14 R386). -/
  halted : Bool
deriving DecidableEq, Repr

/-- A leaf translation in a micro-TLB (15 R413). -/
structure Tlb where
  colour : Nat
  va : Nat
  size : Nat
  pa : Nat
  r : Bool
  w : Bool
  a : Bool
deriving DecidableEq, Repr

/-- Weir progress of a memory actor (15 R423): no cut, at its weir, weirs appended. -/
inductive MaWeir where
  | none | stopping | sent
deriving DecidableEq, Repr

/-- A memory actor slot (04 R101 to R111, 14 Table 14-9, 15 R413, R414, R423). -/
structure MemActor where
  active : Mem
  staged : Mem
  stagedValid : Bool
  colour : Nat
  load : Nat
  st : MaState
  stall : Option Stall
  run : Option (DWord × Word × Nat)
  ran : Bool
  nextIdx : Nat
  cur : Option Req
  flight : List Req
  resp : List Resp
  out : List Token
  flits : List DWord
  unit : Option Unit8
  /-- The stop that closed the unit, which acts once the unit has its request (04 R109). -/
  mark : Option (Nat × Word)
  /-- SKIP of a bad unit: it is counted but not performed (15 Table 15-2). -/
  skipUnit : Bool
  cmpVal : Option DWord
  segs : List Seg
  /-- The number of the next completion segment. -/
  segNo : Nat
  after : Nat
  gate : Nat
  skipRest : Bool
  /-- SKIP of an address without a unit: it and every later one are dropped (04 R108). -/
  dropAddrs : Bool
  tlb : List Tlb
  /-- The page, by its address, for whose walk the slot waits at the die's walker (15 R413). -/
  walking : Option Nat
  startEnd : Bool
  reqEnd : Bool
  dataEnd : Bool
  cmpEnd : Bool
  afterEnd : Bool
  respEos : Bool
  doneEos : Bool
  drained : Bool
  weir : MaWeir
  saved : Bool
deriving DecidableEq, Repr

/-- A context of an ordered confluence (02 R34): expected iteration, emitted flag, level-6 mark, reorder slots. -/
structure Reorder where
  ctx : BitVec 14
  e : BitVec 18
  emitted : Bool
  ended : Bool
  slots : Tab (List Token)
deriving DecidableEq, Repr

/-- A node unit (02 R32 to R35, 14 R378): configurations of 8 bytes, and its progress. -/
structure Node where
  active : DWord
  staged : DWord
  stagedValid : Bool
  configured : Bool
  colour : Nat
  load : Nat
  eos : List Nat
  table : List Reorder
  predFault : Bool
  dataFault : Bool
  closedOut : Bool
  weired : Bool
  saved : Bool
deriving DecidableEq, Repr

/-- Headgate stream states (13 Table 13-1). -/
inductive HgState where
  | idle | holding | streaming
deriving DecidableEq, Repr

/-- A headgate (13 R327, R328; 15 R403; 16 R443): `fresh` are tokens of the STREAM being taken, with the session and
request that its last token answers. -/
structure Headgate where
  st : HgState
  colour : Option Nat
  lid : Word
  held : List Token
  fresh : List Token
  answer : Option (Nat × DWord)
  eosSeen : Bool
deriving DecidableEq, Repr

/-- Binding of an outfall to a headgate of the link partner (16 R450), and the tokens that have left for it. -/
structure PeerBind where
  gate : Nat
  lid : Word
  sent : Nat
deriving DecidableEq, Repr

/-- An outfall (13 R336, R342; 15 R405, R423; 16 R450): tokens that left towards the host or a peer, a completion
message not yet sent, a SUBST repair request waiting for its substitute. -/
structure Outfall where
  colour : Option Nat
  left : List Token
  message : Option Rec
  peer : Option PeerBind
  weired : Bool
  subst : Option Token
  selected : Option Nat
deriving DecidableEq, Repr

/-- A sluice pool slot (02 R58, 09 R271, 14 R394): values allocated, values held provisionally and waiters by element
key, and requests in arrival order. -/
structure Pool where
  valid : Bool
  colour : Nat
  base : Nat
  size : Nat
  alloc : List Nat
  held : List (Nat × Nat)
  waiters : List (Nat × Nat)
  asks : List (Nat × Nat)
deriving DecidableEq, Repr

/-- A free notice in flight: element key, pool key and value (02 R58). -/
structure Notice where
  elem : Nat
  pool : Nat
  value : Nat
deriving DecidableEq, Repr

/-- Per die and colour (14 R380 to R391, 13 R340): staging open, closed, armed; dispatch closed; drained notices. -/
structure Staging where
  isOpen : Bool
  load : Nat
  closed : Bool
  armed : Bool
  weir : Bool
  drained : List Nat
  /-- Offset of the save areas in die control space (14 R393). -/
  area : Nat
deriving DecidableEq, Repr

/-- States of a link of a die (16 R452): culverts N, E, S, W and the optical port. A link that has failed since boot
reads as out of service in the live map, but the routing tables still name it (15 R418). -/
inductive LinkState where
  | absent | inService | degraded | outOfService | failed
deriving DecidableEq, Repr

/-! ## Launches and the headworks -/

/-- States of a launch (13 R327 to R342, 15 R419 to R428). -/
inductive LaunchState where
  | waiting | active | cutting | saved | finishing | ended
deriving DecidableEq, Repr

/-- The load that follows (13 R336). -/
inductive Select where
  | default
  | next (k : Nat)
  | none
  | bad
deriving DecidableEq, Repr

/-- A launch (13 R326 to R342). Dies are positions; `dies` are the compute dies in region order. -/
structure Launch where
  lid : Word
  colour : Nat
  image : Nat
  gen : Nat
  urg : Bool
  prio : Nat
  cof : Nat
  cdie : Nat
  load : Nat
  stagedLoad : Option Nat
  armed : Bool
  die0 : Nat
  asked : List Nat
  rect : Option Rect
  dies : List Nat
  st : LaunchState
  arrival : Nat
  session : Nat
  /-- The die whose headgate has woken the loader (13 R341). -/
  woke : Option Nat
  select : Select
  plan : Plan
  nextPlan : Plan
  /-- Elements that the last cut saved. -/
  saves : List Nat
  status : Nat
  detail : DWord × DWord
  /-- LOAD.ABORT has made its active load absent: it does not complete (02 Table 2-7). -/
  absent : Bool
deriving DecidableEq, Repr

/-- A mark of the loader in the debug map of an image (02 R69, 04 R126, R129, 12 R315): an unordered confluence, an atomic
actor whose order matters, a pair of memory actors whose overlap .allowrace accepts, a channel in dispatch order. -/
inductive DebugMark where
  | confluence (node : Nat)
  | atomic (ma : Nat)
  | overlap (ma other : Nat)
  | dispatchOrdered (chan : Nat)
deriving DecidableEq, Repr

/-- A resident image generation (12 R322 to R324), with the loader's marks in its debug map. -/
structure Resident where
  index : Nat
  name : List Byte
  gen : Nat
  holds : Nat
  bytes : List Byte
  marks : List DebugMark
deriving DecidableEq, Repr

/-- A journal entry (16 R445). -/
structure JEntry where
  jseq : Nat
  boot : Nat
  session : Nat
  seq : Word
  code : Nat
  status : Nat
  rid : DWord
  summary : List Byte
deriving DecidableEq, Repr

/-- An Eolo session (16 R433 to R436, R441). -/
structure Session where
  num : Nat
  mask : BitVec 16
  seq : Word
  ack : Word
  window : Nat
  held : List Frame
  /-- Frames not yet acknowledged, oldest first, and how many of them have been sent. -/
  unacked : List Frame
  sent : Nat
  tries : Nat
  source : Nat
  carrier : Carrier
  imgLen : Nat
  img : List Byte
deriving DecidableEq, Repr

/-- An optical window, or an inbound grant (16 R449). -/
structure Window where
  valid : Bool
  base : Nat
  len : Nat
  r : Bool
  w : Bool
  a : Bool
deriving DecidableEq, Repr

/-- A launch descriptor on its way to a headgate: headgate key, colour and lid (13 R326). -/
structure Desc where
  gate : Nat
  colour : Nat
  lid : Word
deriving DecidableEq, Repr

/-- A fault record on the levee network, or a repair token (15 R402, R405). -/
structure RepairTok where
  dest : Nat
  isMa : Bool
  slot : Nat
  tag : Word
  kind : Nat
  subst : DWord
  colour : Nat
deriving DecidableEq, Repr

/-- A fault record with its die, the present position of its origin there, the load of its origin, by its key, and what the
levee network still owes it: entry into mailbox 0, a fault token. -/
structure LeveeRec where
  die : Nat
  pos : Nat
  record : Rec
  colour : Nat
  load : Nat
  toBox : Bool
  toChannel : Bool
  /-- The die controller handles it: no fault token is due (15 R406). -/
  handled : Bool
  /-- Its launch has ended: it holds no launch open any more (13 R341). -/
  past : Bool
deriving DecidableEq, Repr

/-- A fault reported to the host and unrepaired (16 R444), with the present position of its origin. -/
structure OpenFault where
  die : Nat
  pos : Nat
  record : Rec
  colour : Nat
  /-- The FAULT event has been sent. -/
  told : Bool
  /-- It went to the fault channel: no event is due (15 R406). -/
  channel : Bool
  /-- Its launch has ended: it holds no launch open any more (13 R341). -/
  past : Bool
deriving DecidableEq, Repr

/-- Classes of a die position (16 R452). -/
inductive DieClass where
  | compute | router | dead
deriving DecidableEq, Repr

/-- The live map of one die position (01 R9, 16 R452, R453): class, logical number, element positions that are not live,
half-matrix positions, dead plots. -/
structure DieMap where
  cls : DieClass
  ldie : Option Nat
  deadElems : List Nat
  halves : List Nat
  deadPlots : List Nat
  partner : Nat × Nat
deriving DecidableEq, Repr

/-- Telemetry counters of a die (18 R469). -/
structure Telem where
  faults : Tab Nat
  corrected : Nat
  uncorrected : Nat
  /-- Lane retrains by link, 0 N to 3 W and 4 optical. -/
  retrains : Tab Nat
  thermal : Nat
  updates : Nat
deriving DecidableEq, Repr

/-- The fused part (18 R461 to R467). -/
structure Part where
  sold : Nat
  stepping : Nat
  identity : Nat
  mgmt : List Nat
deriving DecidableEq, Repr

/-! ## The module -/

/-- One turn of the agenda: a core fetches and runs its next instruction, or an event happens. -/
inductive Turn where
  | core (c : CoreId)
  | event (e : Instr)
deriving DecidableEq, Repr

/-- What leaves over an optical link to the partner (16 R449, R450): a token for a headgate under a lid, or a memory request
with its address there, the bytes it covers, whether it reads, writes or is atomic (0, 1, 2), and its operand. -/
inductive PeerMsg where
  | token (die outfall gate : Nat) (lid : Word) (t : Token)
  | request (die address bytes access : Nat) (data : DWord)
deriving DecidableEq, Repr

/-- The headworks (16): sessions, frames sent, journal, measurements, boot. -/
structure Headworks where
  sessions : List Session
  nextSession : Nat
  outbox : List Frame
  journal : List JEntry
  jseq : Nat
  meas : Vector (List Byte) 8
  boot : Nat
  recovery : Bool
  udpPort : Nat
  nextPort : Nat
  retire : List DWord
  part : Part
  faultsOpen : List OpenFault
  descs : List Desc
  peerOut : List PeerMsg
  /-- Messages of the headworks for mailbox 1 of a die, which wait there (14 R366). -/
  mail : List (Nat × Rec)
  /-- Graph names of the configuration store; an image index is a place in it (16 R441). -/
  names : List (List Byte)
  /-- Reports of the headworks itself that no MESSAGE has carried yet (18 R464). -/
  notes : List Rec
deriving DecidableEq, Repr

/-- The module. -/
structure State where
  agenda : List Turn
  focus : CoreId
  free : Nat
  elems : Tab Element
  ctrls : Tab Controller
  plots : Tab Plot
  mas : Tab MemActor
  nodes : Tab Node
  heads : Tab Headgate
  outs : Tab Outfall
  pools : Tab Pool
  stagings : Tab Staging
  roots : Tab (Option Nat)
  seqs : Tab Word
  /-- Rectangles that REGION.GRANT has granted, by die * 16 + colour (14 R384). -/
  grants : Tab Rect
  telem : Tab Telem
  links : Tab LinkState
  /-- Colours for which a failed link has raised LINK, by its keys at both ends (15 R418). -/
  linkFaults : List (Nat × Nat)
  windows : Tab Window
  inbound : Tab Window
  binds : List Bind
  chans : List Chan
  depths : List Depth
  packets : List Packet
  notices : List Notice
  levee : List LeveeRec
  repairs : List RepairTok
  launches : List Launch
  arrivals : Nat
  store : List Resident
  phys : Mem
  bad : List Nat
  live : List DieMap
  hw : Headworks
deriving DecidableEq, Repr

/-! ## Reset values -/

/-- A core at reset: pc as given, every register zero, every predicate but p0 false (14 R357 for the controller; for an
element the values are L3's). -/
def CoreRegs.reset (pc : DWord) : CoreRegs :=
  { pc := pc, s := Vector.replicate 32 0, p := #v[true, false, false, false, false, false, false, false],
    loops := [], rpt := none }

/-- No firing. -/
def Firing.idle : Firing :=
  { status := .idle, place := 0, slot := 0, tag := 0, retry := false, steps := 0, counted := false, latch := [],
    stoch := 0, clean := true, sends := [], holds := [], frees := [], advances := 0, opened := false, ask := .none,
    swait := none }

/-- A generator at bank activation (08 Table 8-6, R255). -/
def Gen.reset : Gen :=
  { base := 0x400, cnt := Vector.replicate 4 1, str := Vector.replicate 4 0, drain := 0, st := .idle, org := 0,
    popped := 0, held := [], ahead := false, pushed := 0, waiting := [], t := 0, f := 0, left := 0, stopping := false }

/-- An unconfigured element. -/
def Element.reset : Element :=
  { core := CoreRegs.reset 0x400, x := Vector.replicate 4 0, xt := 0, xc := 0, fir := Firing.idle, mem := [],
    active := [], staged := [], configured := false, colour := 0, load := 0, armed := false, imgDesc := none,
    constDesc := none, store := [], births := 0, ready := [], runq := [], lastNormal := 7, lastUrgent := 7,
    waits := Vector.replicate 8 0, rr := 0,
    ends := Vector.replicate 8 .active, matchFull := false, slotFull := [], wins := [],
    ports := Vector.replicate 8 [], portEos := Vector.replicate 8 0, portSwitch := Vector.replicate 8 0,
    q := Vector.replicate 3 .unbound, gens := Vector.replicate 3 Gen.reset, acc := Vector.replicate 256 0,
    tiles := Vector.replicate 16 .empty, mprog := none, mq := [], pend := none, perf := Vector.replicate 7 0,
    cut := .open, dirty := [], copyFault := false }

/-- A controller as boot releases it (14 R357, Table 14-1). -/
def Controller.reset : Controller :=
  { core := CoreRegs.reset 0x1000, sram := [], released := true, halted := none, tl := false, trapbase := 0x200,
    trapcnt := 0, quantum := 16777216, qcnt := 0, lcnt := 0, tcmp := 0xFFFFFFFFFFFFFFFF, latched := 0,
    spbase := BitVec.ofNat 64 Config.spillBase, spsize := BitVec.ofNat 64 Config.spillSize, shadow := [], tickets := [],
    nextTicket := 0, mbox := Vector.replicate 5 [], inval := none }

/-- A plot that no colour holds, at its nominal clock (01 R20). -/
def Plot.reset : Plot :=
  { colour := none, lastColour := none, mhz := 1100, asked := 1100, limit := none, mv := Config.bootMillivolts, binned := Config.binnedMHz,
    cycles := 0, hot := 0 }

/-- An unconfigured memory actor slot. -/
def MemActor.reset : MemActor :=
  { active := [], staged := [], stagedValid := false, colour := 0, load := 0, st := .unconfigured, stall := none,
    run := none, ran := false, nextIdx := 0, cur := none, flight := [], resp := [], out := [], flits := [],
    unit := none, mark := none, skipUnit := false, cmpVal := none, segs := [], segNo := 0, after := 0, gate := 0,
    skipRest := false, dropAddrs := false, tlb := [], walking := none, startEnd := false,
    reqEnd := false, dataEnd := false, cmpEnd := false, afterEnd := false, respEos := false, doneEos := false,
    drained := false, weir := .none, saved := false }

/-- An unconfigured node. -/
def Node.reset : Node :=
  { active := 0, staged := 0, stagedValid := false, configured := false, colour := 0, load := 0, eos := [], table := [],
    predFault := false, dataFault := false, closedOut := false, weired := false, saved := false }

/-- An idle headgate. -/
def Headgate.reset : Headgate :=
  { st := .idle, colour := none, lid := 0, held := [], fresh := [], answer := none, eosSeen := false }

/-- An outfall that no colour holds. -/
def Outfall.reset : Outfall :=
  { colour := none, left := [], message := none, peer := none, weired := false, subst := none, selected := none }

/-- A pool slot that holds no pool. -/
def Pool.reset : Pool :=
  { valid := false, colour := 0, base := 0, size := 0, alloc := [], held := [], waiters := [], asks := [] }

/-- No staging. -/
def Staging.reset : Staging :=
  { isOpen := false, load := 0, closed := false, armed := false, weir := false, drained := [], area := 0 }

/-- Telemetry counters start at 0 (18 R469). -/
def Telem.reset : Telem :=
  { faults := [], corrected := 0, uncorrected := 0, retrains := [], thermal := 0, updates := 0 }

/-- A window that is not set. -/
def Window.reset : Window := { valid := false, base := 0, len := 0, r := false, w := false, a := false }

/-- The logical number of position 8y + x when every die is a compute die: serpentine order (01 R9). -/
def serpentine (d : Nat) : Nat := if (d / 8) % 2 = 0 then d else 8 * (d / 8) + (7 - d % 8)

/-- The live map of a part on which every test passed. What the optical link finds at its other end is a free value of the
boot and the die (16 R448) (L29). -/
def DieMap.full (d : Nat) : DieMap :=
  { cls := .compute, ldie := some (serpentine d), deadElems := [], halves := [], deadPlots := [],
    partner := Config.partner 1 d }

/-- The record of a die position in that live map (16 R453): a compute die, 6,400 live elements, no half-matrix one, every
link but those at a panel edge in service, its partner, no plot dead, every element live. -/
def resetRecord (d : Nat) : List Byte :=
  let edge (p : Bool) : Byte := if p then 0 else 1
  let partner := (DieMap.full d).partner
  [0, BitVec.ofNat 8 (serpentine d), 0x00, 0x19, 0, 0, edge (d / 8 = 0), edge (d % 8 = 7), edge (d / 8 = 7),
    edge (d % 8 = 0 && d ≠ 24 && d ≠ 32), 1, BitVec.ofNat 8 partner.1, BitVec.ofNat 8 partner.2, 0, 0, 0] ++
    List.replicate 208 0 ++ List.replicate 800 0xFF

/-- The live map of State.reset (16 R453): boot number 1 and identity word 247 with sold and current grade 1, 409,600 live
elements on 64 compute dies, and the records. -/
def resetLiveMap : List Byte :=
  [0, 0, 0, 0, 0x11, 0, 0, 0, 1, 0, 0, 0, 0, 0, 0, 0, 0x00, 0x40, 0x06, 0x00, 64, 0, 0, 0] ++ List.replicate 40 0 ++
    (List.range 64).flatMap resetRecord

/-- A measurement register extended with data, and one that is 0 (16 R454). -/
def extended (old data : List Byte) : List Byte := shake256 (old ++ data) 64
def noMeasure : List Byte := List.replicate 64 0

/-- M0 to M7 after the boot steps (16 R454), from data of M0 and M1 that the manual does not give (L19). -/
def bootMeasured (stepping : Nat) (map word247 : List Byte) : Vector (List Byte) 8 :=
  #v[extended noMeasure Config.romAndFirmware, extended noMeasure (Config.securityAndFuses stepping), extended noMeasure map,
    extended noMeasure word247, noMeasure, noMeasure, noMeasure, noMeasure]

/-- The headworks after boot: no session, empty journal, boot number 1 (L2). -/
def Headworks.reset : Headworks :=
  { sessions := [], nextSession := 1, outbox := [], journal := [], jseq := 0,
    meas := bootMeasured Config.stepping resetLiveMap [0x11, 0, 0, 0],
    boot := 1, recovery := false, udpPort := 47310, nextPort := 47310, retire := [],
    part := { sold := Config.soldGrade, stepping := Config.stepping, identity := 0, mgmt := [] }, faultsOpen := [],
    descs := [], peerOut := [], mail := [], names := [], notes := [] }

/-- The module right after boot step 7 of a part on which every test passed (16 R451; 14 R357), nothing launched. -/
def State.reset : State :=
  { agenda := [], focus := .controller 0, free := 0, elems := [], ctrls := [], plots := [], mas := [], nodes := [],
    heads := [], outs := [], pools := [], stagings := [], roots := [], seqs := [], grants := [], telem := [], links := [], linkFaults := [],
    windows := [], inbound := [], binds := [], chans := [], depths := [], packets := [], notices := [], levee := [],
    repairs := [], launches := [], arrivals := 0, store := [], phys := [], bad := [],
    live := (List.range 64).map DieMap.full, hw := Headworks.reset }

end Sys2Proof.Machine
end

