-- ==== Sys2Proof/Machine/Ops.lean ====
section
/-! DEFINITION. The named operations that every meaning is written with: byte memories and tables, the parts of the
module by number, the registers of the core in focus, element memory, fault records, taking an exception (a firing's
abort on an element, a trap on a controller) and the return from it, and going on to the next instruction. -/

namespace Sys2Proof.Machine

open Host (Outcome)

/-- What a meaning answers. -/
abbrev Out := Outcome State Fault Refusal

/-! ## Byte memories: an unlisted address reads as zero (L4) -/

/-- The byte at an address. -/
def Memory.get : Mem → Nat → Byte
  | [], _ => 0
  | (k, v) :: t, a => if k = a then v else Memory.get t a

/-- Writing a byte; the form stays canonical. -/
def Memory.set : Mem → Nat → Byte → Mem
  | [], a, b => if b = 0 then [] else [(a, b)]
  | (k, v) :: t, a, b =>
    if a < k then if b = 0 then (k, v) :: t else (a, b) :: (k, v) :: t
    else if a = k then if b = 0 then t else (a, b) :: t
    else (k, v) :: Memory.set t a b

/-- The canonical form: addresses strictly rising, no entry zero. -/
def Memory.wf : Mem → Bool
  | [] => true
  | [(_, v)] => v ≠ 0
  | (k, v) :: (k', v') :: t => v ≠ 0 && k < k' && Memory.wf ((k', v') :: t)

/-- n bytes from an address upward, little-endian. -/
def Memory.read (m : Mem) (a : Nat) : Nat → Nat
  | 0 => 0
  | n + 1 => (Memory.get m a).toNat + 256 * Memory.read m (a + 1) n

/-- Writing the low n bytes of a number, little-endian. -/
def Memory.write (m : Mem) (a : Nat) (v : Nat) : Nat → Mem
  | 0 => m
  | n + 1 => Memory.write (Memory.set m a (BitVec.ofNat 8 v)) (a + 1) (v / 256) n

/-- n bytes as a list. -/
def Memory.readBytes (m : Mem) (a : Nat) : Nat → List Byte
  | 0 => []
  | n + 1 => Memory.get m a :: Memory.readBytes m (a + 1) n

/-- Writing a list of bytes. -/
def Memory.writeBytes (m : Mem) (a : Nat) : List Byte → Mem
  | [] => m
  | b :: bs => Memory.writeBytes (Memory.set m a b) (a + 1) bs

/-- The little-endian number of a list of bytes. -/
def bytesToNat : List Byte → Nat
  | [] => 0
  | b :: bs => b.toNat + 256 * bytesToNat bs

/-- The low n bytes of a number, lowest first. -/
def natToBytes (v : Nat) : Nat → List Byte
  | 0 => []
  | n + 1 => BitVec.ofNat 8 v :: natToBytes (v / 256) n

/-! ## Tables -/

/-- The entry of a table. -/
def tabGet {α : Type} : Tab α → Nat → Option α
  | [], _ => none
  | (k, v) :: t, a => if k = a then some v else tabGet t a

/-- Setting an entry. -/
def tabSet {α : Type} : Tab α → Nat → α → Tab α
  | [], a, x => [(a, x)]
  | (k, v) :: t, a, x =>
    if a < k then (a, x) :: (k, v) :: t else if a = k then (a, x) :: t else (k, v) :: tabSet t a x

/-- Removing an entry. -/
def tabDel {α : Type} : Tab α → Nat → Tab α
  | [], _ => []
  | (k, v) :: t, a => if a = k then t else (k, v) :: tabDel t a

/-- Whether a table lists its keys in rising order. -/
def tabWf {α : Type} : Tab α → Bool
  | [] => true
  | [_] => true
  | (k, _) :: (k', v') :: t => k < k' && tabWf ((k', v') :: t)

/-- Bit n of a number. -/
def bitOf (v n : Nat) : Bool := v / 2 ^ n % 2 = 1

/-- The n-th element of a list, or a default. -/
def nth {α : Type} (l : List α) (n : Nat) (d : α) : α := (l[n]?).getD d

/-- Replacing the n-th element of a list. -/
def setNth {α : Type} (l : List α) (n : Nat) (x : α) : List α := l.set n x

/-! ## The parts of the module by number -/

/-- Key of an element. -/
def elemKey (die pos : Nat) : Nat := die * 6400 + pos

/-- An element. -/
def State.elem (s : State) (k : Nat) : Element := (tabGet s.elems k).getD Element.reset

/-- Replacing an element. -/
def State.setElem (s : State) (k : Nat) (e : Element) : State := { s with elems := tabSet s.elems k e }

/-- A die controller. -/
def State.ctrl (s : State) (d : Nat) : Controller := (tabGet s.ctrls d).getD Controller.reset

/-- Replacing a controller. -/
def State.setCtrl (s : State) (d : Nat) (c : Controller) : State := { s with ctrls := tabSet s.ctrls d c }

/-- A plot. -/
def State.plot (s : State) (k : Nat) : Plot := (tabGet s.plots k).getD Plot.reset

/-- Replacing a plot. -/
def State.setPlot (s : State) (k : Nat) (p : Plot) : State := { s with plots := tabSet s.plots k p }

/-- A memory actor slot. -/
def State.ma (s : State) (k : Nat) : MemActor := (tabGet s.mas k).getD MemActor.reset

/-- Replacing a memory actor slot. -/
def State.setMa (s : State) (k : Nat) (m : MemActor) : State := { s with mas := tabSet s.mas k m }

/-- A node. -/
def State.node (s : State) (k : Nat) : Node := (tabGet s.nodes k).getD Node.reset

/-- Replacing a node. -/
def State.setNode (s : State) (k : Nat) (n : Node) : State := { s with nodes := tabSet s.nodes k n }

/-- A headgate. -/
def State.head (s : State) (k : Nat) : Headgate := (tabGet s.heads k).getD Headgate.reset

/-- Replacing a headgate. -/
def State.setHead (s : State) (k : Nat) (h : Headgate) : State := { s with heads := tabSet s.heads k h }

/-- An outfall. -/
def State.out (s : State) (k : Nat) : Outfall := (tabGet s.outs k).getD Outfall.reset

/-- Replacing an outfall. -/
def State.setOut (s : State) (k : Nat) (o : Outfall) : State := { s with outs := tabSet s.outs k o }

/-- A sluice pool slot. -/
def State.pool (s : State) (k : Nat) : Pool := (tabGet s.pools k).getD Pool.reset

/-- Replacing a pool slot. -/
def State.setPool (s : State) (k : Nat) (p : Pool) : State := { s with pools := tabSet s.pools k p }

/-- The staging of a colour on a die. -/
def State.staging (s : State) (die colour : Nat) : Staging := (tabGet s.stagings (die * 16 + colour)).getD Staging.reset

/-- Replacing a staging. -/
def State.setStaging (s : State) (die colour : Nat) (g : Staging) : State :=
  { s with stagings := tabSet s.stagings (die * 16 + colour) g }

/-- Telemetry of a die. -/
def State.tel (s : State) (d : Nat) : Telem := (tabGet s.telem d).getD Telem.reset

/-- Replacing telemetry. -/
def State.setTel (s : State) (d : Nat) (t : Telem) : State := { s with telem := tabSet s.telem d t }

/-- An uncorrectable error of a die's own stack, counted (18 R469). -/
def State.countUe (s : State) (d : Nat) : State := s.setTel d { s.tel d with uncorrected := (s.tel d).uncorrected + 1 }

/-- The live map of a die position; positions beyond 63 do not exist. -/
def State.dieMap (s : State) (d : Nat) : DieMap :=
  nth s.live d { cls := .dead, ldie := none, deadElems := [], halves := [], deadPlots := [], partner := (0, 0) }

/-- The logical number of a position, 0xFF when it has none (14 Table 14-1). -/
def State.ldie (s : State) (d : Nat) : Nat := (s.dieMap d).ldie.getD 0xFF

/-- The position of a logical die (01 R9). -/
def State.dieOf (s : State) (l : Nat) : Option Nat := (List.range 64).find? fun d => (s.dieMap d).ldie = some l

/-- Whether an element position is live (16 R452). -/
def State.liveElem (s : State) (d p : Nat) : Bool :=
  (s.dieMap d).cls = .compute && p < 6400 && !(s.dieMap d).deadElems.contains p

/-- Number of live elements of a die. -/
def State.liveCount (s : State) (d : Nat) : Nat :=
  if (s.dieMap d).cls = .compute then 6400 - (s.dieMap d).deadElems.length else 0

/-- The open launch of a colour: at most one is open (02 R23, 13 R327). -/
def State.launch (s : State) (colour : Nat) : Option Launch :=
  s.launches.find? fun l => l.colour = colour && l.st ≠ .ended

/-- Whether the firmware of a die runs: its controller is released and has not halted. A halted controller issues nothing
further (14 R360). -/
def State.firmwareRuns (s : State) (d : Nat) : Bool := (s.ctrl d).released && (s.ctrl d).halted.isNone

/-- Whether the firmware of L0 runs: the loader and the region scheduler. -/
def State.loaderRuns (s : State) : Bool := (s.dieOf 0).any s.firmwareRuns

/-- Changing the open launch of a colour. -/
def State.mapLaunch (s : State) (colour : Nat) (f : Launch → Launch) : State :=
  { s with launches := s.launches.map fun l => if l.colour = colour && l.st ≠ .ended then f l else l }

/-! ## Grades (01 R13, R15) -/

/-- The current grade of the live map: 0 when it meets none. -/
def State.currentGrade (s : State) : Nat :=
  let dies := (List.range 64).filter fun d => (s.dieMap d).cls = .compute
  let live := (dies.map s.liveCount).sum
  if live ≥ 400000 && dies.length = 64 then 1
  else if live ≥ 380000 && dies.length ≥ 61 then 2
  else if live ≥ 360000 && dies.length ≥ 58 then 3
  else 0

/-- Identity word 247 (01 R15): grade codes rise as grades fall, and 0 is below every grade. -/
def State.gradeWord (s : State) : Nat :=
  let cur := s.currentGrade
  let sold := s.hw.part.sold
  sold % 16 + 16 * cur + 256 * (if cur = 0 || cur > sold then 1 else 0)

/-! ## Configuration blocks (14 Table 14-8) -/

/-- A field of a slot record. -/
def slotField (e : Element) (slot off n : Nat) : Nat := Memory.read e.active (32 * slot + off) n

/-- Entry address of an arm. -/
def armEntry (e : Element) (slot : Nat) (arm : Bool) : Nat := slotField e slot (if arm then 2 else 0) 2

/-- Whether a slot is valid, urgent, an ordered actor. -/
def slotValid (e : Element) (slot : Nat) : Bool := slotField e slot 25 1 % 2 = 1
def slotUrgent (e : Element) (slot : Nat) : Bool := slotField e slot 25 1 / 2 % 2 = 1
def slotOrdered (e : Element) (slot : Nat) : Bool := slotField e slot 25 1 / 4 % 2 = 1

/-- Step limit, deferral limit, quota, window entries, return port and W of a slot. -/
def stepLimitOf (e : Element) (slot : Nat) : Nat := slotField e slot 8 4
def defLimitOf (e : Element) (slot : Nat) : Nat := slotField e slot 12 4
def quotaOf (e : Element) (slot : Nat) : Nat := slotField e slot 24 1
def winEntries (e : Element) (slot : Nat) : Nat := slotField e slot 26 1
def retPortOf (e : Element) (slot : Nat) : Nat := slotField e slot 27 1
def winSize (e : Element) (slot : Nat) : Nat := slotField e slot 28 4

/-- Modes of an input port (02 R36). -/
inductive PortMode where
  | unbound | matching | stream | ret
deriving DecidableEq, Repr

/-- Slot, mode and operand number of an input port. -/
def portSlot (e : Element) (i : Nat) : Nat := Memory.read e.active (256 + 4 * i) 4 % 8
def portMode (e : Element) (i : Nat) : PortMode :=
  match Memory.read e.active (256 + 4 * i) 4 / 8 % 4 with
  | 1 => .matching
  | 2 => .stream
  | 3 => .ret
  | _ => .unbound
def portOperand (e : Element) (i : Nat) : Nat := Memory.read e.active (256 + 4 * i) 4 / 32 % 4

/-- Slot of an output port, and whether it is bound. -/
def outSlot (e : Element) (o : Nat) : Nat := Memory.read e.active (288 + 4 * o) 4 % 8
def outBound (e : Element) (o : Nat) : Bool := Memory.read e.active (288 + 4 * o) 4 / 8 % 2 = 1

/-- Required ports of a slot and its required mask (02 R37). -/
def requiredPorts (e : Element) (slot : Nat) : List Nat :=
  (List.range 8).filter fun i => portMode e i = .matching && portSlot e i = slot
def requiredMask (e : Element) (slot : Nat) : BitVec 4 :=
  (requiredPorts e slot).foldl (fun m i => m ||| (1#4 <<< portOperand e i)) 0

/-- Bytes of one retire bitmap (02 R57), and the base of a slot's bitmaps. -/
def bitmapBytes (e : Element) (slot : Nat) : Nat := (winSize e slot + 63) / 64 * 8
def bitmapBase (e : Element) (slot : Nat) : Nat := Memory.read e.active (352 + 4 * slot) 4

/-- Whether a byte lies in a retire bitmap (02 R57). -/
def inBitmap (e : Element) (a : Nat) : Bool :=
  (List.range 8).any fun n =>
    slotValid e n && bitmapBase e n ≤ a && a < bitmapBase e n + winEntries e n * bitmapBytes e n

/-! ## Regions (13 R331) -/

/-- Panel coordinates of a plot. -/
def plotX (die plot : Nat) : Nat := 20 * (die % 8) + plot % 20
def plotY (die plot : Nat) : Nat := 20 * (die / 8) + plot / 20

/-- Whether a plot lies in a rectangle. -/
def rectHolds (r : Rect) (die plot : Nat) : Bool :=
  r.x0 ≤ plotX die plot && plotX die plot < r.x0 + r.w && r.y0 ≤ plotY die plot && plotY die plot < r.y0 + r.h

/-- Whether a rectangle holds a plot of a die. -/
def rectMeets (r : Rect) (die : Nat) : Bool :=
  r.x0 < 20 * (die % 8) + 20 && 20 * (die % 8) < r.x0 + r.w && r.y0 < 20 * (die / 8) + 20 && 20 * (die / 8) < r.y0 + r.h
    && 0 < r.w && 0 < r.h

/-- Live elements of a die inside a rectangle, below a position. -/
def State.liveIn (s : State) (r : Rect) (die below : Nat) : Nat :=
  ((List.range below).filter fun p => s.liveElem die p && rectHolds r die (p / 16)).length

/-- Compute dies that REGION.GRANT has given plots of a rectangle to a colour: the die that the request of the colour's open
launch names stands first (13 R331), and the others in rising logical order (L74). -/
def State.grantDies (s : State) (colour : Nat) (r : Rect) : List Nat :=
  let ds := ((List.range 64).filterMap s.dieOf).filter fun d => tabGet s.grants (d * 16 + colour) = some r
  match s.launch colour with
  | some l => ds.filter (· = l.die0) ++ ds.filter (· ≠ l.die0)
  | none => ds

/-- The region of a colour as an element of a die sees it: its rectangle and its compute dies in order, those of the open
launch, or of a grant by command where none has a region. -/
def State.regionOf (s : State) (colour die : Nat) : Option (Rect × List Nat) :=
  match (s.launch colour).bind fun l => l.rect.map fun r => (r, l.dies) with
  | some x => some x
  | none => (tabGet s.grants (die * 16 + colour)).map fun r => (r, s.grantDies colour r)

/-- Live elements of a region (word 244). -/
def State.regionLive (s : State) (g : Rect × List Nat) : Nat := (g.2.map fun d => s.liveIn g.1 d 6400).sum

/-- Logical element index (word 245, 13 R331). -/
def State.regionIndex (s : State) (g : Rect × List Nat) (die pos : Nat) : Nat :=
  ((g.2.takeWhile (· ≠ die)).map fun d => s.liveIn g.1 d 6400).sum + s.liveIn g.1 die pos

/-! ## Packets that carry no token (13 R348 to R350) -/

/-- Whether a plot router is live: on a compute or router-only die, and not a dead plot (16 R452). -/
def State.liveRouter (s : State) (r : Loc) : Bool :=
  r.plot < 400 && (s.dieMap r.die).cls ≠ .dead && !(s.dieMap r.die).deadPlots.contains r.plot

/-- The least plot of a die whose router is live: where the die's controller, memory actors, memory controller, sluice,
headgates and outfalls stand in this model (L16). -/
def State.attach (s : State) (d : Nat) : Loc :=
  { die := d, plot := ((List.range 400).find? fun p => s.liveRouter { die := d, plot := p }).getD 0 }

/-- Whether what a packet brings stands at its target. -/
def Packet.atTarget (p : Packet) : Bool := p.here = p.target && p.via.isNone

/-- The router of an element's plot. -/
def elemLoc (k : Nat) : Loc := { die := k / 6400, plot := k % 6400 / 16 }

/-- A packet of a class and colour on its way between two routers. -/
def State.sendPacket (s : State) (cls colour : Nat) (c : Cargo) (src dst : Loc) (via : Option Nat) : State :=
  { s with packets := s.packets ++
      [{ cls := cls, colour := colour, load := none, chan := 0, seq := 0,
         dest := { die := dst.die, kind := .element, pos := 16 * dst.plot, din := 0 }, cargo := c, here := src, target := dst,
         via := via, escape := false, refused := 0 }] }

/-- A management packet: class 0 (Table 13-4). -/
def State.manage (s : State) (colour : Nat) (c : Cargo) (src dst : Loc) : State := s.sendPacket 0 colour c src dst none

/-- Whether no packet with such a cargo is still short of its target: what it brings is there. -/
def State.arrived (s : State) (p : Cargo → Bool) : Bool := s.packets.all fun q => !p q.cargo || q.atTarget

/-- The packets with such a cargo, consumed at their target. -/
def State.consume (s : State) (p : Cargo → Bool) : State := { s with packets := s.packets.filter fun q => !p q.cargo }

/-- The facts of Table 9-9, of which 0 to 7 are constant words 240 to 247 (01 Table 1-4, 07 R220). -/
def State.shape (s : State) (k slot n : Nat) : Nat :=
  let e := s.elem k
  let die := k / 6400
  match s.regionOf e.colour die with
  | none =>
    match n with
    | 0 => slotField e slot 16 4
    | 1 => slotField e slot 20 4
    | 6 => s.ldie die
    | 7 => s.gradeWord
    | _ => 0
  | some g =>
    match n with
    | 0 => slotField e slot 16 4
    | 1 => slotField e slot 20 4
    | 2 => g.1.w
    | 3 => g.1.h
    | 4 => s.regionLive g
    | 5 => s.regionIndex g die (k % 6400)
    | 6 => s.ldie die
    | 7 => s.gradeWord
    | 8 => g.2.length
    | 9 => (g.2.findIdx? (· = die)).getD 0
    | _ => 0

/-! ## Element memory (04 R97, 07 R220) -/

/-- End of element memory, and of the constant window. -/
def emEnd : Nat := 0xC000
def constEnd : Nat := 0x400

/-- A byte of element memory as a firing of a slot reads it: words 240 to 255 of the constant window are identity words
or zero (07 R220). -/
def State.emByte (s : State) (k slot a : Nat) : Byte :=
  if 960 ≤ a && a < constEnd then
    if a < 992 then byteOf (s.shape k slot (a / 4 - 240)) (a % 4) else 0
  else Memory.get (s.elem k).mem a

/-- n bytes of element memory, little-endian. -/
def State.emRead (s : State) (k slot a : Nat) : Nat → Nat
  | 0 => 0
  | n + 1 => (s.emByte k slot a).toNat + 256 * s.emRead k slot (a + 1) n

/-- The dirty line of a byte (15 R420), if it lies above the constant window. -/
def dirtyLine (a : Nat) : Option Nat := if a < constEnd then none else some ((a - constEnd) / 64)

/-- Insertion of a number into a rising list without repeats. -/
def insertNat : List Nat → Nat → List Nat
  | [], a => [a]
  | k :: t, a => if a < k then a :: k :: t else if a = k then k :: t else k :: insertNat t a

/-- Marking the lines of n bytes dirty. -/
def markDirty (d : List Nat) (a : Nat) : Nat → List Nat
  | 0 => d
  | n + 1 => markDirty (match dirtyLine a with | none => d | some l => insertNat d l) (a + 1) n

/-- Writing n bytes of element memory. -/
def emWrite (e : Element) (a v n : Nat) : Element :=
  { e with mem := Memory.write e.mem a v n, dirty := markDirty e.dirty a n }

/-! ## The core in focus -/

/-- The registers of the core in focus. -/
def State.core (s : State) : CoreRegs :=
  match s.focus with
  | .element d p => (s.elem (elemKey d p)).core
  | .controller d => (s.ctrl d).core

/-- Replacing them. -/
def State.setCore (s : State) (c : CoreRegs) : State :=
  match s.focus with
  | .element d p => s.setElem (elemKey d p) { s.elem (elemKey d p) with core := c }
  | .controller d => s.setCtrl d { s.ctrl d with core := c }

/-- Whether the core in focus is a controller. -/
def State.onController (s : State) : Bool :=
  match s.focus with
  | .element _ _ => false
  | .controller _ => true

/-- S(f): s0 reads zero (06 R155). -/
def CoreRegs.reg (c : CoreRegs) (r : BitVec 5) : DWord := if r = 0 then 0 else c.s[r.toNat]'(r.isLt)

/-- SetS(f, v): a write to s0 is discarded. -/
def CoreRegs.setReg (c : CoreRegs) (r : BitVec 5) (v : DWord) : CoreRegs :=
  if r = 0 then c else { c with s := c.s.set r.toNat v r.isLt }

/-- P(n, 0): p0 reads true. -/
def CoreRegs.pred (c : CoreRegs) (n : BitVec 3) : Bool := if n = 0 then true else c.p[n.toNat]'(n.isLt)

/-- SetP(n, v): a write to p0 is discarded. -/
def CoreRegs.setPred (c : CoreRegs) (n : BitVec 3) (v : Bool) : CoreRegs :=
  if n = 0 then c else { c with p := c.p.set n.toNat v n.isLt }

/-- S(f) of the core in focus. -/
def State.reg (s : State) (r : BitVec 5) : DWord := s.core.reg r

/-- SetS(f, v) of the core in focus. -/
def State.setReg (s : State) (r : BitVec 5) (v : DWord) : State := s.setCore (s.core.setReg r v)

/-- SetP(n, v) of the core in focus. -/
def State.setPred (s : State) (n : BitVec 3) (v : Bool) : State := s.setCore (s.core.setPred n v)

/-! ## Going on (07 R210, R211; 06 Next()) -/

/-- The test of R210 at address `pc`, where `next` is Next(). -/
def loopEnd (pc next : DWord) : List Loop → DWord × List Loop
  | [] => (next, [])
  | l :: outer =>
    if l.stop = pc then
      if l.left - 1 ≠ 0 then (l.start, { l with left := l.left - 1 } :: outer) else loopEnd pc next outer
    else (next, l :: outer)

/-- The core after an instruction of `size` bytes completes without a taken control transfer: the next repetition of
RPT (R211), the next pass of a loop (R210), or Next(). -/
def CoreRegs.advance (c : CoreRegs) (size : Nat) : CoreRegs :=
  match c.rpt with
  | some r =>
    let n := r.words.length
    if r.idx + 1 < n then { c with pc := r.pc + 4 + BitVec.ofNat 64 (4 * (r.idx + 1)), rpt := some { r with idx := r.idx + 1 } }
    else if r.left - 1 ≠ 0 then { c with pc := r.pc + 4, rpt := some { r with idx := 0, left := r.left - 1 } }
    else { c with pc := r.pc + 4 + BitVec.ofNat 64 (4 * n), rpt := none }
  | none =>
    let t := loopEnd c.pc (c.pc + BitVec.ofNat 64 size) c.loops
    { c with pc := t.1, loops := t.2 }

/-- A completed instruction: the firing in focus, if it is one, is no longer stalled and its next instruction is not yet
counted. -/
def State.settle (s : State) : State :=
  match s.focus with
  | .element d p =>
    let e := s.elem (elemKey d p)
    s.setElem (elemKey d p) { e with fir := { e.fir with status := .running, counted := false, latch := [], swait := none } }
  | .controller _ => s

/-- The instruction completes and the core goes on. -/
def State.advance (s : State) (size : Nat := 4) : State := (s.setCore (s.core.advance size)).settle

/-- The instruction completes with a taken control transfer. -/
def State.goto (s : State) (pc : DWord) : State := (s.setCore { s.core with pc := pc }).settle

/-- The instruction stalls: it has no effect yet, and the firing waits at it (07 R192). -/
def State.stall (s : State) : State :=
  match s.focus with
  | .element d p =>
    let e := s.elem (elemKey d p)
    s.setElem (elemKey d p) { e with fir := { e.fir with status := .stalled, counted := true } }
  | .controller _ => s

/-! ## Fault records (15 R401, R402) -/

/-- Fault codes (15 Table 15-1). -/
def cIllegal : Nat := 0x01
def cExtword : Nat := 0x02
def cMisalign : Nat := 0x03
def cEmRange : Nat := 0x04
def cStepLimit : Nat := 0x06
def cUserFault : Nat := 0x07
def cSendOverflow : Nat := 0x08
def cPortUnbound : Nat := 0x09
def cTagWindow : Nat := 0x0A
def cCtxExhausted : Nat := 0x0B
def cMatchFull : Nat := 0x0C
def cMatrixCfg : Nat := 0x0D
def cXlate : Nat := 0x10
def cAccess : Nat := 0x11
def cHbm : Nat := 0x12
def cSpill : Nat := 0x13
def cConfigFetch : Nat := 0x14
def cLink : Nat := 0x15

/-- Where a fault comes from (15 R401 word 1). -/
inductive Origin where
  | element | memActor | node | channel | link | controller
deriving DecidableEq, Repr

/-- okind codes. -/
def Origin.code : Origin → Nat
  | .element => 0
  | .memActor => 1
  | .node => 2
  | .channel => 3
  | .link => 4
  | .controller => 5

/-- What a fault leaves held (15 R401 word 0, [17:16]). -/
inductive Holds where
  | nothing | entry | stall
deriving DecidableEq, Repr

/-- holds codes. -/
def Holds.code : Holds → Nat
  | .nothing => 0
  | .entry => 1
  | .stall => 2

/-- The headgate endpoint that a fault channel leaves from (15 R403). -/
def faultGate (die : Nat) : Source := { die := die, kind := .headgate, pos := 15, out := 0 }

/-- The fault channel of a colour's load, if it declares one (15 R403). -/
def State.faultChannel (s : State) (colour load : Nat) : Option Bind :=
  match s.launch colour with
  | none => none
  | some l =>
    s.binds.find? fun b => b.source = faultGate (l.dies.headD l.die0) && b.colour = colour && b.load = some load && b.kind = .tagged

/-- Whether a fault of actor slot `slot` of an element goes to the fault channel: not when that actor consumes it. -/
def State.faultToChannel (s : State) (colour load : Nat) (origin : Origin) (die pos slot : Nat) : Bool :=
  match s.faultChannel colour load with
  | none => false
  | some b =>
    !(origin = .element && b.dests.any fun d =>
      d.die = die && d.kind = .element && d.pos = pos && portSlot (s.elem (elemKey die pos)) d.din = slot)

/-- The fault record of four words (15 R401). -/
def faultRecord (seq : Word) (load holds colour code okind pos ldie : Nat) (w2 w3 : DWord) : Rec :=
  { w0 := BitVec.ofNat 64 (seq.toNat * 2 ^ 32 + load % 64 * 2 ^ 22 + holds * 2 ^ 16 + colour % 16 * 2 ^ 12 + code % 256),
    w1 := BitVec.ofNat 64 (okind * 2 ^ 32 + pos % 65536 * 2 ^ 16 + ldie % 64), w2 := w2, w3 := w3 }

/-- The detail word of a fault of a code for which no rule defines one: a free value, the same in every run (02 R66)
(L33). -/
def noDetail (code : Nat) : DWord := Config.freeDetail code

/-- Writing a fault record: the die numbers it and the levee network takes it. -/
def State.report (s : State) (die colour load : Nat) (holds : Holds) (code : Nat) (origin : Origin) (pos slot : Nat)
    (w2 w3 : DWord) : State :=
  let seq := (tabGet s.seqs die).getD 0
  let r := faultRecord seq load holds.code colour code origin.code pos (s.ldie die) w2 w3
  let t := s.tel die
  let ch := holds ≠ .nothing && s.faultToChannel colour load origin die pos slot
  { s with
    free := s.free + 1
    seqs := tabSet s.seqs die (seq + 1)
    telem := tabSet s.telem die { t with faults := tabSet t.faults code ((tabGet t.faults code).getD 0 + 1) }
    levee := s.levee ++
      [{ die := die, pos := pos, record := r, colour := colour, load := load, toBox := true,
         toChannel := ch, handled := !ch, past := false }] }

/-- Word 2 of an element's record: tag, slot and pc. The pc field holds the low 16 bits of a target above 0xFFFF, which 06 R188
and 15 R401 leave open (L86). -/
def faultWord2 (tag : Word) (slot pc : Nat) : DWord :=
  BitVec.ofNat 64 (tag.toNat * 2 ^ 32 + slot % 8 * 2 ^ 16 + pc % 65536)

/-- An element fault outside a firing, which holds nothing (15 R401). -/
def State.reportLoose (s : State) (k code : Nat) (tag : Word) (slot : Nat) (detail : DWord) : State :=
  let e := s.elem k
  s.report (k / 6400) e.colour e.load .nothing code .element (k % 6400) slot (faultWord2 tag slot 0) detail

/-! ## Provisional effects (02 R54, 09 R271 to R273) -/

/-- Free notices to every waiter for a value of a pool, who wait no longer (02 R58); each travels on class 0 (13 R348). -/
def State.notify (s : State) (pk v : Nat) : State :=
  let p := s.pool pk
  let ws := p.waiters.filter fun w => w.1 = v
  let t : State := { s.setPool pk { p with waiters := p.waiters.filter fun w => w.1 ≠ v } with
    notices := s.notices ++ ws.map fun w => { elem := w.2, pool := pk, value := v } }
  ws.foldl (fun t w => t.manage p.colour (.notice pk v w.2) (t.attach (pk / 16)) (elemLoc w.2)) t

/-- Dropping provisional holds: each value is free again and its waiters hear of it (09 R271). -/
def State.dropHolds (s : State) : List (Nat × Nat) → State
  | [] => s
  | (pk, v) :: t =>
    let p := s.pool pk
    State.dropHolds ((s.setPool pk { p with held := p.held.filter fun h => h.1 ≠ v }).notify pk v) t

/-- The key of a slot's window entry in the table of an element. -/
def winKey (slot idx : Nat) : Nat := slot * 16 + idx

/-- The index of the window entry of a slot that holds a context. -/
def findWin (e : Element) (slot : Nat) (c : BitVec 14) : Option Nat :=
  (List.range (winEntries e slot)).find? fun i =>
    match tabGet e.wins (winKey slot i) with
    | some w => w.ctx = c
    | none => false

/-- Undoing a firing's window advances (02 R54). -/
def undoWindow (e : Element) : Element :=
  let f := e.fir
  match findWin e f.slot (f.tag.extractLsb' 18 14) with
  | none => e
  | some i =>
    match tabGet e.wins (winKey f.slot i) with
    | none => e
    | some w =>
      if f.opened then { e with wins := tabDel e.wins (winKey f.slot i) }
      else { e with wins := tabSet e.wins (winKey f.slot i) { w with n := w.n - BitVec.ofNat 18 f.advances } }

/-- Undoing every provisional effect of the firing of an element: window advances, holds, recorded frees, sends. A
request that no sluice has served is withdrawn. -/
def State.undo (s : State) (k : Nat) : State :=
  let e := s.elem k
  let f := e.fir
  let s := s.setElem k
    { undoWindow e with fir := { f with sends := [], holds := [], frees := [], advances := 0, opened := false, ask := .none } }
  let s :=
    match f.ask with
    | .asked pk v =>
      let p := s.pool pk
      (s.setPool pk { p with asks := p.asks.filter fun a => a ≠ (v, k) }).consume fun c => c = Cargo.ask pk v k
    | _ => s
  s.dropHolds f.holds

/-! ## Taking an exception and returning from it -/

/-- Setting the state of a matching entry. -/
def setEntry (e : Element) (i : Nat) (en : Entry) : Element := { e with store := tabSet e.store i en }

/-- A counter of PERF plus n (09 R296). -/
def bumpPerf (e : Element) (k : Fin 7) (n : Nat) : Element :=
  { e with perf := e.perf.set k (e.perf[k] + BitVec.ofNat 64 n) }

/-- The entry of the firing, or the end firing of its slot, becomes FAULTED (02 R42, R51). -/
def faultPlace (e : Element) : Element :=
  let f := e.fir
  if f.place < 64 then
    match tabGet e.store f.place with
    | some en => setEntry e f.place { en with st := .faulted }
    | none => e
  else { e with ends := e.ends.setIfInBounds (f.place - 64) .faulted }

/-- A fault aborts the firing of element k (02 R51): sends discarded, provisional effects undone, entry FAULTED, record
written. `pc` is the faulting pc. -/
def State.abortFiring (s : State) (k code : Nat) (pc : Nat) (detail : DWord) : State :=
  let s := s.undo k
  let e := s.elem k
  let f := e.fir
  let e' := { bumpPerf (faultPlace e) 2 1 with
    fir := { f with status := .idle, counted := false, latch := [], swait := none }, core := { e.core with rpt := none, loops := [] } }
  (s.setElem k e').report (k / 6400) e.colour e.load .entry code .element (k % 6400) f.slot
    (faultWord2 f.tag f.slot pc) detail

/-- Marks of a trap in word 1: the code, and whether a repetition of RPT faulted (14 R360). -/
def trapWord1 (code : Nat) (rpt : Bool) : Nat := code % 256 + (if rpt then 256 else 0)

/-- A trap of the controller of die d (14 R360): record, trap level, counter, loop levels, pc; a second trap halts. -/
def State.trap (s : State) (d code : Nat) (addr : DWord) : State :=
  let c := s.ctrl d
  let pc := match c.core.rpt with | some r => r.pc | none => c.core.pc
  if c.tl then s.setCtrl d { c with halted := some { code := code, pc := pc, addr := addr, told := false } }
  else
    let t := c.trapbase.toNat
    let n := c.trapcnt + 1
    let m := Memory.write c.sram t pc.toNat 8
    let m := Memory.write m (t + 8) (trapWord1 code c.core.rpt.isSome) 8
    let m := Memory.write m (t + 16) addr.toNat 8
    let m := Memory.write m (t + 24) n.toNat 8
    s.setCtrl d { c with
      sram := m, tl := true, trapcnt := n, shadow := c.core.loops
      core := { c.core with pc := BitVec.ofNat 64 (t + 64 * code), loops := [], rpt := none } }

/-- An instruction of the core in focus faults. On an element it aborts the firing; on a controller it traps, with the
address `addr` in word 2 of the trap record. -/
def State.raiseAt (s : State) (code : Nat) (addr detail : DWord) : State :=
  match s.focus with
  | .element d p => s.abortFiring (elemKey d p) code s.core.pc.toNat detail
  | .controller d => s.trap d code addr

/-- A fault that concerns no address: word 2 of a trap record is then the pc recorded in word 0 (14 R360). -/
def State.raise (s : State) (code : Nat) (detail : DWord) : State :=
  s.raiseAt code (match s.core.rpt with | some r => r.pc | none => s.core.pc) detail

/-- A fault of a memory access at `ea`, which is the detail word and the faulting address (07 R215, 14 R360). -/
def State.raiseMem (s : State) (code : Nat) (ea : DWord) : State := s.raiseAt code ea ea

/-- The return from a trap (14 R364): the pc is word 0 of the trap record, the loop levels come back, tl is 0. -/
def State.trapReturn (s : State) (d : Nat) : State :=
  let c := s.ctrl d
  s.setCtrl d { c with
    tl := false, shadow := []
    core := { c.core with pc := BitVec.ofNat 64 (Memory.read c.sram c.trapbase.toNat 8), loops := c.shadow, rpt := none } }

/-- A meaning on the element in focus; an element instruction on a controller is ILLEGAL (06 R187). -/
def onElement (s : State) (f : Nat → Out) : Out :=
  match s.focus with
  | .element d p => f (elemKey d p)
  | .controller _ => .next (s.raise cIllegal (noDetail cIllegal))

/-- A meaning on the controller in focus; a controller instruction on an element is ILLEGAL (06 R187). -/
def onController (s : State) (f : Nat → Out) : Out :=
  match s.focus with
  | .element _ _ => .next (s.raise cIllegal (noDetail cIllegal))
  | .controller d => f d

/-- The end of the address space that the core in focus fetches and loads from: element memory, or SRAM (14 R358). -/
def State.memEnd (s : State) : Nat := if s.onController then 0x400000 else emEnd

/-- The address from which code may run: above the constant window, or all of SRAM (06 R154, 14 R358). -/
def State.codeStart (s : State) : Nat := if s.onController then 0 else constEnd

/-- n bytes that the core in focus reads (07 R216, R220; 14 R358). -/
def State.load (s : State) (a n : Nat) : Nat :=
  match s.focus with
  | .element d p => s.emRead (elemKey d p) (s.elem (elemKey d p)).fir.slot a n
  | .controller d => Memory.read (s.ctrl d).sram a n

/-- n bytes that the core in focus writes; a store ends a firing's cleanliness (02 R52). -/
def State.storeBytes (s : State) (a v n : Nat) : State :=
  match s.focus with
  | .element d p =>
    let e := emWrite (s.elem (elemKey d p)) a v n
    s.setElem (elemKey d p) { e with fir := { e.fir with clean := false } }
  | .controller d => s.setCtrl d { s.ctrl d with sram := Memory.write (s.ctrl d).sram a v n }

/-- The word at an address of the core in focus. -/
def State.word (s : State) (a : Nat) : Word := BitVec.ofNat 32 (s.load a 4)

/-! ## Event bits of a controller (14 Table 14-3) -/

/-- Latching an event bit of die d. -/
def State.latch (s : State) (d bit : Nat) : State :=
  let c := s.ctrl d
  s.setCtrl d { c with latched := c.latched ||| (1#12 <<< bit) }

/-- A mailbox of die d. -/
def State.box (s : State) (d : Nat) (k : Fin 5) : List Rec := (s.ctrl d).mbox[k]

/-- Replacing a mailbox. -/
def State.setBox (s : State) (d : Nat) (k : Fin 5) (l : List Rec) : State :=
  let c := s.ctrl d
  s.setCtrl d { c with mbox := c.mbox.set k l }

/-- Records a mailbox holds (14 Table 14-4). -/
def boxSize (k : Fin 5) : Nat := if k = 0 then 256 else 64

/-- The next number of the free-value counter. -/
def State.bumpFree (s : State) : State := { s with free := s.free + 1 }

end Sys2Proof.Machine
end

