-- ==== Sys2Proof/Machine/Operands.lean ====
section
/-! DEFINITION. Operand forms (06 R156, R157, R189): scalar registers, the alternate bank, stream registers. An
instruction checks every stream operand before it pops anything, pops in field order, stalls with what it has popped
kept in the firing's latch, and pushes last (08 R251 to R253). -/

namespace Sys2Proof.Machine

/-! ## Channels of a source -/

/-- The binding of a source endpoint for a load of a colour; a saved launch of another colour may have one too. -/
def State.srcBind (s : State) (src : Source) (colour load : Nat) : Option Bind :=
  s.binds.find? fun b => b.source = src && b.colour = colour && b.load = some load

/-- Changing the binding of a source endpoint for a load of a colour. -/
def State.mapBind (s : State) (src : Source) (colour load : Nat) (f : Bind → Bind) : State :=
  { s with binds := s.binds.map fun b => if b.source = src && b.colour = colour && b.load = some load then f b else b }

/-- Node kinds (12 R309). -/
inductive NodeKind where
  | split | arm | orderedConf | unorderedConf
deriving DecidableEq, Repr

/-- The kind in a node configuration, and the depth D (14 R378). -/
def nodeKind (cfg : DWord) : NodeKind :=
  match (cfg.extractLsb' 0 2).toNat with
  | 0 => .split
  | 1 => .arm
  | 2 => .orderedConf
  | _ => .unorderedConf
def nodeDepth (cfg : DWord) : Nat := (cfg.extractLsb' 2 7).toNat

/-- How many of the producers of a consumer endpoint satisfy p (02 R28, R33), through at most n channels: an unordered
confluence stands for all the producers of its inputs. -/
def State.producersWithin (s : State) (p : Source → Bool) (colour load : Nat) : Nat → Dest → Nat
  | 0, _ => 0
  | n + 1, dest =>
    ((s.binds.filter fun b => b.colour = colour && b.load = some load && b.dests.contains dest).map fun b =>
      if b.merges then
        ((List.range 8).map fun i =>
          s.producersWithin p colour load n { die := b.source.die, kind := .node, pos := b.source.pos, din := i }).sum
      else if p b.source then 1 else 0).sum

/-- How many of its producers satisfy p: a chain of confluences crosses each binding at most once. -/
def State.producersThat (s : State) (p : Source → Bool) (colour load : Nat) (d : Dest) : Nat :=
  s.producersWithin p colour load (s.binds.length + 1) d

/-- How many producers a consumer endpoint counts. -/
def State.producers (s : State) (colour load : Nat) (d : Dest) : Nat := s.producersThat (fun _ => true) colour load d

/-- The input port i of element k as a consumer endpoint. -/
def elemDest (k i : Nat) : Dest := { die := k / 6400, kind := .element, pos := k % 6400, din := i }

/-- Output port o of element k as a source endpoint. -/
def elemSource (k o : Nat) : Source := { die := k / 6400, kind := .element, pos := k % 6400, out := o }

/-- Producers of the channel into input port i of element k. -/
def State.portProducers (s : State) (k i : Nat) : Nat := s.producers (s.elem k).colour (s.elem k).load (elemDest k i)

/-- Whether an input port is ended (02 R28). -/
def State.portEnded (s : State) (k i : Nat) : Bool :=
  let n := s.portProducers k i
  0 < n && n ≤ nth (s.elem k).portEos.toList i 0

/-- The queue of an input port (02 R36). -/
def portQueue (e : Element) (i : Nat) : List Token := nth e.ports.toList i []

/-- Replacing the queue of an input port. -/
def setPortQueue (e : Element) (i : Nat) (q : List Token) : Element := { e with ports := e.ports.setIfInBounds i q }

/-- One more in a vector of counts. -/
def bumpAt {n : Nat} (v : Vector Nat n) (i : Nat) : Vector Nat n := v.setIfInBounds i (nth v.toList i 0 + 1)

/-- Port logic at the head of a queue: EOS and switch tokens are counted, markers pass, and a data or stop token at an
ended port is discarded with ILLEGAL (02 R28, R42; 08 R252; 13 R339; 15 R421). A retire token stands for the window logic
(02 R56) there as at any port, where R28 speaks of data and stop tokens only (L85). -/
def State.settlePort (s : State) (k i : Nat) : Nat → State
  | 0 => s
  | fuel + 1 =>
    let e := s.elem k
    match portQueue e i with
    | [] => s
    | t :: rest =>
      let e' := setPortQueue e i rest
      match t.kind with
      | .eos =>
        State.settlePort (s.setElem k { e' with portEos := bumpAt e'.portEos i }) k i fuel
      | .switch =>
        State.settlePort (s.setElem k { e' with portSwitch := bumpAt e'.portSwitch i }) k i fuel
      | .weir | .repair => State.settlePort (s.setElem k e') k i fuel
      | .data | .stop =>
        if s.portEnded k i then
          State.settlePort ((s.setElem k e').reportLoose k cIllegal t.tag (portSlot e i) (BitVec.ofNat 64 i)) k i fuel
        else s
      | .retire => s

/-- Taking the head of a port's queue. -/
def State.takePort (s : State) (k i : Nat) : State :=
  let e := s.elem k
  (s.setElem k (setPortQueue e i (portQueue e i).tail)).settlePort k i 8

/-! ## Stream faults (08 Table 8-8, R473; 09 Table 9-1) -/

/-- Detail word of a stream fault: the unit, the cause, and the port or 0xFF. -/
def streamDetail (unit cause port : Nat) : DWord := BitVec.ofNat 64 (unit + 256 * cause + 65536 * port)

/-- Detail word of a token fault: port and cause (09 R260). -/
def portDetail (o cause : Nat) : DWord := BitVec.ofNat 64 (o + 256 * cause)

/-- A fault that a check finds. -/
abbrev Fails := Option (Nat × DWord)

/-- Elements of a generator's run (08 R243). -/
def runLength (g : Gen) : Nat := g.cnt[0] * g.cnt[1] * g.cnt[2] * g.cnt[3]

/-- Data tokens waiting in a port. -/
def dataCount (q : List Token) : Nat := (q.filter fun t => t.kind = .data).length

/-- The check of `n` pops of a register (08 Table 8-7, R251). -/
def State.popFault (s : State) (k : Nat) (q : Fin 3) (n : Nat) : Fails :=
  let e := s.elem k
  match e.q[q] with
  | .unbound => some (cPortUnbound, streamDetail q 1 0xFF)
  | .gen g =>
    let gen := e.gens[g]
    match gen.st with
    | .read => if runLength gen - gen.popped < n then some (cIllegal, streamDetail q 3 0xFF) else none
    | .write => some (cIllegal, streamDetail q 2 0xFF)
    | .idle | .error | .drain => some (cIllegal, streamDetail q 3 0xFF)
  | .inPort i =>
    if s.portEnded k i.toNat && dataCount (portQueue e i.toNat) < n then some (cIllegal, streamDetail q 6 0xFF) else none
  | .outPort _ => some (cIllegal, streamDetail q 2 0xFF)

/-- The check of every pop of an instruction, before any. -/
def State.popsFault (s : State) (k : Nat) (pops : List (Fin 3)) : Fails :=
  pops.findSome? fun q => s.popFault k q (pops.count q)

/-! ## Output ports and the send buffer (09 R258, R260) -/

/-- Entries of the send buffer. -/
def sendCapacity : Nat := 256

/-- The channel of output port o of the executing firing's actor. -/
def State.outChannel (s : State) (k o : Nat) : Option Bind :=
  let e := s.elem k
  if outBound e o && outSlot e o = e.fir.slot then s.srcBind (elemSource k o) e.colour e.load else none

/-- Which instruction appends (09 R260). -/
inductive SendKind where
  | push | plain | stop | bulk | mreq | tagret
deriving DecidableEq, Repr

/-- Whether EOS has left on a port or stands in the buffer. -/
def portClosed (b : Bind) (sends : List Send) (o : Nat) : Bool :=
  b.closed || sends.any fun x => x.port = o && x.tok.kind = .eos

/-- Whether a channel leads to the req input of a memory actor. -/
def leadsToReq (b : Bind) : Bool := b.dests.any fun d => d.kind = .memActor && d.din = 0

/-- The checks of R260 but for capacity. -/
def State.sendFault (s : State) (k o : Nat) (kind : SendKind) : Fails :=
  match s.outChannel k o with
  | none => some (cPortUnbound, portDetail o 23)
  | some b =>
    if b.kind = .ret && kind ≠ .tagret then some (cIllegal, portDetail o 16)
    else if portClosed b (s.elem k).fir.sends o then some (cIllegal, portDetail o 17)
    else if b.kind = .tagged && (kind = .stop || kind = .bulk) then some (cIllegal, portDetail o 18)
    else if kind = .mreq && !leadsToReq b then some (cIllegal, portDetail o 19)
    else none

/-- The capacity check for n tokens (09 R258). -/
def State.capacityFault (s : State) (k n : Nat) : Fails :=
  let used := (s.elem k).fir.sends.length
  if used + n > sendCapacity then some (cSendOverflow, BitVec.ofNat 64 (n % 65536 + 65536 * used)) else none

/-- Appending tokens to the send buffer. -/
def State.appendSends (s : State) (k : Nat) (l : List Send) : State :=
  let e := s.elem k
  s.setElem k { e with fir := { e.fir with sends := e.fir.sends ++ l } }

/-- A data token of the firing on element k (09 R261). -/
def dataToken (e : Element) (payload : DWord) (tag : Word) (arm : Bool) : Token :=
  { payload := payload, tag := tag, kind := .data, level := 0, arm := arm, colour := e.colour, fin := false }

/-- The check of a push (08 Table 8-7, R253). -/
def State.pushFault (s : State) (k : Nat) (q : Fin 3) : Fails :=
  let e := s.elem k
  match e.q[q] with
  | .unbound => some (cPortUnbound, streamDetail q 1 0xFF)
  | .gen g =>
    let gen := e.gens[g]
    match gen.st with
    | .read => some (cIllegal, streamDetail q 2 0xFF)
    | .write => if runLength gen ≤ gen.pushed then some (cIllegal, streamDetail q 4 0xFF) else none
    | .idle | .error | .drain => some (cIllegal, streamDetail q 3 0xFF)
  | .inPort _ => some (cIllegal, streamDetail q 2 0xFF)
  | .outPort o =>
    match s.outChannel k o.toNat with
    | none => some (cPortUnbound, streamDetail q 1 0xFF)
    | some b =>
      if b.kind = .ret then some (cIllegal, portDetail o.toNat 16)
      else if portClosed b e.fir.sends o.toNat then some (cIllegal, portDetail o.toNat 17)
      else s.capacityFault k 1

/-- Whether a push must wait: 8 pushes of the write run wait to be written (08 R245). -/
def State.pushBlocked (s : State) (k : Nat) (q : Fin 3) : Bool :=
  match (s.elem k).q[q] with
  | .gen g => 8 ≤ ((s.elem k).gens[g]).waiting.length
  | _ => false

/-! ## Pops -/

/-- What one pop does. -/
inductive Popped where
  | got (s : State) (v : Word)
  | wait (s : State)
  | fails (s : State) (code : Nat) (detail : DWord)
deriving Repr

/-- Replacing a generator. -/
def setGen (e : Element) (g : Fin 3) (x : Gen) : Element := { e with gens := e.gens.set g x }

/-- A read run after one more pop; it returns to idle after the last (08 R244). -/
def popGen (g : Gen) : Gen :=
  let g' := { g with popped := g.popped + 1, held := g.held.tail }
  if runLength g ≤ g'.popped then { g' with st := .idle, held := [], ahead := false } else g'

/-- A pop from an input port: stop tokens at the head are discarded (08 R252). -/
def State.popPort (s : State) (k : Nat) (q : Fin 3) (i : Nat) : Nat → Popped
  | 0 => .wait s
  | fuel + 1 =>
    match portQueue (s.elem k) i with
    | [] => if s.portEnded k i then .fails s cIllegal (streamDetail q 6 0xFF) else .wait s
    | t :: _ =>
      if t.kind = .data then .got (s.takePort k i) (t.payload.truncate 32)
      else State.popPort (s.takePort k i) k q i fuel

/-- One pop of register q. -/
def State.popOne (s : State) (k : Nat) (q : Fin 3) : Popped :=
  let e := s.elem k
  match e.q[q] with
  | .gen g =>
    match (e.gens[g]).held with
    | [] => .wait s
    | v :: _ => .got (s.setElem k (setGen e g (popGen e.gens[g]))) v
  | .inPort i => s.popPort k q i.toNat 8
  | _ => .fails s cPortUnbound (streamDetail q 1 0xFF)

/-- Keeping popped values at a stalled instruction. -/
def State.keepLatch (s : State) (k : Nat) (vals : List Word) : State :=
  let e := s.elem k
  s.setElem k { e with fir := { e.fir with latch := vals } }

/-- What the stream operands of an instruction come to. A fault comes with the state after the pops made before it, which
stay done (08 R251). -/
inductive Gate where
  | go (s : State) (vals : List Word)
  | wait (s : State)
  | fails (s : State) (code : Nat) (detail : DWord)
deriving Repr

/-- The pops still to make, in field order. -/
def State.popAll (s : State) (k : Nat) : List (Fin 3) → List Word → Gate
  | [], vals => .go s vals
  | q :: qs, vals =>
    match s.popOne k q with
    | .got s' v => State.popAll s' k qs (vals ++ [v])
    | .wait s' => .wait (s'.keepLatch k vals)
    | .fails s' c d => .fails s' c d

/-- The stream operands of an instruction: checks, pops, room for the push. Where the check of a pop and that of the push
both fail, the pop's fault is raised, and among pops that of the first in field order: 08 R251 gives no order (L66). -/
def State.gate (s : State) (k : Nat) (pops : List (Fin 3)) (push : Option (Fin 3)) : Gate :=
  let done := (s.elem k).fir.latch
  let todo := pops.drop done.length
  match s.popsFault k todo, push.bind fun q => s.pushFault k q with
  | some f, _ => .fails s f.1 f.2
  | none, some f => .fails s f.1 f.2
  | none, none =>
    match s.popAll k todo done with
    | .go s' vals =>
      match push with
      | some q => if s'.pushBlocked k q then .wait (s'.keepLatch k vals) else .go s' vals
      | none => .go s' vals
    | g => g

/-- An instruction with its operands: `ok` says that it is in the controller's profile, `pops` and `push` name its
stream operands, `eff` is its effect on the state after the pops. -/
def withOperands (s : State) (ok : Bool) (pops : List (Fin 3)) (push : Option (Fin 3)) (eff : State → List Word → State) :
    Out :=
  match s.focus with
  | .controller _ => .next (if ok then eff s [] else s.raise cIllegal 0)
  | .element d p =>
    if pops = [] ∧ push = none then .next (eff s [])
    else
      match s.gate (elemKey d p) pops push with
      | .go s' vals => .next (eff s' vals)
      | .wait s' => .next s'.stall
      | .fails s' c dt => .next (s'.raise c dt)

/-! ## Reading and writing operands -/

/-- Stream registers that a source pops. -/
def srcPops : Src → List (Fin 3)
  | .q n => [n]
  | _ => []

/-- Stream registers that a float operand pops. -/
def sqPops : SQ → List (Fin 3)
  | .q n => [n]
  | .s _ => []

/-- The stream register that a destination pushes to. -/
def sqPush : SQ → Option (Fin 3)
  | .q n => some n
  | .s _ => none

/-- The alternate bank of the element in focus (06 Table 6-1); a controller has none. -/
def State.alt (s : State) (f : Element → DWord) : DWord :=
  match s.focus with
  | .element d p => f (s.elem (elemKey d p))
  | .controller _ => 0

/-- Src(f, alt), with the values popped so far still unread (06 R189). -/
def State.src (s : State) (a : Src) (vals : List Word) : DWord :=
  match a with
  | .s r => s.reg r
  | .x n => s.alt fun e => e.x[n.toNat]'(n.isLt)
  | .xt => s.alt fun e => e.xt
  | .xc => s.alt fun e => e.xc
  | .q _ => (vals.headD 0).signExtend 64

/-- The popped values that are left after a source has been read. -/
def srcRest (a : Src) (vals : List Word) : List Word :=
  match a with
  | .q _ => vals.tail
  | _ => vals

/-- FSrc(f, q). -/
def State.fsrc (s : State) (a : SQ) (vals : List Word) : Word :=
  match a with
  | .s r => (s.reg r).truncate 32
  | .q _ => vals.headD 0

/-- The popped values that are left after a float source. -/
def sqRest (a : SQ) (vals : List Word) : List Word :=
  match a with
  | .q _ => vals.tail
  | .s _ => vals

/-- Push(n, v) on an element: to the write run or to the send buffer (08 R245, R253); it ends cleanliness (02 R52). -/
def pushElem (e : Element) (q : Fin 3) (v : Word) : Element :=
  let e := { e with fir := { e.fir with clean := false } }
  match e.q[q] with
  | .gen g =>
    let x := e.gens[g]
    setGen e g { x with pushed := x.pushed + 1, waiting := x.waiting ++ [v] }
  | .outPort o =>
    { e with fir := { e.fir with
        sends := e.fir.sends ++ [{ port := o.toNat, tok := dataToken e (v.zeroExtend 64) e.fir.tag false }] } }
  | _ => e

/-- Push(n, v) on the core in focus. -/
def State.push (s : State) (q : Fin 3) (v : Word) : State :=
  match s.focus with
  | .element d p => s.setElem (elemKey d p) (pushElem (s.elem (elemKey d p)) q v)
  | .controller _ => s

/-- IDst(f, q, v). -/
def State.idst (s : State) (d : SQ) (v : DWord) : State :=
  match d with
  | .s r => s.setReg r v
  | .q n => s.push n (v.truncate 32)

/-- FDst(f, q, v). -/
def State.fdst (s : State) (d : SQ) (v : Word) : State :=
  match d with
  | .s r => s.setReg r (v.zeroExtend 64)
  | .q n => s.push n v

/-! ## Shapes of instructions -/

/-- Two sources and an integer destination (07 R195). -/
def intOp2 (s : State) (d : SQ) (a b : Src) (f : DWord → DWord → DWord) : Out :=
  withOperands s (d.controllerOk && a.controllerOk && b.controllerOk) (srcPops a ++ srcPops b) (sqPush d) fun t vals =>
    (t.idst d (f (t.src a vals) (t.src b (srcRest a vals)))).advance

/-- One source and an integer destination. -/
def intOp1 (s : State) (d : SQ) (a : Src) (f : DWord → DWord) : Out :=
  withOperands s (d.controllerOk && a.controllerOk) (srcPops a) (sqPush d) fun t vals =>
    (t.idst d (f (t.src a vals))).advance

/-- One scalar source and a scalar destination (07 R198, R199). -/
def immOp (s : State) (d a : BitVec 5) (f : DWord → DWord) : Out := .next ((s.setReg d (f (s.reg a))).advance)

/-- A source without an alternate bank, and two sources whose effect writes no stream. -/
def srcOp2 (s : State) (a b : Src) (eff : State → DWord → DWord → State) : Out :=
  withOperands s (a.controllerOk && b.controllerOk) (srcPops a ++ srcPops b) none fun t vals =>
    (eff t (t.src a vals) (t.src b (srcRest a vals))).advance

/-- Two float sources and a float destination (08 R226). -/
def floatOp2 (s : State) (d a b : SQ) (f : Word → Word → Word) : Out :=
  withOperands s false (sqPops a ++ sqPops b) (sqPush d) fun t vals =>
    (t.fdst d (f (t.fsrc a vals) (t.fsrc b (sqRest a vals)))).advance

/-- One float source and a float destination (08 R227). -/
def floatOp1 (s : State) (d a : SQ) (f : Word → Word) : Out :=
  withOperands s false (sqPops a) (sqPush d) fun t vals => (t.fdst d (f (t.fsrc a vals))).advance

end Sys2Proof.Machine
end

