-- ==== Sys2Proof/Machine/Controller.lean ====
section
/-! DEFINITION. The die controller's instructions (14 R361 to R371) and its events: timer, quantum counter, mailboxes,
invalidations, fault records. -/

namespace Sys2Proof.Machine

/-! ## Counters (14 R361) -/

/-- Whether a 64-bit counter that goes on by n counts reaches a value. -/
def crossed (c n v : DWord) : Bool := v - c ≠ 0 && (v - c).toNat ≤ n.toNat

/-- n controller cycles pass: lcnt and qcnt go on together, and raise their events if they reach their marks. -/
def elapse (c : Controller) (n : DWord) : Controller :=
  let bits : BitVec 12 := (if crossed c.lcnt n c.tcmp then 8 else 0) ||| (if crossed c.qcnt n c.quantum then 64 else 0)
  { c with lcnt := c.lcnt + n, qcnt := c.qcnt + n, latched := c.latched ||| bits }

/-- Controller cycles that have passed unseen, by a number that the manual does not give (L6). -/
def State.tick (s : State) (d : Nat) : State := (s.setCtrl d (elapse (s.ctrl d) (Config.freeCycles s.free))).bumpFree

/-- The cycles pass in which lcnt next reaches tcmp: event 3. -/
def execTimer (die : Nat) (s : State) : Out :=
  let c := s.ctrl die
  .next (s.setCtrl die (elapse c (c.tcmp - c.lcnt)))

/-! ## Events (14 R365) -/

/-- Whether a headgate of a die is holding. -/
def State.holdingGate (s : State) (d : Nat) : Bool := (List.range 16).any fun n => (s.head (d * 16 + n)).st = .holding

/-- Whether a completed ticket has not been retired. -/
def ticketDone (c : Controller) : Bool :=
  c.tickets.any fun t =>
    match t.phase with
    | .done _ => true
    | _ => false

/-- A level bit of evpend. -/
def levelBit (n : Nat) (b : Bool) : BitVec 12 := if b then 1#12 <<< n else 0

/-- evpend (Table 14-3). -/
def State.evpend (s : State) (d : Nat) : BitVec 12 :=
  let c := s.ctrl d
  c.latched ||| levelBit 0 (s.box d 0 ≠ []) ||| levelBit 1 (s.box d 1 ≠ []) ||| levelBit 2 (ticketDone c) |||
    levelBit 4 (s.holdingGate d) ||| levelBit 10 ((s.box d 2).length < 64 && (s.box d 3).length < 64)

/-- The latched bits. -/
def latchedBits : BitVec 12 := 0xBE8

/-- WAITEV. -/
def execWaitev (d : BitVec 5) (m : BitVec 12) (s : State) : Out :=
  onController s fun k =>
    let v := s.evpend k &&& m
    if v = 0 && m ≠ 0 then .next s.stall else .next (s.setReg d (v.zeroExtend 64)).advance

/-! ## CSRs (14 Table 14-1) -/

/-- The value of a CSR; none where the table has no such number. -/
def State.csr (s : State) (d n : Nat) : Option DWord :=
  let c := s.ctrl d
  match n with
  | 0x000 => some (BitVec.ofNat 64 c.tl.toNat)
  | 0x001 => some c.trapbase
  | 0x002 => some c.trapcnt
  | 0x010 => some (BitVec.ofNat 64 (s.ldie d))
  | 0x011 => some (BitVec.ofNat 64 d)
  | 0x012 => some (BitVec.ofNat 64 s.gradeWord)
  | 0x020 => some c.quantum
  | 0x021 => some c.qcnt
  | 0x022 => some c.lcnt
  | 0x023 => some c.tcmp
  | 0x031 => some ((s.evpend d).zeroExtend 64)
  | 0x040 => some (BitVec.ofNat 64 c.tickets.length)
  | 0x050 => some c.spbase
  | 0x051 => some c.spsize
  | _ => none

/-- CSRR; a read of a running counter sees it as it stands then. -/
def execCsrr (d : BitVec 5) (n : BitVec 12) (s : State) : Out :=
  onController s fun k =>
    let t := if n = 0x021 || n = 0x022 then s.tick k else s
    match t.csr k n.toNat with
    | some v => .next (t.setReg d v).advance
    | none => .next (s.raise cIllegal 0)

/-- Bytes in 2 MiB. -/
def mib2 : Nat := 2097152

/-- The controller with a CSR written; none where the number, the access or the value is not allowed (R361). A value
outside the range that Table 14-1 gives is taken as one with a reserved bit (L26). -/
def writeCsr (c : Controller) (n : Nat) (v : DWord) : Option Controller :=
  match n with
  | 0x001 => if v.toNat % 512 = 0 && v.toNat < 0x400000 then some { c with trapbase := v } else none
  | 0x020 => if 1 ≤ v.toNat && v.toNat ≤ 2 ^ 40 then some { c with quantum := v } else none
  | 0x021 => some { c with qcnt := v }
  | 0x023 => some { c with tcmp := v }
  | 0x031 =>
    if v.toNat < 2 ^ 12 then some { c with latched := c.latched &&& ~~~(v.truncate 12 &&& latchedBits) } else none
  | 0x050 => if v.toNat % mib2 = 0 then some { c with spbase := v } else none
  | 0x051 => if v.toNat % mib2 = 0 then some { c with spsize := v } else none
  | _ => none

/-- CSRW. -/
def execCsrw (a : BitVec 5) (n : BitVec 12) (s : State) : Out :=
  onController s fun k =>
    match writeCsr (s.ctrl k) n.toNat (s.reg a) with
    | some c => .next (s.setCtrl k c).advance
    | none => .next (s.raise cIllegal 0)

/-- ERET (R364). -/
def execEret (s : State) : Out :=
  onController s fun k => if (s.ctrl k).tl then .next (s.trapReturn k) else .next (s.raise cIllegal 0)

/-! ## Commands (14 R370, R371) -/

/-- The check of a controller access of n bytes aligned to n (R358). -/
def sramFault (ea : DWord) (n : Nat) : Option Nat :=
  if ea.toNat % n ≠ 0 then some cMisalign else if ea.toNat + n > 0x400000 then some cEmRange else none

/-- Tickets that may be outstanding. -/
def ticketLimit : Nat := 64

/-- A command leaves on class 0 for the die that it names (13 Table 13-4, R375), with colour 0 as every packet of a controller
(R356); one that names no die stays. -/
def State.sendCommand (s : State) (d : Nat) (t : Ticket) : State :=
  match s.dieOf (t.lo.toNat / 2 ^ 26 % 64) with
  | none => s
  | some x => s.manage 0 (.command d t.num.toNat) (s.attach d) (s.attach x)

/-- SCMD. -/
def execScmd (d a : BitVec 5) (s : State) : Out :=
  onController s fun k =>
    let ea := s.reg a
    let c := s.ctrl k
    match sramFault ea 16 with
    | some f => .next (s.raiseMem f ea)
    | none =>
      if ticketLimit ≤ c.tickets.length then .next s.stall
      else
        let t : Ticket := {
          num := c.nextTicket, lo := BitVec.ofNat 64 (Memory.read c.sram ea.toNat 8),
          hi := BitVec.ofNat 64 (Memory.read c.sram (ea.toNat + 8) 8), phase := .issued }
        .next (((s.setCtrl k { c with tickets := c.tickets ++ [t], nextTicket := c.nextTicket + 1 }).sendCommand k t).setReg d
          (c.nextTicket.zeroExtend 64)).advance

/-- SCWAIT. -/
def execScwait (d a : BitVec 5) (s : State) : Out :=
  onController s fun k =>
    let c := s.ctrl k
    let n : BitVec 16 := (s.reg a).truncate 16
    match c.tickets.find? fun t => t.num = n with
    | none => .next (s.setReg d 7).advance
    | some t =>
      match t.phase with
      | .done w =>
        .next ((s.setCtrl k { c with tickets := c.tickets.filter fun x => x.num ≠ n }).setReg d w).advance
      | _ => .next s.stall

/-! ## Mailboxes (14 R366 to R368) -/

/-- A record in SRAM, and writing one there. -/
def readRec (m : Mem) (a : Nat) : Rec :=
  { w0 := BitVec.ofNat 64 (Memory.read m a 8), w1 := BitVec.ofNat 64 (Memory.read m (a + 8) 8),
    w2 := BitVec.ofNat 64 (Memory.read m (a + 16) 8), w3 := BitVec.ofNat 64 (Memory.read m (a + 24) 8) }
def writeRec (m : Mem) (a : Nat) (r : Rec) : Mem :=
  Memory.write (Memory.write (Memory.write (Memory.write m a r.w0.toNat 8) (a + 8) r.w1.toNat 8) (a + 16) r.w2.toNat 8)
    (a + 24) r.w3.toNat 8

/-- Whether a mailbox is inbound (Table 14-4). -/
def inbound (k : Fin 5) : Bool := k = 0 || k = 1 || k = 4

/-- MBXRD. -/
def execMbxrd (d a : BitVec 5) (k : Fin 5) (s : State) : Out :=
  onController s fun n =>
    let ea := s.reg a
    match sramFault ea 32 with
    | some f => .next (s.raiseMem f ea)
    | none =>
      if !inbound k then .next (s.raise cIllegal 0)
      else
        match s.box n k with
        | [] => .next (s.setReg d 0).advance
        | r :: rest =>
          let t := s.setBox n k rest
          let c := t.ctrl n
          .next ((t.setCtrl n { c with sram := writeRec c.sram ea.toNat r }).setReg d 1).advance

/-- The target of a record for another controller: the die position of the logical die in word 0 [5:0]. -/
def State.recTarget (s : State) (r : Rec) : Option Nat := s.dieOf (r.w0.toNat % 64)

/-- MBXWR. A full mailbox is answered before a bad target (L27). -/
def execMbxwr (d a : BitVec 5) (k : Fin 5) (s : State) : Out :=
  onController s fun n =>
    let ea := s.reg a
    match sramFault ea 32 with
    | some f => .next (s.raiseMem f ea)
    | none =>
      if inbound k then .next (s.raise cIllegal 0)
      else
        let r := readRec (s.ctrl n).sram ea.toNat
        if boxSize k ≤ (s.box n k).length then .next (s.setReg d 0).advance
        else if k = 3 && (s.recTarget r).isNone then .next (s.setReg d 2).advance
        else .next ((s.setBox n k (s.box n k ++ [r])).setReg d 1).advance

/-- A record enters mailbox `k` of a die, if it has room. -/
def State.putRec (s : State) (d : Nat) (k : Fin 5) (r : Rec) : Option State :=
  if boxSize k ≤ (s.box d k).length then none else some (s.setBox d k (s.box d k ++ [r]))

/-- The oldest message of the headworks for a die enters its mailbox 1, or waits at the headworks (R366). No rule names a
message that the headworks sends, so none is made (L14). -/
def State.headworksMail (s : State) (die : Nat) : State :=
  match s.hw.mail.find? fun x => x.1 = die with
  | none => s
  | some x =>
    match s.putRec die 1 x.2 with
    | none => s
    | some t => { t with hw := { t.hw with mail := t.hw.mail.erase x } }

/-- A waiting record enters mailbox 1, from mailbox 3 of the controller at position `src` or, as source 64, from the
headworks; or mailbox 4, from outfall `src` of the die (R366). -/
def execMailboxDelivery (die k src : Nat) (s : State) : Out :=
  if k = 1 && src = 64 then .next (s.headworksMail die)
  else if k = 1 then
    match (s.box src 3).find? fun r => s.recTarget r = some die with
    | none => .next s
    | some r =>
      match s.putRec die 1 r with
      | none => .next s
      | some t => .next (t.setBox src 3 ((t.box src 3).erase r))
  else if k = 4 then
    let key := die * 16 + src
    match (s.out key).message with
    | none => .next s
    | some r =>
      if src < 16 then
        match s.putRec die 4 r with
        | none => .next s
        | some t => .next (t.setOut key { t.out key with message := none })
      else .next s
  else .next s

/-! ## Fault records (15 R402, R406) -/

/-- A fault record of a die reaches mailbox 0 when it has room; the controller handles it if no fault token is due. -/
def execFaultRecordDelivery (die : Nat) (s : State) : Out :=
  match s.levee.findIdx? fun x => x.die = die && x.toBox with
  | none => .next s
  | some i =>
    match s.levee[i]? with
    | none => .next s
    | some x =>
      match s.putRec die 0 x.record with
      | none => .next s
      | some t =>
        let t := { t with levee := if x.toChannel then setNth t.levee i { x with toBox := false } else dropNth' t.levee i }
        .next { t with hw := { t.hw with
          faultsOpen := t.hw.faultsOpen ++
            [{ die := die, pos := x.pos, record := x.record, colour := x.colour, told := false, channel := !x.handled, past := x.past }] } }
where
  /-- The list without its i-th element. -/
  dropNth' (l : List LeveeRec) (i : Nat) : List LeveeRec := l.take i ++ l.drop (i + 1)

/-! ## XINV (14 R369) -/

/-- Dies that acknowledge an invalidation: every die with a controller. -/
def State.invalidDies (s : State) : List Nat := (List.range 64).filter fun d => (s.dieMap d).cls ≠ .dead

/-- Bits that index a virtual address (15 R411). -/
def vaMask : Nat := 2 ^ 57

/-- Whether a page of a colour is in an invalidation's scope. -/
def pageInScope (i : Inval) (colour va size : Nat) : Bool :=
  match i.kind with
  | .colour => colour = i.colour
  | .page _ => colour = i.colour && va ≤ i.va % vaMask && i.va % vaMask < va + size
  | .all => true

/-- Whether a micro-TLB entry is. -/
def inScope (i : Inval) (t : Tlb) : Bool := pageInScope i t.colour t.va t.size

/-- The least page (15 Table 15-3). -/
def leastPage : Nat := 65536

/-- Whether a memory actor has a request that waits to be performed with a translation that an XINV has dropped (R416). -/
def holdsStale (m : MemActor) : Bool := m.flight.any fun r => r.stale && r.st = .issued

/-- A memory actor that drops the entries of an invalidation: a walk of such a page ends without result, and requests
translated from a dropped entry are marked (R369, R416). -/
def invalidateMa (i : Inval) (m : MemActor) : MemActor :=
  let hits (r : Req) : Bool := (List.range r.pas.length).any fun g =>
    let va := (r.va + 8 * g) % vaMask
    pageInScope i m.colour (va / leastPage * leastPage) leastPage ||
      m.tlb.any fun t => inScope i t && t.colour = m.colour && t.va ≤ va && va < t.va + t.size
  { m with
    tlb := m.tlb.filter fun t => !inScope i t
    walking := if m.walking.any fun va => pageInScope i m.colour va leastPage then none else m.walking
    flight := m.flight.map fun r => if hits r then { r with stale := true } else r }

/-- Every memory actor of a die drops the entries of an invalidation. -/
def State.invalidate (s : State) (d : Nat) (i : Inval) : State :=
  { s with mas := s.mas.map fun x => if x.1 / 64 = d then (x.1, invalidateMa i x.2) else x }

/-- Whether a die still has to perform requests that an earlier XINV has marked. -/
def State.staleOn (s : State) (d : Nat) : Bool := s.mas.any fun x => x.1 / 64 = d && holdsStale x.2

/-- XINV sends its invalidation to every die, and goes on once every die has acknowledged. -/
def execXinv (kind : XinvKind) (colour : BitVec 4) (s : State) : Out :=
  onController s fun k =>
    let c := s.ctrl k
    match c.inval with
    | some i => if i.waiting = [] then .next (s.setCtrl k { c with inval := none }).advance else .next s.stall
    | none =>
      let va := match kind with
        | .page a => (s.reg a).toNat
        | _ => 0
      let t := s.invalidDies.foldl
        (fun t d => t.manage 0 (.inval k d) (s.attach k) (s.attach d)) s
      .next (t.setCtrl k { c with
        inval := some { kind := kind, colour := colour.toNat, va := va, waiting := s.invalidDies } }).stall

/-- A die that the invalidation of the controller of `die` has reached drops the entries and acknowledges it, once its
requests that an earlier XINV has marked are performed (R416). After the last acknowledgement the XINV completes. -/
def execXinvAcknowledged (die acker : Nat) (s : State) : Out :=
  let c := s.ctrl die
  match c.inval with
  | none => .next s
  | some i =>
    let it (c : Cargo) : Bool := c = .inval die acker
    if i.waiting.contains acker && s.arrived it && !s.staleOn acker then
      let t := (s.consume it).invalidate acker i
      .next (t.setCtrl die { t.ctrl die with inval := some { i with waiting := i.waiting.erase acker } })
    else .next s

end Sys2Proof.Machine
end

