-- ==== Sys2Proof/Machine/Image.lean ====
section
/-! DEFINITION. Reading a graph image (12 R306 to R310): header, section table and records, and the image that a launch
runs from. -/

namespace Sys2Proof.Machine

/-- The little-endian number in n bytes of an image at an offset; bytes beyond its end read as zero. -/
def leAt (b : List Byte) (off n : Nat) : Nat := bytesToNat ((b.drop off).take n)

/-- One entry of the section table (12 R307). -/
structure Section where
  kind : Nat
  opt : Bool
  off : Nat
  len : Nat
deriving DecidableEq, Repr

/-- Header fields (12 Table 12-1). -/
def imgIsa (b : List Byte) : Nat := leAt b 6 2
def imgErrata (b : List Byte) : Nat := leAt b 8 8
def imgGen (b : List Byte) : Nat := leAt b 16 4
def imgNsec (b : List Byte) : Nat := leAt b 20 4
def imgLength (b : List Byte) : Nat := leAt b 24 4
def imgNameOff (b : List Byte) : Nat := leAt b 28 4
def imgLoads (b : List Byte) : Nat := leAt b 32 2
def imgRegW (b : List Byte) : Nat := leAt b 34 1
def imgRegH (b : List Byte) : Nat := leAt b 35 1

/-- The n-th section table entry. -/
def imgSection (b : List Byte) (n : Nat) : Section :=
  let o := 128 + 16 * n
  { kind := leAt b o 2, opt := leAt b (o + 2) 1 % 2 = 1, off := leAt b (o + 8) 4, len := leAt b (o + 12) 4 }

/-- The section table. -/
def imgSections (b : List Byte) : List Section := (List.range (imgNsec b)).map (imgSection b)

/-- The section of a kind; a missing one is empty. -/
def imgFind (b : List Byte) (kind : Nat) : Section :=
  ((imgSections b).find? fun x => x.kind = kind).getD { kind := kind, opt := false, off := 0, len := 0 }

/-- Record size of a section kind, 1 for those without records (12 Table 12-2). -/
def recordSize (kind : Nat) : Nat :=
  match kind with
  | 2 => 16
  | 3 => 128
  | 4 => 32
  | 5 => 32
  | 6 => 128
  | 7 => 8
  | 8 => 16
  | 10 => 8
  | _ => 1

/-- How many records a section holds. -/
def imgCount (b : List Byte) (kind : Nat) : Nat := (imgFind b kind).len / recordSize kind

/-- A field of a record. -/
def imgField (b : List Byte) (kind idx off n : Nat) : Nat := leAt b ((imgFind b kind).off + idx * recordSize kind + off) n

/-- A name in the string section: the bytes up to the zero that ends it. -/
def imgName (b : List Byte) (off : Nat) : List Byte :=
  let x := imgFind b 1
  ((b.drop (x.off + off)).take (x.len - off)).takeWhile (· ≠ 0)

/-- An actor record (12 Table 12-3). -/
structure ActorRec where
  load : Nat
  urgent : Bool
  stateless : Bool
  streams : Bool
  replicas : Nat
  blob : Nat
  bloblen : Nat
  codelen : Nat
  arm0 : Nat
  arm1 : Nat
  steps : Nat
  deflimit : Nat
  w : Nat
  e : Nat
  retport : Nat
  balign : Nat
  inch : List Nat
  outch : List Nat
  inmode : List Nat
deriving DecidableEq, Repr

/-- Channel index of an unused slot. -/
def noChan : Nat := 0xFFFF

/-- The actor record at an index. -/
def imgActor (b : List Byte) (i : Nat) : ActorRec :=
  let f := imgField b 3 i
  { load := f 0 2, urgent := f 2 1 % 2 = 1, stateless := f 2 1 / 2 % 2 = 1, streams := f 2 1 / 4 % 2 = 1,
    replicas := f 4 4, blob := f 12 4, bloblen := f 16 4, codelen := f 20 4, arm0 := f 24 4, arm1 := f 28 4,
    steps := f 32 4, deflimit := f 36 4, w := f 40 4, e := f 44 1, retport := f 45 1, balign := f 46 1,
    inch := (List.range 8).map fun n => f (48 + 2 * n) 2,
    outch := (List.range 16).map fun n => f (64 + 2 * n) 2,
    inmode := (List.range 8).map fun n => f 96 2 / 4 ^ n % 4 }

/-- A channel record (12 Table 12-4). -/
structure ChanRec where
  load : Nat
  kind : Nat
  spillable : Bool
  depth : Nat
  hg : Nat
  outfall : Nat
  die : Nat
deriving DecidableEq, Repr

/-- The channel record at an index. -/
def imgChan (b : List Byte) (i : Nat) : ChanRec :=
  let f := imgField b 4 i
  { load := f 0 2, kind := f 2 1, spillable := f 3 1 % 2 = 1, depth := f 4 4, hg := f 12 1, outfall := f 13 1, die := f 14 2 }

/-- A node record (12 R309). -/
structure NodeRec where
  kind : Nat
  d : Nat
  load : Nat
  ins : List Nat
  outs : List Nat
deriving DecidableEq, Repr

/-- The node record at an index. -/
def imgNode (b : List Byte) (i : Nat) : NodeRec :=
  let f := imgField b 5 i
  { kind := f 0 1, d := f 1 1, load := f 2 2, ins := (List.range 8).map fun n => f (4 + 2 * n) 2,
    outs := (List.range 2).map fun n => f (20 + 2 * n) 2 }

/-- A memory actor record: the operand of MA.SET, the channel indices of Table 5-5 in its order (req, resp, data, cmp,
start, after, done), load and region die (12 R309) (L20). -/
structure MaRec where
  operand : List Byte
  chans : List Nat
  load : Nat
  die : Nat
deriving DecidableEq, Repr

/-- The memory actor record at an index. -/
def imgMa (b : List Byte) (i : Nat) : MaRec :=
  let f := imgField b 6 i
  { operand := (b.drop ((imgFind b 6).off + 128 * i)).take 64, chans := (List.range 7).map fun n => f (64 + 2 * n) 2,
    load := f 78 2, die := f 80 2 }

/-- A constant record (12 Table 12-2). -/
structure ConstRec where
  load : Nat
  word : Nat
  value : Nat
deriving DecidableEq, Repr

/-- The constant record at an index. -/
def imgConst (b : List Byte) (i : Nat) : ConstRec :=
  let f := imgField b 7 i
  { load := f 0 2, word := f 2 1, value := f 4 4 }

/-- A pool record (12 Table 12-2). -/
structure PoolRec where
  base : Nat
  size : Nat
  die : Nat
deriving DecidableEq, Repr

/-- The pool record at an index. -/
def imgPool (b : List Byte) (i : Nat) : PoolRec :=
  let f := imgField b 8 i
  { base := f 0 2, size := f 2 2, die := f 4 2 }

/-- A relocation record (12 Table 12-5). -/
structure RelocRec where
  actor : Nat
  kind : Nat
  off : Nat
deriving DecidableEq, Repr

/-- The relocation record at an index. -/
def imgReloc (b : List Byte) (i : Nat) : RelocRec :=
  let f := imgField b 10 i
  { actor := f 0 2, kind := f 3 1, off := f 4 4 }

/-- All records of a kind. -/
def imgActors (b : List Byte) : List ActorRec := (List.range (imgCount b 3)).map (imgActor b)
def imgChans (b : List Byte) : List ChanRec := (List.range (imgCount b 4)).map (imgChan b)
def imgNodes (b : List Byte) : List NodeRec := (List.range (imgCount b 5)).map (imgNode b)
def imgMas (b : List Byte) : List MaRec := (List.range (imgCount b 6)).map (imgMa b)
def imgConsts (b : List Byte) : List ConstRec := (List.range (imgCount b 7)).map (imgConst b)
def imgPools (b : List Byte) : List PoolRec := (List.range (imgCount b 8)).map (imgPool b)
def imgRelocs (b : List Byte) : List RelocRec := (List.range (imgCount b 10)).map (imgReloc b)

/-- The image that the open launch of a colour runs from (12 R323); none open: the empty image. -/
def State.imageOf (s : State) (colour : Nat) : List Byte :=
  match s.launch colour with
  | none => []
  | some l => ((s.store.find? fun r => r.index = l.image && r.gen = l.gen).map Resident.bytes).getD []

/-- The slot of a die's sluice that holds the pool of a colour with a base: pools of one colour do not overlap (02 R58). -/
def State.poolSlot (s : State) (die colour base : Nat) : Option Nat :=
  ((List.range 16).map (die * 16 + ·)).find? fun k => let p := s.pool k; p.valid && p.colour = colour && p.base = base

/-- The key of the pool slot that holds pool `i` of the graph a colour runs, if the graph declares so many (02 R58,
12 R319): the sluice stands in the region compute die that the pool names (L21). A pool that the graph declares and no slot
holds any more has none: CTXNEW and CTXFREE raise cause 22 for it too (L89). -/
def State.poolKey (s : State) (colour i : Nat) : Option Nat :=
  let b := s.imageOf colour
  match s.launch colour with
  | none => none
  | some l => if i < imgCount b 8 then s.poolSlot (nth l.dies (imgPool b i).die l.die0) colour (imgPool b i).base else none

end Sys2Proof.Machine
end

