-- ==== Sys2Proof/Machine/Fabric.lean ====
section
/-! DEFINITION. Channels and the fabric (02 R28 to R30; 04 R98; 13 R348 to R354; 15 R417, R418, R422): packets, flume
queues, the spillway, routing, links. -/

namespace Sys2Proof.Machine

/-! ## Loads and banks

A load stands in the state by its key: its number, and 64 more where it is in the second of the two configuration banks
(14 R379 to R383). A load that follows itself (13 R336) has another key. -/

/-- The number of a load, and its bank: a load that follows itself differs in it (L54). -/
def loadNumber (key : Nat) : Nat := key % 64
def loadBank (key : Nat) : Nat := key / 64 % 2

/-- The load of a part of a colour that is configured, by its key. -/
def State.partsLoad (s : State) (colour : Nat) : Option Nat :=
  ((s.elems.find? fun x => x.2.configured && x.2.colour = colour).map (·.2.load)) <|>
    ((s.mas.find? fun x => x.1 < 4096 && x.2.st ≠ .unconfigured && x.2.st ≠ .configured && x.2.colour = colour).map (·.2.load)) <|>
    ((s.nodes.find? fun x => x.1 < 102400 && x.2.configured && x.2.colour = colour).map (·.2.load))

/-- The load of a colour that is active, by its key: its launch's, or without a launch that of its configured parts. -/
def State.activeLoad (s : State) (colour : Nat) : Nat :=
  ((s.launch colour).map Launch.load).getD ((s.partsLoad colour).getD 0)

/-- The bank that is active for a colour: that of its load, or the other once a part has switched out of it. -/
def State.activeBank (s : State) (colour : Nat) : Nat :=
  let b := loadBank (s.activeLoad colour)
  if s.elems.any (fun x => x.2.configured && x.2.colour = colour && loadBank x.2.load ≠ b) ||
      s.mas.any (fun x => x.1 < 4096 && x.2.st ≠ .unconfigured && x.2.colour = colour && loadBank x.2.load ≠ b) ||
      s.nodes.any (fun x => x.1 < 102400 && x.2.configured && x.2.colour = colour && loadBank x.2.load ≠ b)
  then 1 - b else b

/-- The keys of a load in the active bank, and in the staged one. -/
def State.activeKey (s : State) (colour load : Nat) : Nat := loadNumber load + 64 * s.activeBank colour
def State.stageKey (s : State) (colour load : Nat) : Nat := loadNumber load + 64 * (1 - s.activeBank colour)

/-! ## Links (01 R8, 16 R452) -/

/-- The state of link l of die d: 0 N, 1 E, 2 S, 3 W, 4 optical. Unlisted, a panel edge is absent but for the W culverts
of P(0,3) and P(0,4), and every other link is in service. -/
def State.link (s : State) (d l : Nat) : LinkState :=
  (tabGet s.links (d * 5 + l)).getD
    (if (l = 0 && d / 8 = 0) || (l = 1 && d % 8 = 7) || (l = 2 && d / 8 = 7) ||
        (l = 3 && d % 8 = 0 && d ≠ 24 && d ≠ 32) then .absent else .inService)

/-- The die at the other end of a culvert, and the culvert there. -/
def linkPeer (d l : Nat) : Option (Nat × Nat) :=
  match l with
  | 0 => if d / 8 = 0 then none else some (d - 8, 2)
  | 1 => if d % 8 = 7 then none else some (d + 1, 3)
  | 2 => if d / 8 = 7 then none else some (d + 8, 0)
  | 3 => if d % 8 = 0 then none else some (d - 1, 1)
  | _ => none

/-- Setting the state of a link at both of its ends. -/
def State.setLink (s : State) (d l : Nat) (x : LinkState) : State :=
  let t := { s with links := tabSet s.links (d * 5 + l) x }
  match linkPeer d l with
  | some (d', l') => { t with links := tabSet t.links (d' * 5 + l') x }
  | none => t

/-- Whether the routing tables use a culvert: they were built at boot and do not change (15 R418). -/
def routed (x : LinkState) : Bool := x = .inService || x = .degraded || x = .failed

/-- Whether packets cross a culvert now. -/
def crosses (x : LinkState) : Bool := x = .inService || x = .degraded

/-! ## Routers (13 R349, R352) -/

/-- The router next to another in direction 0 N, 1 E, 2 S, 3 W, and the culvert between them, if any. -/
def neighbour (r : Loc) (dir : Nat) : Option (Loc × Option Nat) :=
  let x := r.plot % 20
  let y := r.plot / 20
  let far (p : Nat) := (linkPeer r.die dir).map fun q => (({ die := q.1, plot := p } : Loc), some dir)
  let near (p : Nat) : Option (Loc × Option Nat) := some ({ die := r.die, plot := p }, none)
  match dir with
  | 0 => if y = 0 then far (380 + x) else near (r.plot - 20)
  | 1 => if x = 19 then far (20 * y) else near (r.plot + 1)
  | 2 => if y = 19 then far x else near (r.plot + 20)
  | _ => if x = 0 then far (20 * y + 19) else near (r.plot - 1)

/-- The live routers next to a router in the routing tables, in the order N, W, E, S, with the culvert to each. -/
def State.nexts (s : State) (r : Loc) : List (Loc × Option Nat) :=
  [0, 3, 1, 2].filterMap fun dir =>
    match neighbour r dir with
    | some (q, none) => if s.liveRouter q then some (q, none) else none
    | some (q, some l) => if s.liveRouter q && routed (s.link r.die l) then some (q, some l) else none
    | none => none

/-- One layer of the search outward from a router, over the routers that satisfy `ok`. -/
def State.layer (s : State) (ok : Loc → Bool) (seen frontier : List Loc) : List Loc :=
  (frontier.flatMap fun r => ((s.nexts r).map Prod.fst).filter ok).foldl
    (fun acc r => if seen.contains r || acc.contains r then acc else acc ++ [r]) []

/-- The length of the shortest live route over such routers to a router from those of a layer. -/
def State.routeFrom (s : State) (ok : Loc → Bool) (target : Loc) : Nat → List Loc → List Loc → Option Nat
  | 0, _, _ => none
  | fuel + 1, seen, frontier =>
    if frontier.contains target then some 0
    else if frontier = [] then none
    else (s.routeFrom ok target fuel (seen ++ frontier) (s.layer ok (seen ++ frontier) frontier)).map (· + 1)

/-- Routers of the panel. -/
def routerCount : Nat := 25600

/-- The length of the shortest live route between two routers. -/
def State.dist (s : State) (a b : Loc) : Option Nat := s.routeFrom (fun _ => true) b routerCount [] [a]

/-- The length of the shortest live route between two routers of a die that does not leave the die. -/
def State.distWithin (s : State) (a b : Loc) : Option Nat := s.routeFrom (fun r => r.die = a.die) b routerCount [] [a]

/-- The root of the escape tree: the north-west live plot router of L0 (R352). -/
def State.root (s : State) : Loc := s.attach ((s.dieOf 0).getD 0)

/-- The parent of a router in the escape tree: its first neighbour that is nearer to the root (L16). -/
def State.parent (s : State) (r : Loc) : Option Loc :=
  match s.dist s.root r with
  | none => none
  | some 0 => none
  | some n => ((s.nexts r).map Prod.fst).find? fun q => s.dist s.root q = some (n - 1)

/-- The path from a router up the tree, itself first. -/
def State.upPath (s : State) : Nat → Loc → List Loc
  | 0, r => [r]
  | fuel + 1, r =>
    match s.parent r with
    | none => [r]
    | some q => r :: s.upPath fuel q

/-- The next router on the escape route: up the tree, then down it. -/
def State.escapeHop (s : State) (here target : Loc) : Option Loc :=
  let path := s.upPath routerCount target
  if path.contains here then (path.takeWhile (· ≠ here)).getLast? else s.parent here

/-! ## Endpoints and packets -/

/-- Where a source stands. -/
def State.srcLoc (s : State) (x : Source) : Loc :=
  match x.kind with
  | .element => { die := x.die, plot := x.pos / 16 }
  | .node => { die := x.die, plot := x.pos / 4 }
  | .memActor | .headgate => s.attach x.die

/-- Where a destination stands. -/
def State.destLoc (s : State) (d : Dest) : Loc :=
  match d.kind with
  | .element => { die := d.die, plot := d.pos / 16 }
  | .node => { die := d.die, plot := d.pos / 4 }
  | .memActor | .outfall => s.attach d.die

/-- An element with the block of a load as its active one: the staged block for the load that is being staged, until the
element has switched into it (13 R339). -/
def State.blockFor (s : State) (k colour : Nat) (load : Option Nat) : Element :=
  let e := s.elem k
  let g := s.staging (k / 6400) colour
  if (g.isOpen || g.closed) && load = some g.load && !(e.configured && e.load = g.load) then { e with active := e.staged } else e

/-- Whether an urgent actor of a load consumes at a destination. -/
def State.urgentDest (s : State) (colour : Nat) (load : Option Nat) (d : Dest) : Bool :=
  let e := s.blockFor (elemKey d.die d.pos) colour load
  d.kind = .element && slotUrgent e (portSlot e d.din)

/-- The traffic class of a token of a channel to a destination (13 R348). -/
def State.classOf (s : State) (b : Bind) (d : Dest) : Nat :=
  if s.urgentDest b.colour b.load d then 0 else if b.kind = .ordered then 3 else 4

/-- The consumer replicas that a token goes to (02 R28, R30; 09 R269). -/
def pickDests (b : Bind) (t : Token) : List Dest :=
  let c := (t.tag.extractLsb' 18 14).toNat
  let i := (t.tag.extractLsb' 0 18).toNat
  match t.kind with
  | .eos | .switch | .weir => b.dests
  | .retire => (b.dests.drop (c % b.dests.length)).take 1
  | .data | .stop | .repair =>
    if b.kind = .ordered then b.dests.take 1 else (b.dests.drop ((i + c) % b.dests.length)).take 1

/-- The packet of a token of a channel to one destination. -/
def State.packet (s : State) (b : Bind) (t : Token) (d : Dest) : Packet :=
  { cls := s.classOf b d, colour := b.colour, load := b.load, chan := b.chan, seq := b.seq, dest := d, cargo := .token t,
    here := s.srcLoc b.source, target := s.destLoc d, via := none, escape := false, refused := 0 }

/-- The token that a packet carries. -/
def Packet.token (p : Packet) : Option Token :=
  match p.cargo with
  | .token t => some t
  | _ => none

/-- Whether a packet brings a token to a consumer for a load of a colour. -/
def Packet.brings (p : Packet) (d : Dest) (colour : Nat) (load : Option Nat) : Bool :=
  p.token.isSome && p.dest = d && p.colour = colour && p.load = load

/-- A binding after a token has left on it: sequence number (R351) and the marks of EOS (09 R266), switch and weir. -/
def sentOn (b : Bind) (t : Token) : Bind :=
  { b with
    seq := if b.kind = .ordered then b.seq + 1 else b.seq
    closed := b.closed || t.kind = .eos
    switched := b.switched || t.kind = .switch
    weired := b.weired || t.kind = .weir }

/-- Whether a token is a stop for a channel that is not ordered: stops travel only on ordered channels (02 R31). -/
def strayStop (b : Bind) (t : Token) : Bool := t.kind = .stop && b.kind ≠ .ordered

/-- Whether a binding numbers its tokens with those of another: confluences that feed one ordered channel share its sequence
(02 R29, 13 R351). -/
def numberedWith (b x : Bind) : Bool :=
  b.kind = .ordered && x.kind = .ordered && x.colour = b.colour && x.load = b.load && x.chan = b.chan && x.dests = b.dests

/-- The bindings once a token has left a source on binding b. -/
def State.markSent (s : State) (src : Source) (load : Nat) (b : Bind) (t : Token) : State :=
  let u := s.mapBind src t.colour load (sentOn · t)
  { u with binds := u.binds.map fun x => if numberedWith b x then { x with seq := b.seq + 1 } else x }

/-- A token leaves a source for the consumers of its colour's channel, if there is one. A stop for a channel that is not
ordered goes no further (L69). -/
def State.emit (s : State) (src : Source) (load : Nat) (t : Token) : State :=
  match s.srcBind src t.colour load with
  | none => s
  | some b =>
    if strayStop b t then s else
    let ps := (pickDests b t).map (s.packet b t)
    { s.markSent src load b t with packets := s.packets ++ ps }

/-! ## Flume queues and credits (13 R350, 12 R320) -/

/-- The channel endpoint of a consumer for a load. -/
def State.chanAt (s : State) (d : Dest) (colour : Nat) (load : Option Nat) : Option Chan :=
  s.chans.find? fun c => c.dest = d && c.colour = colour && c.load = load

/-- Changing it. -/
def State.mapChan (s : State) (d : Dest) (colour : Nat) (load : Option Nat) (f : Chan → Chan) : State :=
  { s with chans := s.chans.map fun c => if c.dest = d && c.colour = colour && c.load = load then f c else c }

/-- Tokens of a channel under way to a consumer. -/
def State.underWay (s : State) (d : Dest) (colour : Nat) (load : Option Nat) : Nat :=
  s.packets.countP fun p => p.brings d colour load

/-- The consumer endpoints of a channel on a die. -/
def State.chanOn (s : State) (die colour chan : Nat) (load : Option Nat) : List Chan :=
  s.chans.filter fun c => c.dest.die = die && c.colour = colour && c.chan = chan && c.load = load

/-- Tokens in the flume queue of a channel on a die, of all its consumer replicas there. -/
def State.flumeQueued (s : State) (die colour chan : Nat) (load : Option Nat) : Nat :=
  ((s.chanOn die colour chan load).map fun c => c.queue.length + c.rear.length).sum

/-- Tokens that a channel holds on a die short of the spillway: under way, early, and in the flume queue (L24). The depth is the
channel's, so its consumer replicas there count together (12 R318, R320; 13 R350). -/
def State.flumeHeld (s : State) (die colour chan : Nat) (load : Option Nat) : Nat :=
  (s.packets.countP fun p =>
      p.token.isSome && p.dest.die = die && p.colour = colour && p.chan = chan && p.load = load) +
    s.flumeQueued die colour chan load + ((s.chanOn die colour chan load).map fun c => c.early.length).sum

/-- Tokens in the spillway. -/
def State.spillHeld (s : State) (die colour chan : Nat) (load : Option Nat) : Nat :=
  ((s.chanOn die colour chan load).map fun c => c.spilled.length).sum

/-- Depth and spill attributes of a channel at a die; the depth is 1 until CHAN.DEPTH sets it (L25). -/
def State.depthOf (s : State) (die colour chan : Nat) (load : Option Nat) : Depth :=
  (s.depths.find? fun x => x.die = die && x.colour = colour && x.chan = chan && x.load = load).getD
    { die := die, colour := colour, chan := chan, load := load, depth := 1, spillable := false, offset := 0 }

/-- Extra places of a flume queue (12 R318). -/
def extraPlaces : Nat := 256

/-- Whether the channel accepts n tokens of one commit for its consumers on a die (R320). -/
def State.accepts (s : State) (b : Bind) (die n : Nat) : Bool :=
  let held := s.flumeHeld die b.colour b.chan b.load
  held + n ≤ (s.depthOf die b.colour b.chan b.load).depth || held + s.spillHeld die b.colour b.chan b.load = 0

/-- Whether the channel of a source has a credit for one token on each die that it goes to (R350); the copies of a marker for
several replicas of a die take one credit there (L24). -/
def State.credit (s : State) (b : Bind) (t : Token) : Bool :=
  (pickDests b t).all fun d =>
    s.flumeHeld d.die b.colour b.chan b.load < (s.depthOf d.die b.colour b.chan b.load).depth + extraPlaces

/-- A token from a source, if its channel has credit for it; one that goes no further takes none. -/
def State.tryEmit (s : State) (src : Source) (load : Nat) (t : Token) : Option State :=
  match s.srcBind src t.colour load with
  | none => none
  | some b => if strayStop b t || s.credit b t then some (s.emit src load t) else none

/-- A marker token of a colour. -/
def markerToken (kind : TokKind) (colour : Nat) : Token :=
  { payload := 0, tag := 0, kind := kind, level := 0, arm := false, colour := colour, fin := false }

/-- A token from each of several sources, with its load, if all have the credit. -/
def State.tryEmits (s : State) (t : Token) (xs : List (Source × Nat)) : Option State :=
  xs.foldl (fun acc x => acc.bind fun u => u.tryEmit x.1 x.2 t) (some s)

/-! ## Arrival and release (02 R36, 13 R351) -/

/-- A token at the end of a flume queue, behind any spilled ones (04 R98, order is kept). A weir counts as soon as it is
there (15 R421), and a switch token stands for the weir that its producer no longer sends. -/
def Chan.append (c : Chan) (t : Token) : Chan :=
  let c := { c with
    weirs := c.weirs + if t.kind = TokKind.weir then 1 else 0
    passed := c.passed + if t.kind = TokKind.switch then 1 else 0 }
  if c.spilled = [] then { c with queue := c.queue ++ [t] } else { c with rear := c.rear ++ [t] }

/-- Early tokens whose turn has come. -/
def Chan.drainEarly (c : Chan) : Nat → Chan
  | 0 => c
  | fuel + 1 =>
    match c.early.find? fun x => x.1 = c.next with
    | none => c
    | some x => Chan.drainEarly { (c.append x.2) with early := c.early.filter (· ≠ x), next := c.next + 1 } fuel

/-- A token delivered to a flume queue: in sequence order on an ordered channel (R351). -/
def Chan.deliver (c : Chan) (seq : BitVec 20) (t : Token) : Chan :=
  if c.kind = .ordered then
    if seq = c.next then Chan.drainEarly { (c.append t) with next := c.next + 1 } c.early.length
    else { c with early := c.early ++ [(seq, t)] }
  else c.append t

/-- The token that a flume queue offers: none once an uncorrectable spill read has stopped the channel (15 R417). -/
def Chan.head (c : Chan) : Option Token := if c.stuck then none else c.queue.head?

/-- The flume queue without its head. -/
def Chan.pop (c : Chan) : Chan := { c with queue := c.queue.tail }

/-- Whether nothing is left in a flume queue or its spillway area. -/
def Chan.empty (c : Chan) : Bool := c.queue = [] && c.spilled = [] && c.rear = []

/-! ## The spillway (04 R98, 15 R417, R422, R424) -/

/-- Token kinds (02 Table 2-3). -/
def kindCode : TokKind → Nat
  | .data => 0
  | .stop => 1
  | .eos => 2
  | .retire => 3
  | .switch => 4
  | .weir => 5
  | .repair => 6
def kindOf (n : Nat) : TokKind :=
  match n with
  | 1 => .stop
  | 2 => .eos
  | 3 => .retire
  | 4 => .switch
  | 5 => .weir
  | 6 => .repair
  | _ => .data

/-- A control word (02 Table 2-2). -/
def controlWord (t : Token) : Nat :=
  kindCode t.kind * 2 ^ 12 + t.level % 8 * 2 ^ 9 + t.arm.toNat * 2 ^ 8 + t.colour % 16 * 2 ^ 4 + t.fin.toNat * 2 ^ 3

/-- A token in 16 bytes, and back (L45). A reserved kind is read as data, and stop level 7 is kept: no chapter gives a spillway or
save area with them a fate (L79). -/
def tokenNat (t : Token) : Nat := t.payload.toNat + t.tag.toNat * 2 ^ 64 + controlWord t * 2 ^ 96
def natToken (n : Nat) : Token :=
  let w := n / 2 ^ 96 % 65536
  { payload := BitVec.ofNat 64 n, tag := BitVec.ofNat 32 (n / 2 ^ 64), kind := kindOf (w / 2 ^ 12),
    level := w / 2 ^ 9 % 8, arm := bitOf w 8, colour := w / 2 ^ 4 % 16, fin := bitOf w 3 }

/-- Bytes of a token in the spillway. -/
def tokenSize : Nat := 16

/-- The physical address of a byte of a die's spillway: space 1 of its own stack (04 Table 4-1). The spaces are kept apart: an
offset of a stack in space 1 is no byte of spaces 0 and 3 (L92). -/
def State.spillAddr (s : State) (die off : Nat) : Nat :=
  2 ^ 48 + s.ldie die * 2 ^ 40 + (s.ctrl die).spbase.toNat + off

/-- Bytes of the spillway area of a channel on a die: from its offset to the next area, or to the end (14 R388). -/
def State.areaBytes (s : State) (x : Depth) : Nat :=
  let next := (s.depths.filter fun y => y.die = x.die && x.offset < y.offset).map Depth.offset
  (next.foldl Nat.min ((s.ctrl x.die).spsize.toNat / 65536)) * 65536 - x.offset * 65536

/-- The addresses of spillways that hold a token. -/
def State.spillUsed (s : State) : List Nat := s.chans.flatMap Chan.spilled

/-- The least free place of an area with `n` places, as its byte offset in the spillway: one of the first places, as many as hold
tokens and one more. -/
def State.spillPlace (s : State) (x : Depth) (n : Nat) : Option Nat :=
  let used := s.spillUsed
  ((List.range (Nat.min n (used.length + 1))).map fun i => x.offset * 65536 + tokenSize * i).find? fun off =>
    !used.contains (s.spillAddr x.die off)

/-- A token written to a place of the spillway; its granules are good again (15 R414). -/
def State.spillWrite (s : State) (pa : Nat) (t : Token) : State :=
  { s with phys := Memory.write s.phys pa (tokenNat t) tokenSize, bad := s.bad.filter fun g => g ≠ pa / 8 && g ≠ pa / 8 + 1 }

/-- The oldest spilled token of a channel moved to the end of its queue; the rear follows once nothing is spilled. -/
def Chan.refilled (c : Chan) (t : Token) (rest : List Nat) : Chan :=
  { c with
    queue := c.queue ++ t :: (if rest = [] then c.rear else [])
    spilled := rest
    rear := if rest = [] then [] else c.rear }

/-- Changing every consumer endpoint of a channel. -/
def State.mapChannel (s : State) (colour chan : Nat) (load : Option Nat) (f : Chan → Chan) : State :=
  { s with chans := s.chans.map fun c => if c.colour = colour && c.chan = chan && c.load = load then f c else c }

/-- The spill read of a consumer's channel: the oldest spilled token comes back; an uncorrectable error raises
HBM_UNCORRECTABLE with okind 3, and the channel delivers nothing more (15 R417). -/
def State.spillRead (s : State) (d : Dest) (colour : Nat) (load : Option Nat) : State :=
  match s.chanAt d colour load with
  | none => s
  | some c =>
    match c.spilled with
    | [] => s
    | pa :: rest =>
      if s.bad.contains (pa / 8) || s.bad.contains (pa / 8 + 1) then
        ((s.mapChannel colour c.chan load fun c => { c with stuck := true }).countUe d.die).report
          d.die colour (load.getD 0) .nothing cHbm .channel c.chan 0 0 (noDetail cHbm)
      else s.mapChan d colour load fun c => c.refilled (natToken (Memory.read s.phys pa tokenSize)) rest

/-- Whether a spill packet of a channel is under way, write or read. -/
def State.spilling (s : State) (d : Dest) (colour : Nat) (load : Option Nat) (p : Cargo → Bool) : Bool :=
  s.packets.any fun q => p q.cargo && q.dest = d && q.colour = colour && q.load = load

/-- Whether a cargo is a spill write. -/
def isSpill : Cargo → Bool
  | .spill _ => true
  | _ => false

/-- A spill packet of class 2 from a flume queue to its die's memory controller (13 Table 13-4). -/
def State.spillPacket (s : State) (c : Chan) (g : Cargo) : State :=
  { s with packets := s.packets ++
      [{ cls := 2, colour := c.colour, load := c.load, chan := c.chan, seq := 0, dest := c.dest, cargo := g,
         here := s.destLoc c.dest, target := s.attach c.dest.die, via := none, escape := false, refused := 0 }] }

/-- A flume queue with room, or a consumer there without a token, asks for its oldest spilled token, one at a time. -/
def State.askSpilled (s : State) (d : Dest) (colour : Nat) (load : Option Nat) : State :=
  match s.chanAt d colour load with
  | none => s
  | some c =>
    if c.spilled = [] || c.stuck ||
        (c.queue ≠ [] && (s.depthOf d.die colour c.chan load).depth ≤ s.flumeQueued d.die colour c.chan load) ||
        s.spilling d colour load (· = .unspill) then s
    else s.spillPacket c .unspill

/-- The head of a flume queue is taken, and what the taking changes; a spilled token is asked for. -/
def State.popChan (s : State) (d : Dest) (colour : Nat) (load : Option Nat) (f : Chan → Chan) : State :=
  (s.mapChan d colour load fun c => f c.pop).askSpilled d colour load

/-- Whether a flume queue has a token to spill: a spillable one that is full, or any one that the exempt commit of a closed
element has filled beyond its places (15 R422); never after a spill write has faulted. -/
def State.spillDue (s : State) (c : Chan) : Bool :=
  let x := s.depthOf c.dest.die c.colour c.chan c.load
  let n := s.flumeQueued c.dest.die c.colour c.chan c.load
  !c.noSpill && (c.spilled = [] || c.rear ≠ []) && ((x.spillable && x.depth ≤ n) || x.depth + extraPlaces < n)

/-- A flume queue that is full sends a spill write for its newest token that may spill, which it holds until the write is
performed (13 R353); a full area back-pressures and raises event 5 (04 R98). -/
def execSpillWrite (dest : Dest) (colour : Nat) (failed : Bool) (s : State) : Out :=
  match s.chans.find? fun c => c.dest = dest && c.colour = colour && c.queue ≠ [] with
  | none => .next s
  | some c =>
    let x := s.depthOf dest.die colour c.chan c.load
    if !s.spillDue c || s.spilling dest colour c.load isSpill then .next s
    else if (s.spillPlace x (s.areaBytes x / tokenSize)).isNone then .next (s.latch dest.die 5)
    else .next (s.spillPacket c (.spill failed))

/-- The channel once its newest token, or the first of its rear behind spilled ones, stands at a place of the spillway. -/
def Chan.spillTo (c : Chan) (pa : Nat) : Chan :=
  if c.spilled = [] then { c with queue := c.queue.dropLast, spilled := [pa] }
  else { c with spilled := c.spilled ++ [pa], rear := c.rear.tail }

/-- The token that spills next. -/
def Chan.spillToken (c : Chan) : Option Token := if c.spilled = [] then c.queue.getLast? else c.rear.head?

/-- A spill write is performed; a queue that it leaves empty asks for its oldest token again. One that faults records SPILL
and ends the channel's spilling (15 R417). -/
def State.spillPerform (s : State) (d : Dest) (colour : Nat) (load : Option Nat) (failed : Bool) : State :=
  match s.chanAt d colour load with
  | none => s
  | some c =>
    let x := s.depthOf d.die colour c.chan load
    match s.spillPlace x (s.areaBytes x / tokenSize), c.spillToken with
    | some off, some t =>
      if failed then
        (s.mapChannel colour c.chan load fun c => { c with noSpill := true }).report d.die colour (load.getD 0) .nothing cSpill
          .channel c.chan 0 0 (BitVec.ofNat 64 off)
      else
        let u := (s.spillWrite (s.spillAddr d.die off) t).mapChan d colour load (·.spillTo (s.spillAddr d.die off))
        if c.queue.length ≤ 1 then u.askSpilled d colour load else u
    | _, _ => s

/-! ## Delivery -/

/-- Whether a packet may be delivered: it stands at its target, and a marker has every earlier packet of its channel to
that consumer ahead of it delivered (R338, R375: it follows everything sent before it). -/
def State.deliverable (s : State) (i : Nat) (p : Packet) : Bool :=
  p.atTarget &&
    !(p.token.any (fun t => t.kind = .eos || t.kind = .switch || t.kind = .weir) &&
      (s.packets.take i).any fun q => q.brings p.dest p.colour p.load && q.chan = p.chan)

/-- Removing the i-th element of a list. -/
def dropNth {α : Type} (l : List α) (i : Nat) : List α := l.take i ++ l.drop (i + 1)

/-- A packet is delivered: a token into the flume queue of its consumer, where an endpoint that LOAD.ABORT has discarded
discards it too (14 R382); a spill write or read at the memory controller; a response or acknowledgement at its memory
actor. What any other packet brings waits for the event that consumes it. -/
def State.arrive (s : State) (i : Nat) : State :=
  match s.packets[i]? with
  | none => s
  | some p =>
    if s.deliverable i p then
      let t : State := { s with packets := dropNth s.packets i }
      match p.cargo with
      | .token tok => t.mapChan p.dest p.colour p.load (·.deliver p.seq tok)
      | .spill failed => t.spillPerform p.dest p.colour p.load failed
      | .unspill => (t.spillRead p.dest p.colour p.load).askSpilled p.dest p.colour p.load
      | .response _ _ _ _ _ => t
      | _ => s
    else s

/-! ## Forwarding (13 R349, R352, R355) -/

/-- Data flits of a cargo: a token in one; a command in one; the bytes of a request or response. -/
def Cargo.flits : Cargo → Nat
  | .token _ | .command _ _ | .spill _ => 1
  | .request _ _ _ _ n | .response _ _ _ _ n => n
  | .moved _ _ => 4
  | .unspill | .ask _ _ _ | .notice _ _ _ | .drained _ _ | .inval _ _ => 0

/-- Flits of a packet: a header and its data. -/
def Packet.flits (p : Packet) : Nat := 1 + p.cargo.flits

/-- Whether the next router has room for a whole packet of its class and sub-channel. A packet at its target has left the
router's buffers: it has space there (13 R350, R353). -/
def State.routerHasRoom (s : State) (r : Loc) (p : Packet) : Bool :=
  (((s.packets.filter fun q => q.here = r && !q.atTarget && q.cls = p.cls && q.escape = p.escape).map Packet.flits).sum +
    p.flits) ≤ Config.routerRoom

/-- The routers of a die at which a culvert leaves, as the routing tables have them. -/
def State.edgeOf (s : State) (d l : Nat) : List Loc :=
  ((List.range 400).map fun p => ({ die := d, plot := p } : Loc)).filter fun r =>
    s.liveRouter r && (s.nexts r).any fun x => x.2 = some l

/-- The length of the shortest live route to a target that stays in the die until it crosses culvert l there, and crosses that
first (04 R100). Where the routing tables have no such route the packet stays held. -/
def State.viaDist (s : State) (l : Nat) (target here : Loc) : Option Nat :=
  ((s.edgeOf here.die l).filterMap fun r =>
    match (s.nexts r).find? fun x => x.2 = some l with
    | none => none
    | some x =>
      match s.distWithin here r, s.dist x.1 target with
      | some n, some m => some (n + 1 + m)
      | _, _ => none).min?

/-- The first culvert on the escape route between two routers. -/
def State.escapeCulvert (s : State) (target : Loc) : Nat → Loc → Option Nat
  | 0, _ => none
  | fuel + 1, here =>
    match s.escapeHop here target with
    | none => none
    | some hop =>
      match ((s.nexts here).find? fun x => x.1 = hop).bind Prod.snd with
      | some l => some l
      | none => s.escapeCulvert target fuel hop

/-- Whether one step nearer to a goal, by two distances. -/
def nearerBy (n m : Option Nat) : Bool :=
  match n, m with
  | some n, some m => m + 1 = n
  | _, _ => false

/-- Whether a hop across `culvert` is a live step that the packet may take: along the escape route in that sub-channel, otherwise
along any minimal live route (R352), for a packet with a culvert to cross first among those that cross it first (04 R100). -/
def State.hopAllowed (s : State) (p : Packet) (hop : Loc) (culvert : Option Nat) : Bool :=
  if p.escape then s.escapeHop p.here p.target = some hop
  else
    match p.via with
    | none => nearerBy (s.dist p.here p.target) (s.dist hop p.target)
    | some l =>
      match culvert with
      | none => nearerBy (s.viaDist l p.target p.here) (s.viaDist l p.target hop)
      | some c => c = l && nearerBy (s.viaDist l p.target p.here) (s.dist hop p.target)

/-- Whether a class 0 packet at the router of another packet may take the same hop: it has strict priority (R355). -/
def State.yields (s : State) (p : Packet) (hop : Loc) (culvert : Option Nat) : Bool :=
  p.cls ≠ 0 && s.packets.any fun q =>
    q.cls = 0 && q.here = p.here && s.hopAllowed q hop culvert && s.routerHasRoom hop q

/-- The record that a failed link holds packets of a colour: LINK once for the colour (15 R418). -/
def State.linkHolds (s : State) (d l colour : Nat) : State :=
  let told (x : State) (d l : Nat) : State := { x with linkFaults := (d * 5 + l, colour) :: x.linkFaults }
  if s.link d l = .failed && !s.linkFaults.contains (d * 5 + l, colour) then
    let t := told (s.report d colour (s.activeLoad colour) .nothing cLink .link l 0 0 (noDetail cLink)) d l
    match linkPeer d l with
    | some (d', l') => told t d' l'
    | none => t
  else s

/-- The packets with the i-th moved on. A memory request that has reached its home stands behind those that have reached theirs
before it: atomics are performed in arrival order (04 R125). -/
def setOrLast (l : List Packet) (i : Nat) (p : Packet) : List Packet :=
  match p.cargo with
  | .request _ _ _ _ _ => if p.atTarget then dropNth l i ++ [p] else setNth l i p
  | _ => setNth l i p

/-- A packet request to a router: it moves when the whole packet has room and no class 0 packet goes first, and is refused
otherwise. One that a failed culvert holds stays held. -/
def execPacketForward (i : Nat) (hop : Loc) (s : State) : Out :=
  match s.packets[i]? with
  | none => .next s
  | some p =>
    match (s.nexts p.here).find? fun x => x.1 = hop with
    | none => .next s
    | some (_, culvert) =>
      let up := match culvert with
        | none => true
        | some l => crosses (s.link p.here.die l)
      if !s.hopAllowed p hop culvert then .next s
      else if !up then .next (s.linkHolds p.here.die (culvert.getD 0) p.colour)
      else if s.routerHasRoom hop p && !s.yields p hop culvert then
        let q := { p with here := hop, refused := 0, via := if culvert.isSome && culvert = p.via then none else p.via }
        .next { s with packets := setOrLast s.packets i q }
      else .next { s with packets := setNth s.packets i { p with refused := p.refused + 1 } }

/-- After 64 refused router cycles a packet enters the escape sub-channel and stays in it; one with a culvert to cross first
does so where the escape route crosses that culvert first, or once it has crossed it (L16). -/
def execEscapeSubchannel (i : Nat) (s : State) : Out :=
  match s.packets[i]? with
  | none => .next s
  | some p =>
    if 64 ≤ p.refused && !p.escape && p.via.all fun l => s.escapeCulvert p.target routerCount p.here = some l then
      .next { s with packets := setNth s.packets i { p with escape := true } }
    else .next s

/-! ## Links that fail (15 R418, 13 R355, 18 R469) -/

/-- Whether a packet is held for link l of die d: at a router of it, with a route of its sub-channel across it; or at the
die's optical port, bound for the partner. -/
def State.heldBy (s : State) (d l : Nat) (p : Packet) : Bool :=
  p.here.die = d &&
    if l = 4 then p.via = some 4
    else (s.nexts p.here).any fun x => x.2 = some l && s.hopAllowed p x.1 x.2

/-- Colours with a packet held for a link at one of its ends. -/
def State.heldFor (s : State) (d l : Nat) : List Nat :=
  (List.range 16).filter fun c => s.packets.any fun p => p.colour = c && s.heldBy d l p

/-- A culvert or optical link fails wholly: LINK once for each colour with packets held for it, at either end, and event
11. -/
def execLink (die link : Nat) (s : State) : Out :=
  if link < 5 && crosses (s.link die link) then
    let t := (s.setLink die link .failed).latch die 11
    let t := (s.heldFor die link).foldl (fun u c => u.linkHolds die link c) t
    .next (match linkPeer die link with
      | some (d, l) => (s.heldFor d l).foldl (fun u c => u.linkHolds d l c) (t.latch d 11)
      | none => t)
  else .next s

/-- A link that loses lanes is degraded and raises event 11; it does not fault. -/
def State.degrade (s : State) (die link : Nat) : State :=
  let t := (s.setLink die link .degraded).latch die 11
  match linkPeer die link with
  | some (d, _) => t.latch d 11
  | none => t

def execLaneLoss (die link : Nat) (s : State) : Out :=
  if link < 5 && crosses (s.link die link) then .next (s.degrade die link) else .next s

/-- A lane retrains by itself: telemetry counts it, and the link may become degraded with event 11 (18 R469). -/
def execLaneRetrain (die link : Nat) (degrades : Bool) (s : State) : Out :=
  if link < 5 && crosses (s.link die link) then
    let x := s.tel die
    let t := s.setTel die { x with retrains := tabSet x.retrains link ((tabGet x.retrains link).getD 0 + 1) }
    .next (if degrades then t.degrade die link else t)
  else .next s

end Sys2Proof.Machine
end

