-- ==== Sys2Proof/Machine/Fetch.lean ====
section
/-! DEFINITION. Fetching (06 R154, 07 R192, R193, 14 R358): the checks on the pc and the word, the step count of a
firing, and the placing of an instruction where the next fetch reads it. -/

namespace Sys2Proof.Machine

/-- First and last byte of the code extent of an actor slot (07 R193). -/
def codeFirst (e : Element) (slot : Nat) : Nat := slotField e slot 4 2
def codeLast (e : Element) (slot : Nat) : Nat := slotField e slot 6 2

/-- Whether an address lies outside the code extent of the firing in focus; a controller has none (14 R356). -/
def State.outsideExtent (s : State) (a : Nat) : Bool :=
  match s.focus with
  | .element d p =>
    let e := s.elem (elemKey d p)
    a < codeFirst e e.fir.slot || codeLast e e.fir.slot < a
  | .controller _ => false

/-- The instruction's profile check (06 R187). -/
def State.profileOk (s : State) (i : Instr) : Bool := if s.onController then i.controllerOk else i.elementOk

/-- The instruction at an address, or the fault code of the first check that fails (06 R154, 07 R193). -/
def State.fetchAt (s : State) (pc : DWord) : Except Nat Instr :=
  let a := pc.toNat
  if a % 4 ≠ 0 then .error cMisalign
  else if a < s.codeStart || a + 4 > s.memEnd then .error cEmRange
  else if s.outsideExtent a then .error cIllegal
  else
    match decodeWords (s.word a) (if a + 8 ≤ s.memEnd then some (s.word (a + 4)) else none) with
    | .error .extword => .error cExtword
    | .error .truncated => .error cEmRange
    | .error .illegal => .error cIllegal
    | .ok i => if s.profileOk i then .ok i else .error cIllegal

/-- The next instruction: from the repeat buffer while RPT runs (07 R211), otherwise from memory. -/
def State.fetch (s : State) : Except Nat Instr :=
  match s.core.rpt with
  | some r =>
    match decodeWords (nth r.words r.idx 0) none with
    | .ok i => .ok i
    | .error _ => .error cIllegal
  | none => s.fetchAt s.core.pc

/-- Whether the step limit is reached before the next instruction (07 R192). -/
def State.limitReached (s : State) (k : Nat) : Bool :=
  let e := s.elem k
  !e.fir.counted && stepLimitOf e e.fir.slot ≤ e.fir.steps

/-- Counting the instruction, unless it stalled and is counted already (07 R192, 09 R296). -/
def State.count (s : State) (k : Nat) : State :=
  let e := s.elem k
  if e.fir.counted then s
  else s.setElem k { bumpPerf e 3 1 with fir := { e.fir with steps := e.fir.steps + 1, counted := true } }

/-- Whether the core in focus fetches: an element in a running or stalled firing, a controller that is released and not halted
(14 R357, R360). -/
def State.fetches (s : State) : Bool :=
  match s.focus with
  | .element d p => let st := (s.elem (elemKey d p)).fir.status; st = .running || st = .stalled
  | .controller d => s.firmwareRuns d

/-- Whether the step limit ends the firing in focus ahead of its next instruction (07 R192). -/
def State.limited (s : State) : Bool :=
  match s.focus with
  | .element d p => s.limitReached (elemKey d p) && (s.elem (elemKey d p)).fir.status = .running
  | .controller _ => false

/-- A word that is no instruction, or a fetch that fails: the fault, which names the pc (06 R186). The step limit stands ahead
of it (07 R192), and a core that fetches nothing raises nothing. -/
def execNonInstruction (s : State) : Out :=
  if s.limited then .next (s.raise cStepLimit (noDetail cStepLimit))
  else if s.fetches then
    match s.fetch with
    | .ok _ => .next s
    | .error c => .next (s.raise c (noDetail c))
  else .next s

/-- The step limit ends the firing in focus (07 R192). -/
def execStepLimit (s : State) : Out :=
  if s.limited then .next (s.raise cStepLimit (noDetail cStepLimit)) else .next s

/-- Slot 0 of the block that withFetchWord writes: the code extent is all of code memory, the step limit 4,096, valid. -/
def fetchBlock : Mem :=
  Memory.write (Memory.write (Memory.write (Memory.write [] 0 0x04000400 4) 4 0xBFFF0400 4) 8 4096 4) 25 1 1

/-- The bytes of an instruction whose bits are numbered as the table numbers them. -/
def tableBytes (nbits w : Nat) : List Byte := (List.range 8).map (byteOf (w % 2 ^ nbits))

/-- Whether the major is 0x1D, the controller's own. -/
def isControllerWord (w : Nat) : Bool := w / 2 ^ 26 % 64 = 0x1D

/-- The instruction placed on the controller of position 0, at its pc. -/
def State.placeOnController (s : State) (bs : List Byte) : State :=
  let c := s.ctrl 0
  { s.setCtrl 0 { c with sram := Memory.writeBytes c.sram c.core.pc.toNat bs } with agenda := [], focus := .controller 0 }

/-- The instruction placed on element 0 of position 0, in a firing of slot 0 that begins at 0x0400 (L7). -/
def State.placeOnElement (s : State) (bs : List Byte) : State :=
  let e := s.elem 0
  let e' := { e with
    mem := Memory.writeBytes e.mem 0x400 bs
    active := fetchBlock
    core := { e.core with pc := 0x400, loops := [], rpt := none }
    fir := { Firing.idle with status := .running } }
  { s.setElem 0 e' with agenda := [], focus := .element 0 0 }

end Sys2Proof.Machine
end

