-- ==== Sys2Proof/Machine/Stream.lean ====
section
/-! DEFINITION. Stream registers and generators: the instructions of major 0x14 (08 R239 to R250) and the engines' own
steps. -/

namespace Sys2Proof.Machine

/-! ## SBIND -/

/-- Whether another register than q has a binding. -/
def boundElsewhere (e : Element) (q : Fin 3) (b : QBind) : Bool :=
  (List.finRange 3).any fun r => r ≠ q && e.q[r] = b

/-- The input port of a drain descriptor, its ring size minus 1 and its first slot (08 R242). -/
def drainPort (g : Gen) : Nat := g.drain.toNat / 256
def drainRing (g : Gen) : Nat := g.drain.toNat / 16 % 16
def drainFirst (g : Gen) : Nat := g.drain.toNat % 16

/-- Whether a drain reads an input port. -/
def drainReads (e : Element) (i : Nat) : Bool := e.gens.toList.any fun g => g.st = .drain && drainPort g = i

/-- Whether input port i of the executing firing's actor is bound in stream mode. -/
def streamPort (e : Element) (i : Nat) : Bool := portMode e i = .stream && portSlot e i = e.fir.slot

/-- The binding of a register replaced. -/
def State.rebind (s : State) (k : Nat) (q : Fin 3) (b : QBind) : State :=
  let e := s.elem k
  s.setElem k { e with q := e.q.set q b }

/-- A checked stream instruction: its fault, or its effect and on. -/
def checked (s : State) (f : Fails) (eff : State → State) : Out :=
  match f with
  | some c => .next (s.raise c.1 c.2)
  | none => .next (eff s).advance

/-- SBIND to a generator (08 R241). -/
def sbindGenFault (e : Element) (q g : Fin 3) : Fails :=
  if boundElsewhere e q (.gen g) || (e.gens[g]).st = .drain then some (cIllegal, streamDetail q 7 0xFF) else none

def execSbindGenerator (q g : Fin 3) (s : State) : Out :=
  onElement s fun k => checked s (sbindGenFault (s.elem k) q g) fun t => t.rebind k q (.gen g)

/-- SBIND to an input port. -/
def sbindInFault (e : Element) (q : Fin 3) (i : BitVec 3) : Fails :=
  if !streamPort e i.toNat then some (cPortUnbound, streamDetail q 10 i.toNat)
  else if boundElsewhere e q (.inPort i) || drainReads e i.toNat then some (cIllegal, streamDetail q 7 i.toNat)
  else none

def execSbindInputPort (q : Fin 3) (i : BitVec 3) (s : State) : Out :=
  onElement s fun k => checked s (sbindInFault (s.elem k) q i) fun t => t.rebind k q (.inPort i)

/-- SBIND to an output port. -/
def State.sbindOutFault (s : State) (k : Nat) (q : Fin 3) (o : BitVec 4) : Fails :=
  if (s.outChannel k o.toNat).isNone then some (cPortUnbound, streamDetail q 10 o.toNat)
  else if boundElsewhere (s.elem k) q (.outPort o) then some (cIllegal, streamDetail q 7 o.toNat)
  else none

def execSbindOutputPort (q : Fin 3) (o : BitVec 4) (s : State) : Out :=
  onElement s fun k => checked s (s.sbindOutFault k q o) fun t => t.rebind k q (.outPort o)

def execSbindUnbind (q : Fin 3) (s : State) : Out := onElement s fun k => .next (s.rebind k q .unbound).advance

/-! ## SCFG (08 R242) -/

/-- Whether a value is in the range of Table 8-6. -/
def paramInRange (k : Nat) (v : DWord) : Bool :=
  if k = 0 then v.toNat ≤ 0xBFFF
  else if k ≤ 4 then 1 ≤ v.toNat && v.toNat ≤ 4096
  else if k ≤ 8 then -49152 ≤ v.toInt && v.toInt ≤ 49152
  else v.toNat < 2 ^ 11

/-- Parameter k set. -/
def setParam (g : Gen) (k : Nat) (v : DWord) : Gen :=
  if k = 0 then { g with base := v }
  else if k ≤ 4 then { g with cnt := g.cnt.setIfInBounds (k - 1) v.toNat }
  else if k ≤ 8 then { g with str := g.str.setIfInBounds (k - 5) v.toInt }
  else { g with drain := v.truncate 11 }

/-- The check of SCFG: a generator that is not idle is cause 7, a value outside the range cause 9. Where both hold, 08 R242
gives no order, and cause 7 is raised (L87). -/
def scfgFault (e : Element) (g : Fin 3) (k : Nat) (v : DWord) : Fails :=
  if (e.gens[g]).st ≠ .idle then some (cIllegal, streamDetail g 7 0xFF)
  else if !paramInRange k v then some (cIllegal, streamDetail g 9 0xFF)
  else none

def execScfg (g : Fin 3) (k : Fin 10) (a : BitVec 5) (s : State) : Out :=
  onElement s fun n => checked s (scfgFault (s.elem n) g k (s.reg a)) fun t =>
    let e := t.elem n
    t.setElem n (setGen e g (setParam e.gens[g] k (s.reg a)))

/-! ## SSTART (08 R243) -/

/-- The address of element j of a run: i0 runs fastest. -/
def runAddr (g : Gen) (j : Nat) : Int :=
  let i0 := j % g.cnt[0]
  let i1 := j / g.cnt[0] % g.cnt[1]
  let i2 := j / (g.cnt[0] * g.cnt[1]) % g.cnt[2]
  let i3 := j / (g.cnt[0] * g.cnt[1] * g.cnt[2]) % g.cnt[3]
  g.org + i0 * g.str[0] + i1 * g.str[1] + i2 * g.str[2] + i3 * g.str[3]

/-- The check of one element's address. -/
def runAddrFault (e : Element) (m : GenMode) (ea : Int) : Option Nat :=
  if ea % 4 ≠ 0 then some cMisalign
  else if ea < 0 || ea + 4 > emEnd then some cEmRange
  else if m = .write && (ea < constEnd || (List.range 4).any fun i => inBitmap e (ea.toNat + i)) then some cEmRange
  else none

/-- The first element of a run that fails, from element j on. -/
def firstBad (e : Element) (m : GenMode) (g : Gen) : Nat → Nat → Fails
  | 0, _ => none
  | fuel + 1, j =>
    match runAddrFault e m (runAddr g j) with
    | some c => some (c, BitVec.ofInt 64 (runAddr g j))
    | none => firstBad e m g fuel (j + 1)

/-- A generator with its run begun. -/
def startRun (g : Gen) (st : GenState) (off : DWord) : Gen :=
  { g with st := st, org := g.base.toNat + off.toInt, popped := 0, held := [], ahead := false, pushed := 0, waiting := [] }

/-- A generator with its drain begun. -/
def startDrain (g : Gen) : Gen := { g with st := .drain, t := 0, f := 0, left := g.cnt[0], stopping := false }

/-- The checks of SSTART. -/
def sstartFault (e : Element) (g : Fin 3) (m : GenMode) (off : DWord) : Fails :=
  let x := e.gens[g]
  match m with
  | .drain =>
    if x.st ≠ .idle then some (cIllegal, streamDetail g 7 (drainPort x))
    else if !streamPort e (drainPort x) then some (cPortUnbound, streamDetail g 10 (drainPort x))
    else if e.q.toList.any (fun b => b = .gen g || b = .inPort (BitVec.ofNat 3 (drainPort x))) || drainReads e (drainPort x) then
      some (cIllegal, streamDetail g 7 (drainPort x))
    else none
  | _ =>
    if x.st ≠ .idle then some (cIllegal, streamDetail g 7 0xFF)
    else firstBad e m (startRun x .idle off) (runLength x) 0

def execSstart (g : Fin 3) (m : GenMode) (a : BitVec 5) (s : State) : Out :=
  onElement s fun k => checked s (sstartFault (s.elem k) g m (s.reg a)) fun t =>
    let e := t.elem k
    let x := e.gens[g]
    let x' := match m with
      | .read => startRun x .read (s.reg a)
      | .write => startRun x .write (s.reg a)
      | .drain => startDrain x
    t.setElem k { setGen e g x' with fir := { e.fir with clean := false } }

/-! ## SSTOP, SWAIT, SCOUNT (08 R248 to R250) -/

/-- An idle generator with its parameters kept. -/
def idleGen (g : Gen) : Gen :=
  { g with st := .idle, popped := 0, held := [], ahead := false, pushed := 0, waiting := [], t := 0, f := 0, left := 0,
           stopping := false }

def execSstop (g : Fin 3) (s : State) : Out :=
  onElement s fun k =>
    let e := s.elem k
    let x := e.gens[g]
    let done (y : Gen) : Out := .next (s.setElem k (setGen e g y)).advance
    match x.st with
    | .idle => .next s.advance
    | .read | .error => done (idleGen x)
    | .write => if x.waiting = [] then done (idleGen x) else .next s.stall
    | .drain => if x.f = 0 then done (idleGen x) else done { x with stopping := true }

def execSwait (g : Fin 3) (s : State) : Out :=
  onElement s fun k =>
    let e := s.elem k
    let x := e.gens[g]
    let n := runLength x
    match x.st with
    | .idle => .next s.advance
    | .read =>
      if n - x.popped > 32 then .next (s.raise cIllegal (streamDetail g 8 0xFF))
      else
        if n ≤ x.popped + x.held.length then .next (s.setElem k (setGen e g { x with ahead := true })).advance
        else .next (s.setElem k { e with fir := { e.fir with swait := some g } }).stall
    | .write => if x.pushed < n then .next (s.raise cIllegal (streamDetail g 8 0xFF)) else .next s.stall
    | .drain => .next s.stall
    | .error => .next (s.raise cIllegal (streamDetail g 5 0xFF))

/-- The snapshot of SCOUNT (08 R250). -/
def scountValue (x : Gen) : DWord :=
  let n := runLength x
  let p := match x.st with
    | .idle => (0, 0)
    | .read => (1, n - x.popped)
    | .write => (2, n - x.pushed)
    | .drain => (3, x.left)
    | .error => (4, x.left)
  BitVec.ofNat 64 (p.1 * 2 ^ 61 + p.2 % 2 ^ 49)

def execScount (d : BitVec 5) (g : Fin 3) (s : State) : Out :=
  onElement s fun k => .next (s.setReg d (scountValue (s.elem k).gens[g])).advance

/-! ## The engines' steps -/

/-- A firing stalled on a stream read goes on once what it waits for is there (02 R59); the instruction at its pc then
runs again from the values it has popped. -/
def execStreamReadResume (die pos : Nat) (s : State) : Out :=
  let k := elemKey die pos
  let e := s.elem k
  if e.fir.status = .stalled then .next (s.setElem k { e with fir := { e.fir with status := .running } }) else .next s

/-- A read run reads its next element: at most 8 ahead of the pops, 32 while a SWAIT waits and once it has completed (08
R244). -/
def execGeneratorRead (die pos : Nat) (g : Fin 3) (s : State) : Out :=
  let k := elemKey die pos
  let e := s.elem k
  let x := e.gens[g]
  let j := x.popped + x.held.length
  if x.st = .read ∧ j < runLength x ∧ x.held.length < (if x.ahead || e.fir.swait = some g then 32 else 8) then
    let v := BitVec.ofNat 32 (s.emRead k e.fir.slot (runAddr x j).toNat 4)
    .next (s.setElem k (setGen e g { x with held := x.held ++ [v] }))
  else .next s

/-- A write run writes its oldest waiting push, and is idle after the last element (08 R245). -/
def execGeneratorWrite (die pos : Nat) (g : Fin 3) (s : State) : Out :=
  let k := elemKey die pos
  let e := s.elem k
  let x := e.gens[g]
  match x.st, x.waiting with
  | .write, v :: rest =>
    let j := x.pushed - x.waiting.length
    let e' := emWrite e (runAddr x j).toNat v.toNat 4
    let x' := { x with waiting := rest }
    .next (s.setElem k (setGen e' g (if j + 1 = runLength x then idleGen x' else x')))
  | _, _ => .next s

/-- Address of tile slot n (09 R274). -/
def tileAddr (n : Nat) : Nat := 0x9F00 + 528 * n

/-- The slot that a drain fills next (08 R246). -/
def drainSlot (x : Gen) : Nat := (drainFirst x + x.t % (drainRing x + 1)) % 16

/-- A tile slot's state, and replacing it. -/
def tileOf (e : Element) (n : Nat) : TileState := nth e.tiles.toList n .empty
def setTile (e : Element) (n : Nat) (t : TileState) : Element := { e with tiles := e.tiles.setIfInBounds n t }

/-- An asynchronous fault belongs to the firing running on the element, or to the next dispatched there (08 R247,
09 R280). -/
def State.asyncFault (s : State) (k code : Nat) (detail : DWord) : State :=
  let e := s.elem k
  if e.fir.status = .idle then s.setElem k { e with pend := some (e.pend.getD { code := code, detail := detail }) }
  else s.abortFiring k code e.core.pc.toNat detail

/-- A drain error (08 R247). -/
def State.drainError (s : State) (k : Nat) (g : Fin 3) : State :=
  let e := s.elem k
  (s.setElem k (setGen e g { e.gens[g] with st := .error })).asyncFault k cIllegal (streamDetail g 5 0xFF)

/-- A drain whose port has ended inside a tile or with tiles left is in error (08 R247). -/
def State.drainEnds (s : State) (k : Nat) (g : Fin 3) : State :=
  let x := (s.elem k).gens[g]
  if x.st = .drain && portQueue (s.elem k) (drainPort x) = [] && s.portEnded k (drainPort x) && (x.f ≠ 0 || x.left ≠ 0) then
    s.drainError k g
  else s

/-- The token at the head of a drain's port moves into the tile slot (08 R246, 04 R122). -/
def execDrainToken (die pos : Nat) (g : Fin 3) (s : State) : Out :=
  let k := elemKey die pos
  let e := s.elem k
  let x := e.gens[g]
  let n := drainSlot x
  if x.st = .drain then
    match portQueue e (drainPort x) with
    | [] => .next (s.drainEnds k g)
    | h :: _ =>
      match h.kind with
      | .data =>
        if tileOf e n = .full then .next s
        else if x.f < 66 then
          let e' := emWrite e (tileAddr n + 8 * x.f) h.payload.toNat 8
          let e' := setTile (setGen e' g { x with f := x.f + 1 }) n .filling
          .next ((s.setElem k e').takePort k (drainPort x))
        else .next (s.drainError k g)
      | .stop =>
        if x.f = 64 || x.f = 66 then
          let x' := { x with f := 0, t := x.t + 1, left := x.left - 1 }
          let x'' := if x'.left = 0 || x.stopping then idleGen x' else x'
          .next ((s.setElem k (setTile (setGen e g x'') n .full)).takePort k (drainPort x))
        else if x.f = 0 then .next (s.takePort k (drainPort x))
        else .next (s.drainError k g)
      | _ => .next s
  else .next s

end Sys2Proof.Machine
end

