-- ==== Sys2Proof/Machine/Token.lean ====
section
/-! DEFINITION. Token and tag instructions (09 R258 to R273): sends into the buffer, windows, contexts, and deferral. -/

namespace Sys2Proof.Machine

/-! ## Sends (09 R260 to R266) -/

/-- xt[31:0] of an element. -/
def tagOf (e : Element) : Word := e.xt.truncate 32

/-- The next tag of SEND.nx: the context stays, ITER goes on modulo 2^18 (09 R262). -/
def nextTag (t : Word) : Word := t.extractLsb' 18 14 ++ (t.extractLsb' 0 18 + 1)

/-- A send of one token: the checks of R260 before any source is read, then the token. -/
def sendOne (s : State) (o : Nat) (kind : SendKind) (pops : List (Fin 3)) (tok : State → Nat → List Word → Token) : Out :=
  onElement s fun k =>
    match s.sendFault k o kind, s.capacityFault k 1 with
    | some f, _ => .next (s.raise f.1 f.2)
    | none, some f => .next (s.raise f.1 f.2)
    | none, none =>
      withOperands s false pops none fun t vals => (t.appendSends k [{ port := o, tok := tok t k vals }]).advance

def execSend (o : BitVec 4) (a : Src) (arm nx : Bool) (s : State) : Out :=
  sendOne s o.toNat .plain (srcPops a) fun t k vals =>
    let e := t.elem k
    dataToken e (t.src a vals) (if nx then nextTag (tagOf e) else tagOf e) arm

def execSendt (o : BitVec 4) (a b : Src) (arm : Bool) (s : State) : Out :=
  sendOne s o.toNat .plain (srcPops a ++ srcPops b) fun t k vals =>
    dataToken (t.elem k) (t.src a vals) ((t.src b (srcRest a vals)).truncate 32) arm

def execMreq (o : BitVec 4) (a : Src) (s : State) : Out :=
  sendOne s o.toNat .mreq (srcPops a) fun t k vals => dataToken (t.elem k) (t.src a vals) (tagOf (t.elem k)) false

/-- A stop token of a level with the firing's tag (09 R265). -/
def stopToken (e : Element) (level : Nat) (tag : Word) : Token := { dataToken e 0 tag false with kind := .stop, level := level }

def execStop (o : BitVec 4) (level : BitVec 3) (s : State) : Out :=
  sendOne s o.toNat .stop [] fun t k _ => stopToken (t.elem k) level.toNat (tagOf (t.elem k))

/-- An EOS token of an element's colour (09 R265). -/
def eosToken (colour : Nat) : Token :=
  { payload := 0, tag := 0, kind := .eos, level := 0, arm := false, colour := colour, fin := false }

def execEos (o : BitVec 4) (s : State) : Out := sendOne s o.toNat .plain [] fun t k _ => eosToken (t.elem k).colour

/-- The tokens of a bulk message of `n` flits from an address, and its end-of-tile mark (09 R264), whose payload is 0 (L98). -/
def State.bulk (s : State) (k o base n : Nat) : List Send :=
  let e := s.elem k
  ((List.range n).map fun f =>
    { port := o, tok := dataToken e (BitVec.ofNat 64 (s.emRead k e.fir.slot (base + 8 * f) 8)) (tagOf e) false }) ++
    [{ port := o, tok := stopToken e 1 (tagOf e) }]

/-- Whether a drain will still fill a tile slot (09 R280). -/
def drainWillFill (e : Element) (n : Nat) : Bool :=
  e.gens.toList.any fun g =>
    g.st = .drain && 0 < g.left && (List.range (drainRing g + 1)).any fun j => (drainFirst g + j) % 16 = n

/-- What a reader of a tile slot finds (09 R280). -/
inductive SlotCheck where
  | ready | waits | starved
deriving DecidableEq, Repr

/-- The check of a tile slot before it is read. -/
def slotCheck (e : Element) (n : Nat) : SlotCheck :=
  match tileOf e n with
  | .full => .ready
  | .filling => .waits
  | .empty => if drainWillFill e n then .waits else .starved

/-- The message and the emptying of its slot, once the slot is full. -/
def State.sendTile (s : State) (k o n flits : Nat) (clear : Bool) : State :=
  match s.capacityFault k (flits + 1) with
  | some f => s.raise f.1 f.2
  | none =>
    let t := s.appendSends k (s.bulk k o (tileAddr n) flits)
    let e := t.elem k
    (if clear then t.setElem k { setTile e n .empty with fir := { e.fir with clean := false } } else t).advance

def execSendbTile (o : BitVec 4) (n : BitVec 4) (scale clear : Bool) (s : State) : Out :=
  onElement s fun k =>
    match s.sendFault k o.toNat .bulk with
    | some f => .next (s.raise f.1 f.2)
    | none =>
      if (s.elem k).mq ≠ [] then .next s.stall
      else
        match slotCheck (s.elem k) n.toNat with
        | .waits => .next s.stall
        | .starved => .next (s.raise cMatrixCfg (BitVec.ofNat 64 (3 + 256 * n.toNat)))
        | .ready => .next (s.sendTile k o.toNat n.toNat (if scale then 66 else 64) clear)

/-- The checks of the memory form (09 R264), without capacity. R264 gives MISALIGN and EM_RANGE no detail word: it is the base
address (L88). -/
def bulkFault (o : Nat) (base n : DWord) : Fails :=
  if n = 0 || 255 < n.toNat then some (cIllegal, portDetail o 20)
  else if base.toNat % 8 ≠ 0 then some (cMisalign, base)
  else if base.toNat + 8 * n.toNat > emEnd then some (cEmRange, base)
  else none

/-- The memory form once its operands are read. -/
def State.sendBulk (s : State) (k o : Nat) (base n : DWord) : State :=
  match bulkFault o base n with
  | some f => s.raise f.1 f.2
  | none =>
    match s.capacityFault k (n.toNat + 1) with
    | some f => s.raise f.1 f.2
    | none => (s.appendSends k (s.bulk k o base.toNat n.toNat)).advance

def execSendbMemory (o : BitVec 4) (a : Src) (b : BitVec 5) (s : State) : Out :=
  onElement s fun k =>
    match s.sendFault k o.toNat .bulk with
    | some f => .next (s.raise f.1 f.2)
    | none =>
      withOperands s false (srcPops a) none fun t vals => t.sendBulk k o.toNat (t.src a vals) (t.reg b)

/-- The output port of the executing firing's actor that leads to a return channel (09 R269). -/
def State.returnPort (s : State) (k : Nat) : Option Nat :=
  (List.range 16).find? fun o =>
    match s.outChannel k o with
    | some b => b.kind = .ret
    | none => false

def execTagret (a : Src) (fin : Bool) (s : State) : Out :=
  onElement s fun k =>
    match s.returnPort k with
    | none => .next (s.raise cPortUnbound (portDetail 0xFF 23))
    | some o =>
      sendOne s o .tagret (srcPops a) fun t k vals =>
        { dataToken (t.elem k) 0 ((t.src a vals).truncate 32) false with kind := .retire, fin := fin }

/-! ## Tags (09 R270) -/

def execTagmk (d : BitVec 5) (a b : Src) (s : State) : Out :=
  onElement s fun _ =>
    withOperands s false (srcPops a ++ srcPops b) none fun t vals =>
      (t.setReg d (BitVec.zeroExtend 64
        ((t.src a vals).extractLsb' 0 14 ++ (t.src b (srcRest a vals)).extractLsb' 0 18))).advance

def execTagctx (d : BitVec 5) (a : Src) (s : State) : Out :=
  onElement s fun _ =>
    withOperands s false (srcPops a) none fun t vals =>
      (t.setReg d (BitVec.zeroExtend 64 ((t.src a vals).extractLsb' 18 14))).advance

def execTagiter (d : BitVec 5) (a : Src) (s : State) : Out :=
  onElement s fun _ =>
    withOperands s false (srcPops a) none fun t vals =>
      (t.setReg d (BitVec.zeroExtend 64 ((t.src a vals).extractLsb' 0 18))).advance

/-! ## Deferral (02 R52, R53; 09 R273) -/

/-- The deferral count of the running firing; an end firing has no entry to count in (L22). -/
def firDefcnt (e : Element) : Nat :=
  if e.fir.place < 64 then ((tabGet e.store e.fir.place).map Entry.defcnt).getD 0 else 0

/-- Whether the running firing defers yet again after its count has reached the limit. -/
def atDeferralLimit (e : Element) : Bool := e.fir.place < 64 && defLimitOf e e.fir.slot ≤ firDefcnt e

/-- The fault that a deferral becomes. -/
def deferCode : Park → Nat
  | .context _ _ => cCtxExhausted
  | _ => cTagWindow

/-- The entry of an abandoned firing is PARKED with its count one higher; so is an end firing, which its slot holds outside
the entries and which counts nothing (L22). -/
def parkPlace (e : Element) (why : Park) : Element :=
  let f := e.fir
  if f.place < 64 then
    match tabGet e.store f.place with
    | some en => setEntry e f.place { en with st := .parked, park := why, defcnt := Nat.min (en.defcnt + 1) 2097151 }
    | none => e
  else { e with ends := e.ends.setIfInBounds (f.place - 64) (.parked why f.retry) }

/-- A deferral abandons a clean firing (R52). -/
def State.abandon (s : State) (k : Nat) (why : Park) : State :=
  let s := s.undo k
  let e := parkPlace (s.elem k) why
  s.setElem k { bumpPerf e 1 1 with
    fir := { e.fir with status := .idle, counted := false, latch := [], swait := none }, core := { e.core with rpt := none, loops := [] } }

/-- A condition of R52: a deferral in a clean firing, a fault in another or at the limit. -/
def State.defer (s : State) (k : Nat) (why : Park) : State :=
  let e := s.elem k
  if !e.fir.clean then s.abortFiring k (deferCode why) e.core.pc.toNat 1
  else if atDeferralLimit e then s.abortFiring k (deferCode why) e.core.pc.toNat 0
  else s.abandon k why

/-! ## Windows (02 R55, 09 R268) -/

/-- The window entry that holds a context, or the first free one (L23): its index, and the entry it holds. -/
def windowSlot (e : Element) (slot : Nat) (c : BitVec 14) : Option (Nat × Option Win) :=
  match findWin e slot c with
  | some i => some (i, tabGet e.wins (winKey slot i))
  | none => ((List.range (winEntries e slot)).find? fun i => (tabGet e.wins (winKey slot i)).isNone).map fun i => (i, none)

/-- Whether an open entry has room for one more iteration. -/
def windowRoom (e : Element) (slot : Nat) (w : Win) : Bool := (w.n - w.o).toNat < winSize e slot

/-- TAGNEXT refused for a context (R55). -/
def windowRefused (e : Element) (slot : Nat) (c : BitVec 14) : Bool :=
  match windowSlot e slot c with
  | none => true
  | some (_, none) => winSize e slot = 0
  | some (_, some w) => !windowRoom e slot w

/-- The entry after one more iteration is issued; a new one starts with a clear bitmap. -/
def issueIter (e : Element) (slot : Nat) (c : BitVec 14) : Element × BitVec 18 :=
  match windowSlot e slot c with
  | none => (e, 0)
  | some (i, some w) =>
    ({ e with wins := tabSet e.wins (winKey slot i) { w with n := w.n + 1 }
              fir := { e.fir with advances := e.fir.advances + 1 } }, w.n)
  | some (i, none) =>
    let n := bitmapBytes e slot
    let e' := emWrite e (bitmapBase e slot + i * n) 0 n
    ({ e' with wins := tabSet e.wins (winKey slot i) { ctx := c, n := 1, o := 0, final := false }
               fir := { e.fir with advances := 1, opened := true } }, 0)

/-- The detail word of a token fault that concerns no port: its port field is zero (L88). -/
def noPortDetail (cause : Nat) : DWord := portDetail 0 cause

def execTagnext (d : BitVec 5) (s : State) : Out :=
  onElement s fun k =>
    let e := s.elem k
    let slot := e.fir.slot
    let c := (tagOf e).extractLsb' 18 14
    if winEntries e slot = 0 then .next (s.raise cIllegal (noPortDetail 21))
    else if windowRefused e slot c then .next (s.defer k .window)
    else
      let r := issueIter e slot c
      .next ((s.setElem k r.1).setReg d (BitVec.zeroExtend 64 (c ++ r.2))).advance

/-! ## Contexts (02 R58, 09 R271, R272) -/

/-- The firing's request. -/
def State.setAsk (s : State) (k : Nat) (a : CtxAsk) : State :=
  let e := s.elem k
  s.setElem k { e with fir := { e.fir with ask := a } }

/-- CTXNEW asks the sluice: the request, which travels on class 0 (13 R348), joins those of the pool, and the firing
stalls. -/
def State.askContext (s : State) (k pk i : Nat) (key : DWord) : State :=
  let e := s.elem k
  let r := imgPool (s.imageOf e.colour) i
  let v := r.base + key.toNat % r.size
  if e.fir.holds.contains (pk, v) then s.raise cCtxExhausted 4
  else
    let p := s.pool pk
    (((s.setPool pk { p with asks := p.asks ++ [(v, k)] }).manage e.colour (.ask pk v k) (elemLoc k) (s.attach (pk / 16))).setAsk k
      (.asked pk v)).stall

def execCtxnew (d : BitVec 5) (a : Src) (pool : BitVec 4) (s : State) : Out :=
  onElement s fun k =>
    let e := s.elem k
    match e.fir.ask with
    | .granted v => .next ((s.setAsk k .none).setReg d (BitVec.ofNat 64 v)).advance
    | .asked _ _ => .next s.stall
    | .refused pk v => .next (s.defer k (.context pk v))
    | .none =>
      match s.poolKey e.colour pool.toNat with
      | none => .next (s.raise cIllegal (noPortDetail 22))
      | some pk => withOperands s false (srcPops a) none fun t vals => t.askContext k pk pool.toNat (t.src a vals)

/-- Whether a value counts as allocated for a CTXFREE of this firing: allocated or held by it, and not yet freed by it
(R272). -/
def State.freeable (s : State) (k pk v : Nat) : Bool :=
  let f := (s.elem k).fir
  ((s.pool pk).alloc.contains v || f.holds.contains (pk, v)) && !f.frees.contains (pk, v)

/-- A hold of the firing cancelled: the value is free again, and its waiters hear of it (R272, L67). -/
def State.cancelHold (s : State) (k pk v : Nat) : State :=
  let e := s.elem k
  (s.setElem k { e with fir := { e.fir with holds := e.fir.holds.filter (· ≠ (pk, v)) } }).dropHolds [(pk, v)]

/-- CTXFREE with its operand: a hold of the firing itself is cancelled; any other free is recorded, to be performed at
commit. -/
def State.recordFree (s : State) (k pk i : Nat) (v : DWord) : State :=
  let e := s.elem k
  let r := imgPool (s.imageOf e.colour) i
  if v.toNat < r.base || r.base + r.size ≤ v.toNat then s.raise cCtxExhausted 2
  else if !s.freeable k pk v.toNat then s.raise cCtxExhausted 2
  else if e.fir.holds.contains (pk, v.toNat) then (s.cancelHold k pk v.toNat).advance
  else (s.setElem k { e with fir := { e.fir with frees := e.fir.frees ++ [(pk, v.toNat)] } }).advance

def execCtxfree (a : Src) (pool : BitVec 4) (s : State) : Out :=
  onElement s fun k =>
    match s.poolKey (s.elem k).colour pool.toNat with
    | none => .next (s.raise cIllegal (noPortDetail 22))
    | some pk => withOperands s false (srcPops a) none fun t vals => t.recordFree k pk pool.toNat (t.src a vals)

/-- The deferral limit turns the refusal of the TAGNEXT or CTXNEW that the firing in focus stands at into a fault
(R53). -/
def execDeferralLimit (why : DeferKind) (s : State) : Out :=
  onElement s fun k =>
    let e := s.elem k
    if e.fir.status = .idle || !e.fir.clean || !atDeferralLimit e then .next s
    else
      match why, e.fir.ask, s.fetch with
      | .context, .refused pk v, _ => .next (s.defer k (.context pk v))
      | .window, _, .ok (.tagnext _) =>
        if winEntries e e.fir.slot ≠ 0 && windowRefused e e.fir.slot ((tagOf e).extractLsb' 18 14) then
          .next (s.defer k .window)
        else .next s
      | _, _, _ => .next s

end Sys2Proof.Machine
end

