-- ==== Sys2Proof/Machine/Firing.lean ====
section
/-! DEFINITION. Matching, run queue, dispatch, commit, end firings, windows and sluices (02 R36 to R58; 07 R212;
09 R258, R266, R271, R272; 12 R320; 15 R421, R422). -/

namespace Sys2Proof.Machine

/-! ## Matching (02 R39 to R44) -/

/-- The entries of a slot with their places. -/
def slotEntries (e : Element) (a : Nat) : List (Nat × Entry) := e.store.filter fun x => x.2.slot = a

/-- The entry of a slot and tag. -/
def findEntry (e : Element) (a : Nat) (tag : Word) : Option (Nat × Entry) :=
  e.store.find? fun x => x.2.slot = a && x.2.tag = tag

/-- The least free place of the matching store: R39 says only that a free entry is taken (L90). -/
def freePlace (e : Element) : Option Nat := (List.range 64).find? fun i => (tabGet e.store i).isNone

/-- The data or stop token at the head of a matching-mode port. -/
def matchHead (e : Element) (i : Nat) : Option Token :=
  if portMode e i = .matching then
    match portQueue e i with
    | t :: _ => if t.kind = .data || t.kind = .stop then some t else none
    | [] => none
  else none

/-- Where R39 lets a head token enter: an entry that exists, a free place for a new one, or nowhere. -/
inductive Room where
  | joins (place : Nat) (en : Entry)
  | opens (place : Nat)
  | blocked
deriving DecidableEq, Repr

/-- Bit n of a mask. -/
def maskBit (m : BitVec 4) (n : Nat) : Bool := m.getLsbD n

/-- R39 for a head token h on port i. -/
def matchRoom (e : Element) (i : Nat) (h : Token) : Room :=
  let a := portSlot e i
  match findEntry e a h.tag with
  | some (place, en) => if maskBit en.present (portOperand e i) || en.st ≠ .part then .blocked else .joins place en
  | none =>
    if slotOrdered e a && (slotEntries e a).any fun x => x.2.st = .part then .blocked
    else if quotaOf e a ≤ (slotEntries e a).length then .blocked
    else
      match freePlace e with
      | some p => .opens p
      | none => .blocked

/-- An entry with nothing in it (R39). -/
def newEntry (a : Nat) (tag : Word) (age : Nat) : Entry :=
  { slot := a, tag := tag, present := 0, payloads := Vector.replicate 4 0, levels := Vector.replicate 4 0, arm := false,
    defcnt := 0, st := .part, retry := false, park := .none, age := age }

/-- A token placed in an entry as operand n. -/
def placeOperand (en : Entry) (n : Nat) (h : Token) : Entry :=
  { en with
    present := en.present ||| (1#4 <<< n)
    payloads := en.payloads.setIfInBounds n h.payload
    levels := en.levels.setIfInBounds n (BitVec.ofNat 3 h.level)
    arm := if n = 0 then h.arm else en.arm }

/-- The entry after a token, READY when it is complete; then it stands last among the READY. -/
def putOperand (e : Element) (place : Nat) (en : Entry) (i : Nat) (h : Token) : Element :=
  let en' := placeOperand en (portOperand e i) h
  if en'.present = requiredMask e en.slot then
    { setEntry e place { en' with st := .ready } with ready := e.ready ++ [place] }
  else setEntry e place en'

/-- The head of port i moves into the store, if R39 lets it. -/
def State.matchPort (s : State) (k i : Nat) : State :=
  let e := s.elem k
  match matchHead e i with
  | none => s
  | some h =>
    match matchRoom e i h with
    | .blocked => s
    | .joins place en => (s.setElem k (putOperand e place en i h)).takePort k i
    | .opens place =>
      let e' := { e with births := e.births + 1 }
      (s.setElem k (putOperand e' place (newEntry (portSlot e i) h.tag e.births) i h)).takePort k i

/-- Whether every required port of a slot holds a token at its head that is blocked. -/
def headsBlocked (e : Element) (a : Nat) : Bool :=
  let ports := requiredPorts e a
  ports ≠ [] && ports.all fun i =>
    match matchHead e i with
    | some h => matchRoom e i h = .blocked
    | none => false

/-- The PARTIAL entry of an ordered slot whose operands disagree in tag (R41): every required port has a token at its
head, and none of them can enter the entry. -/
def disagreement (e : Element) (a : Nat) : Option (Nat × Entry) :=
  if slotValid e a && slotOrdered e a && headsBlocked e a then (slotEntries e a).find? fun x => x.2.st = .part else none

/-- R41: the entry becomes FAULTED and keeps its tokens. -/
def State.raiseDisagreement (s : State) (k a : Nat) : State :=
  let e := s.elem k
  match disagreement e a with
  | none => s
  | some (place, en) =>
    (s.setElem k (setEntry e place { en with st := .faulted })).report (k / 6400) e.colour e.load .entry cMatchFull
      .element (k % 6400) a (faultWord2 en.tag a 0) 1

/-- The condition of R44 for a slot. -/
def slotStuck (e : Element) (a : Nat) : Bool :=
  let es := slotEntries e a
  slotValid e a && es.length = quotaOf e a && es.all (fun x => x.2.st = .part) && headsBlocked e a &&
    !(e.fir.status ≠ .idle && e.fir.slot = a)

/-- R44: MATCH_FULL of a slot, once each time the condition arises. -/
def State.raiseSlotFull (s : State) (k a : Nat) : State :=
  let e := s.elem k
  if slotStuck e a then
    if e.slotFull.contains a then s
    else (s.setElem k { e with slotFull := insertNat e.slotFull a }).reportLoose k cMatchFull 0 a 2
  else s.setElem k { e with slotFull := e.slotFull.filter (· ≠ a) }

/-- Whether an end firing is PARKED (R61). -/
def endParked : EndState → Bool
  | .parked _ _ => true
  | _ => false

/-- The condition of R43. -/
def storeStuck (e : Element) : Bool :=
  e.store.length = 64 && e.store.all (fun x => x.2.st = .part) && e.runq = [] && e.fir.status = .idle &&
    !(e.ends.toList.any endParked) &&
    (List.range 8).all fun i =>
      match matchHead e i with
      | some h => matchRoom e i h = .blocked
      | none => true

/-- R43: MATCH_FULL of the element, once each time the condition arises. -/
def State.raiseFull (s : State) (k : Nat) : State :=
  let e := s.elem k
  if storeStuck e then
    if e.matchFull then s else (s.setElem k { e with matchFull := true }).reportLoose k cMatchFull 0 0 0
  else s.setElem k { e with matchFull := false }

/-- The checks that matching can go on (R41, R43, R44). Where an ordered actor's quota is filled by its one PARTIAL entry, the
conditions of R41 and R44 hold together; R41's fault alone is raised, since neither rule says that both are (L68). -/
def State.checkMatch (s : State) (k : Nat) : State :=
  let s := (List.range 8).foldl (fun t a => t.raiseDisagreement k a) s
  let s := (List.range 8).foldl (fun t a => t.raiseSlotFull k a) s
  s.raiseFull k

/-- One cycle of the matching logic: the port whose turn it is. -/
def execMatchToken (die pos : Nat) (s : State) : Out :=
  let k := elemKey die pos
  let e := s.elem k
  if e.configured && e.cut ≠ .saved then
    .next (((s.setElem k { e with rr := (e.rr + 1) % 8 }).matchPort k e.rr).checkMatch k)
  else .next s

/-! ## Run queue (02 R45) and end firings (R42) -/

/-- Firings that the run queue holds. -/
def runqSize : Nat := 16

/-- A place of the run queue that names the end firing of a slot (15 Table 15-5). -/
def endPlace (a : Nat) : Nat := 64 + a

/-- The oldest READY firing joins the run queue, if it has a place. -/
def execRunQueueJoin (die pos : Nat) (s : State) : Out :=
  let k := elemKey die pos
  let e := s.elem k
  match e.ready with
  | [] => .next s
  | p :: rest =>
    if runqSize ≤ e.runq.length then .next s
    else
      let e' := { e with ready := rest, runq := e.runq ++ [p] }
      match tabGet e.store p with
      | some en => .next (s.setElem k (setEntry e' p { en with st := .queued }))
      | none => .next (s.setElem k e')

/-- Whether every required port of a slot is ended. -/
def State.slotEnded (s : State) (k a : Nat) : Bool :=
  let e := s.elem k
  slotValid e a && requiredPorts e a ≠ [] && (requiredPorts e a).all fun i => s.portEnded k i

/-- When every required port of a slot is ended it is ending, and once it holds no entry its end firing is ready. -/
def execEndFiringReady (die pos slot : Nat) (s : State) : Out :=
  let k := elemKey die pos
  let e := s.elem k
  let st := nth e.ends.toList slot .ended
  if e.configured && e.cut ≠ .saved && slot < 8 && (st = .active || st = .ending) && s.slotEnded k slot then
    if slotEntries e slot = [] then
      .next (s.setElem k { e with
        ends := e.ends.setIfInBounds slot (.ready false), ready := e.ready ++ [endPlace slot] })
    else .next (s.setElem k { e with ends := e.ends.setIfInBounds slot .ending })
  else .next s

/-! ## Dispatch (02 R46 to R48) -/

/-- The slot of a place of the run queue. -/
def placeSlot (e : Element) (p : Nat) : Nat :=
  if p < 64 then ((tabGet e.store p).map Entry.slot).getD 0 else p - 64

/-- The oldest entry of a slot. -/
def oldestEntry (e : Element) (a : Nat) : Option (Nat × Entry) :=
  (slotEntries e a).foldl
    (fun best x =>
      match best with
      | none => some x
      | some b => if x.2.age < b.2.age then some x else some b) none

/-- Whether a slot dispatches nothing: an ordered actor whose oldest entry is FAULTED. -/
def slotHeld (e : Element) (a : Nat) : Bool :=
  slotOrdered e a &&
    match oldestEntry e a with
    | some x => x.2.st = .faulted
    | none => false

/-- Whether a slot of a class has a queued firing that may dispatch. -/
def slotCandidate (e : Element) (urgent : Bool) (a : Nat) : Bool :=
  slotUrgent e a = urgent && !slotHeld e a && e.runq.any fun p => placeSlot e p = a

/-- The next slot of a class in round-robin order. -/
def nextSlot (e : Element) (urgent : Bool) : Option Nat :=
  let last := if urgent then e.lastUrgent else e.lastNormal
  ((List.range 8).map fun j => (last + 1 + j) % 8).find? (slotCandidate e urgent)

/-- The normal slots with a queued firing that may dispatch. -/
def waitingSlots (e : Element) : List Nat := (List.range 8).filter (slotCandidate e false)

/-- Whether, once slot a goes, every other waiting slot can still go after at most 15 dispatches of others: a slot that
has waited for w of them can let 15 - w more go first. -/
def withinFifteen (e : Element) (a : Nat) : Bool :=
  let ws := ((waitingSlots e).filter (· ≠ a)).map fun b => nth e.waits.toList b 0 + 1
  ws.all (· ≤ 15) && (List.range 15).all fun t => ws.countP (fun w => 15 ≤ w + t) ≤ t + 1

/-- The next normal slot on a part of erratum 2: any waiting slot that keeps the others within 15 dispatches, by a free
value (18 Table 18-1, R468) (L51). -/
def looseSlot (e : Element) (n : Nat) : Option Nat :=
  let good := (waitingSlots e).filter (withinFifteen e)
  if good = [] then nextSlot e false else good[Config.freeSlot n % good.length]?

/-- The normal slot that is next: in round-robin order (02 R46, 13 R345), or as erratum 2 leaves it. -/
def State.normalSlot (s : State) (e : Element) : Option Nat :=
  if s.hw.part.stepping = 1 then looseSlot e s.free else nextSlot e false

/-- The firing that R46 selects: its slot and its place. -/
def State.selectFiring (s : State) (e : Element) : Option (Nat × Nat) :=
  match nextSlot e true, s.normalSlot e with
  | some a, _ => (e.runq.find? fun p => placeSlot e p = a).map fun p => (a, p)
  | none, some a => (e.runq.find? fun p => placeSlot e p = a).map fun p => (a, p)
  | none, none => none

/-- The waits of erratum 2 after slot a goes. -/
def countWaits (e : Element) (a : Nat) : Element :=
  { e with waits := Vector.ofFn fun b : Fin 8 =>
      if b.val ≠ a && (waitingSlots e).contains b.val then e.waits[b] + 1 else 0 }

/-- The element that a dispatch of slot a begins with: on a part of erratum 2 a normal dispatch counts the waits. -/
def State.withWaits (s : State) (e : Element) (a : Nat) : Element :=
  if s.hw.part.stepping = 1 && !slotUrgent e a then countWaits e a else e

/-- xc.opd of an entry. -/
def opdField (en : Entry) : Nat :=
  ((List.range 4).map fun n =>
    16 ^ n * if maskBit en.present n then 8 + (nth en.levels.toList n 0).toNat else 0).sum

/-- The value of xc (R48). -/
def xcValue (defcnt : Nat) (retry isEnd urg arm : Bool) (slot opd : Nat) : DWord :=
  BitVec.ofNat 64 (opd + slot * 2 ^ 16 + arm.toNat * 2 ^ 19 + urg.toNat * 2 ^ 20 + isEnd.toNat * 2 ^ 21 +
    retry.toNat * 2 ^ 22 + Nat.min defcnt 0xFFFF * 2 ^ 32)

/-- The scalar registers at a dispatch: s0 zero, p0 true, every other a free value (L5). -/
def entryCore (n : Nat) (pc : DWord) : CoreRegs :=
  { pc := pc, s := Vector.ofFn fun r : Fin 32 => if r.val = 0 then 0 else Config.freeReg n r,
    p := Vector.ofFn fun r : Fin 8 => if r.val = 0 then true else Config.freePred n r, loops := [], rpt := none }

/-- The firing of a place of the run queue, in a slot. -/
def beginFiring (slot place : Nat) (tag : Word) (retry : Bool) : Firing :=
  { Firing.idle with status := .running, place := place, slot := slot, tag := tag, retry := retry }

/-- The element with the firing dispatched (R48); `n` is the number of its free values. -/
def dispatchElem (e : Element) (n slot place : Nat) : Element :=
  let urg := slotUrgent e slot
  let e := { e with
    runq := e.runq.erase place
    lastUrgent := if urg then slot else e.lastUrgent
    lastNormal := if urg then e.lastNormal else slot }
  match tabGet e.store place with
  | some en =>
    { setEntry e place { en with st := .running } with
      core := entryCore n (BitVec.ofNat 64 (armEntry e slot en.arm))
      x := en.payloads
      xt := en.tag.zeroExtend 64
      xc := xcValue en.defcnt en.retry false urg en.arm slot (opdField en)
      fir := beginFiring slot place en.tag en.retry }
  | none =>
    let retry := match nth e.ends.toList slot .active with
      | .ready r => r
      | _ => false
    { e with
      core := entryCore n (BitVec.ofNat 64 (armEntry e slot false))
      x := Vector.replicate 4 0
      xt := 0
      xc := xcValue 0 retry true urg false slot 0
      fir := beginFiring slot place 0 retry }

/-- The faults that end a firing at its dispatch: the entry address (R47), and an asynchronous fault that waited for it
(08 R247, 09 R280). Where both are due no rule gives an order: the entry address is raised, and the other fault waits for the
next firing (L87). -/
def State.entryFault (s : State) (k : Nat) : State :=
  let e := s.elem k
  let a := e.core.pc.toNat
  if a % 4 ≠ 0 then s.abortFiring k cMisalign a (noDetail cMisalign)
  else if a + 4 > emEnd then s.abortFiring k cEmRange a (noDetail cEmRange)
  else
    match e.pend with
    | none => s
    | some f => (s.setElem k { e with pend := none }).abortFiring k f.code a f.detail

/-- An idle element dispatches the next firing of its run queue. -/
def execDispatch (die pos : Nat) (s : State) : Out :=
  let k := elemKey die pos
  let e := s.elem k
  if e.configured && e.cut = .open && !e.copyFault && e.fir.status = .idle then
    match s.selectFiring e with
    | none => .next s
    | some (slot, place) =>
      .next (((s.setElem k (dispatchElem (s.withWaits e slot) s.free slot place)).bumpFree).entryFault k)
  else .next s

/-! ## Commit (02 R50, 07 R212) -/

/-- Output ports of the firing's actor that have not sent EOS in this load and have none in the buffer. -/
def State.openPorts (s : State) (k : Nat) : List Nat :=
  (List.range 16).filter fun o =>
    match s.outChannel k o with
    | some b => !portClosed b (s.elem k).fir.sends o
    | none => false

/-- The tokens that the commit releases: the buffer, and the EOS of an end firing (R42). -/
def State.commitSends (s : State) (k : Nat) : List Send :=
  let e := s.elem k
  e.fir.sends ++
    if e.fir.place < 64 then []
    else (s.openPorts k).map fun o => { port := o, tok := eosToken e.colour }

/-- How many of a list of sends a commit releases to the consumers of a channel on a die: over every output port of the actor
that is bound to the channel (12 R320). -/
def State.sendsTo (s : State) (k chan : Nat) (sends : List Send) (die : Nat) : Nat :=
  sends.countP fun x =>
    match s.outChannel k x.port with
    | some b => b.chan = chan && (pickDests b x.tok).any fun d => d.die = die
    | none => false

/-- Whether every channel accepts what the commit releases to it (12 R320); the firing that was running when its element
was closed is exempt (15 R422). -/
def State.commitAccepted (s : State) (k : Nat) (sends : List Send) : Bool :=
  (s.elem k).cut = .closed ||
    (List.range 16).all fun o =>
      match s.outChannel k o with
      | none => true
      | some b => b.dests.all fun d =>
        let n := s.sendsTo k b.chan sends d.die
        n = 0 || s.accepts b d.die n

/-- Releasing the sends of element k in program order. -/
def State.release (s : State) (k : Nat) : List Send → State
  | [] => s
  | x :: rest => State.release (s.emit (elemSource k x.port) (s.elem k).load x.tok) k rest

/-- A hold made final: the value is allocated. -/
def State.commitHold (s : State) (h : Nat × Nat) : State :=
  let p := s.pool h.1
  let p' := { p with held := p.held.filter fun x => x.1 ≠ h.2 }
  s.setPool h.1 { p' with alloc := insertNat p'.alloc h.2 }

/-- A recorded free performed: the value returns to its pool, with free notices to its waiters (02 R58). -/
def State.commitFree (s : State) (h : Nat × Nat) : State :=
  let p := s.pool h.1
  (s.setPool h.1 { p with alloc := p.alloc.filter (· ≠ h.2) }).notify h.1 h.2

/-- The provisional context effects made final (02 R54). -/
def State.commitContexts (s : State) (k : Nat) : State :=
  let f := (s.elem k).fir
  f.frees.foldl State.commitFree (f.holds.foldl State.commitHold s)

/-- The place of a committed firing: a free entry, or an ended actor. -/
def freeFiringPlace (e : Element) : Element :=
  if e.fir.place < 64 then { e with store := tabDel e.store e.fir.place }
  else { e with ends := e.ends.setIfInBounds (e.fir.place - 64) .ended }

/-- The commit of the firing of element k, in one step. -/
def State.commit (s : State) (k : Nat) : State :=
  let sends := s.commitSends k
  let s := (s.release k sends).commitContexts k
  let e := freeFiringPlace (s.elem k)
  let e := bumpPerf (bumpPerf e 0 1) 6 sends.length
  (s.setElem k { e with fir := Firing.idle, core := { e.core with loops := [], rpt := none } }).checkMatch k

/-- DONE: commits, or waits with the firing RUNNING until every output port accepts its tokens. -/
def execDone (s : State) : Out :=
  onElement s fun k =>
    if s.commitAccepted k (s.commitSends k) then .next (s.commit k)
    else
      let e := s.elem k
      .next (s.setElem k { e with fir := { e.fir with status := .waitDone } })

/-- A firing that waits at DONE commits once its output space exists. -/
def execFiringCommit (die pos : Nat) (s : State) : Out :=
  let k := elemKey die pos
  if (s.elem k).fir.status = .waitDone && s.commitAccepted k (s.commitSends k) then .next (s.commit k) else .next s

/-! ## Windows (02 R56) -/

/-- Waking a PARKED end firing: it is READY behind every READY firing (02 R53, R61). -/
def wakeEnd (p : Park → Bool) (e : Element) (a : Fin 8) : Element :=
  match e.ends[a] with
  | .parked why retry =>
    if p why then { e with ends := e.ends.set a (.ready retry), ready := e.ready ++ [endPlace a] } else e
  | _ => e

/-- An entry put into a list of entries that rises by age. -/
def insertByAge : List (Nat × Entry) → Nat × Entry → List (Nat × Entry)
  | [], x => [x]
  | y :: t, x => if x.2.age < y.2.age then x :: y :: t else y :: insertByAge t x

/-- The places of the store by the age of their entries, oldest first. -/
def byAge (e : Element) : List Nat := (e.store.foldl insertByAge []).map Prod.fst

/-- Waking a PARKED entry: it is READY behind every READY firing. -/
def wakeEntry (p : Park → Bool) (e : Element) (i : Nat) : Element :=
  match tabGet e.store i with
  | some en =>
    if en.st = .parked && p en.park then
      { setEntry e i { en with st := .ready, park := .none } with ready := e.ready ++ [i] }
    else e
  | none => e

/-- Waking PARKED firings (R53). Of those that one event wakes, the entries become READY oldest first, so that an ordered
actor keeps its order (R40); that entries of several actors do so too, and end firings after them by slot, is the model's
choice (L84). -/
def wakeEntries (e : Element) (p : Park → Bool) : Element :=
  (List.finRange 8).foldl (wakeEnd p) ((byAge e).foldl (wakeEntry p) e)

/-- The byte and the bit of a retire bitmap for an iteration (L23). -/
def bitmapBit (e : Element) (slot idx : Nat) (i : BitVec 18) : Nat × Nat :=
  let n := i.toNat % winSize e slot
  (bitmapBase e slot + idx * bitmapBytes e slot + n / 8, n % 8)

/-- Setting or clearing a bit of a retire bitmap. -/
def setBitmap (e : Element) (slot idx : Nat) (i : BitVec 18) (v : Bool) : Element :=
  let p := bitmapBit e slot idx i
  let b := Memory.get e.mem p.1
  let m : Byte := 1#8 <<< p.2
  emWrite e p.1 (if v then b ||| m else b &&& ~~~m).toNat 1

/-- A bit of a retire bitmap. -/
def getBitmap (e : Element) (slot idx : Nat) (i : BitVec 18) : Bool :=
  let p := bitmapBit e slot idx i
  (Memory.get e.mem p.1).getLsbD p.2

/-- The loop of R56: O advances over retired iterations and clears their bits. -/
def advanceO (slot idx : Nat) : Nat → Element → Win → Element × Win
  | 0, e, w => (e, w)
  | fuel + 1, e, w =>
    if getBitmap e slot idx w.o && w.o ≠ w.n then
      advanceO slot idx fuel (setBitmap e slot idx w.o false) { w with o := w.o + 1 }
    else (e, w)

/-- A retire token whose iteration is outstanding in its context's entry. -/
def retireIn (e : Element) (slot idx : Nat) (w : Win) (t : Token) : Element :=
  let i := t.tag.extractLsb' 0 18
  let r := advanceO slot idx (w.n - w.o).toNat (setBitmap e slot idx i true) w
  let w' := { r.2 with final := r.2.final || t.fin }
  if w'.final && w'.o = w'.n then { r.1 with wins := tabDel r.1.wins (winKey slot idx) }
  else { r.1 with wins := tabSet r.1.wins (winKey slot idx) w' }

/-- R56 for the retire token t on a port of slot a. -/
def State.retire (s : State) (k a : Nat) (t : Token) : State :=
  let e := s.elem k
  let bad := s.reportLoose k cTagWindow t.tag a 2
  match findWin e a (t.tag.extractLsb' 18 14) with
  | none => bad
  | some idx =>
    match tabGet e.wins (winKey a idx) with
    | none => bad
    | some w =>
      if (w.n - w.o).toNat ≤ (t.tag.extractLsb' 0 18 - w.o).toNat then bad else s.setElem k (retireIn e a idx w t)

/-- The window logic processes the retire token at the head of a return-mode port, ended or not; a data token that stands there
stays (L85). Any retire token wakes the entries parked for a window (R53). -/
def execRetireToken (die pos port : Nat) (s : State) : Out :=
  let k := elemKey die pos
  let e := s.elem k
  match portQueue e port with
  | [] => .next s
  | t :: _ =>
    if portMode e port = .ret && t.kind = .retire && e.cut ≠ .saved then
      let s := (s.retire k (portSlot e port) t).takePort k port
      .next (s.setElem k (wakeEntries (s.elem k) (· = .window)))
    else .next s

/-! ## Sluices (02 R53, R58; 09 R271) -/

/-- A free notice reaches the element it was sent to. -/
def execFreeNotice (i : Nat) (s : State) : Out :=
  match s.notices[i]? with
  | none => .next s
  | some n =>
    let it (c : Cargo) : Bool := c = .notice n.pool n.value n.elem
    if !s.arrived it then .next s
    else
    let s := { s with notices := dropNth s.notices i }.consume it
    .next (s.setElem n.elem (wakeEntries (s.elem n.elem) (· = .context n.pool n.value)))

/-- Whether counter 4 of PERF omits an element's cycles stalled on a sluice: erratum 0, on a part of stepping A1 and under an
image that selects it (18 R468). -/
def State.omitsSluice (s : State) (k : Nat) : Bool :=
  s.hw.part.stepping = 1 || imgErrata (s.imageOf (s.elem k).colour) % 2 = 1

/-- The cycles that an element has stalled on a sluice, a free number (L6), in counter 4 of PERF (09 R296). -/
def State.sluiceStall (s : State) (k : Nat) : State :=
  let e := s.elem k
  if s.omitsSluice k then s
  else (s.setElem k { e with perf := e.perf.set 4 (e.perf[4] + Config.freeCycles s.free) }).bumpFree

/-- The sluice serves the oldest request of a pool, where 09 R271 says only that it serves them one at a time (L91): it grants
the value, or refuses it and records the waiter. A refusal defers the firing at once, unless its count is at the limit (R53):
then it stands refused until that fault is raised. -/
def execSluiceReply (die pool : Nat) (s : State) : Out :=
  let pk := die * 16 + pool
  let p := s.pool pk
  match p.asks with
  | [] => .next s
  | (v, k) :: rest =>
    let it (c : Cargo) : Bool := c = .ask pk v k
    if !s.arrived it then .next s
    else
    let s := (s.consume it).sluiceStall k
    let e := s.elem k
    if p.alloc.contains v || p.held.any fun h => h.1 = v then
      let t := (s.setPool pk { p with asks := rest, waiters := p.waiters ++ [(v, k)] }).setAsk k (.refused pk v)
      .next (if e.fir.clean && atDeferralLimit e then t else t.defer k (.context pk v))
    else
      .next ((s.setPool pk { p with asks := rest, held := p.held ++ [(v, k)] }).setElem k
        { e with fir := { e.fir with ask := .granted v, holds := e.fir.holds ++ [(pk, v)] } })

/-! ## Token arrival -/

/-- The drains of a port whose end leaves them in error (08 R247). -/
def State.portDrains (s : State) (k i : Nat) : State :=
  (List.finRange 3).foldl (fun t g => if drainPort ((t.elem k).gens[g]) = i then t.drainEnds k g else t) s

/-- Tokens that a port queue holds (02 R36). -/
def portPlaces : Nat := 4

/-- The next token of a flume queue moves into the port queue it backs, once the element runs that load (13 R339). -/
def State.releaseToPort (s : State) (d : Dest) (colour : Nat) : State :=
  let k := elemKey d.die d.pos
  let e := s.elem k
  match s.chanAt d colour (some e.load) with
  | none => s
  | some c =>
    match c.head with
    | none => s
    | some t =>
      if e.configured && e.cut ≠ .saved && e.colour = colour && portMode e d.din ≠ .unbound &&
          (portQueue e d.din).length < portPlaces then
        let s := s.popChan d colour (some e.load) id
        let s := s.setElem k (setPortQueue e d.din (portQueue e d.din ++ [t]))
        ((s.settlePort k d.din 8).portDrains k d.din).checkMatch k
      else s

/-- The region compute die 0 of the open launch of a colour. -/
def State.regionDie0 (s : State) (colour : Nat) : Option Nat := (s.launch colour).bind fun l => l.dies.head?

/-- Whether an endpoint is the control channel of the colour's load: ordered, of15 of region die 0 (13 R336). -/
def State.isControl (s : State) (c : Chan) : Bool :=
  c.dest.kind = .outfall && c.dest.pos = 15 && c.kind = .ordered && s.regionDie0 c.colour = some c.dest.die

/-- Whether it is the repair channel: ordered, of14 of region die 0, in a load with a fault channel (15 R405). -/
def State.isRepair (s : State) (c : Chan) : Bool :=
  c.dest.kind = .outfall && c.dest.pos = 14 && c.kind = .ordered && s.regionDie0 c.colour = some c.dest.die &&
    (s.faultChannel c.colour (c.load.getD 0)).isSome

/-- EOS and switch tokens that a consumer takes are counted. -/
def countMarks (t : Token) (c : Chan) : Chan :=
  { c with eos := c.eos + (if t.kind = TokKind.eos then 1 else 0)
           switches := c.switches + (if t.kind = TokKind.switch then 1 else 0) }

/-- Tokens that the partner's headgate holds before its host opens the lid (16 R450). -/
def peerPlaces : Nat := 64

/-- A token leaves the module at an outfall, to the host or over the optical link to the headgate that it is bound to; EOS is
counted and leaves too, switch and weir tokens do not. A failed link holds it and raises LINK (15 R418), and the partner's
headgate back-pressures once it holds 64 tokens that its host has not taken (16 R450). -/
def State.leave (s : State) (c : Chan) (t : Token) : State :=
  let die := c.dest.die
  let key := die * 16 + c.dest.pos
  let o := s.out key
  let u := s.popChan c.dest c.colour c.load (countMarks t)
  if t.kind = .switch || t.kind = .weir then u
  else
    match o.peer with
    | none => u.setOut key { o with left := o.left ++ [t] }
    | some p =>
      if !crosses (s.link die 4) then s.linkHolds die 4 c.colour
      else if p.sent < peerPlaces + Config.peerTaken key s.free then
        let v := (u.setOut key { o with peer := some { p with sent := p.sent + 1 } }).bumpFree
        { v with hw := { v.hw with peerOut := v.hw.peerOut ++ [.token die c.dest.pos p.gate p.lid t] } }
      else s.bumpFree

/-- The next token of an outfall's flume queue leaves. -/
def State.releaseToOutfall (s : State) (d : Dest) (colour : Nat) : State :=
  match s.chans.find? fun c => c.dest = d && c.colour = colour && c.queue ≠ [] with
  | none => s
  | some c =>
    if s.isControl c || s.isRepair c then s
    else
      match c.head with
      | none => s
      | some t => s.leave c t

/-- Producers of a channel endpoint. -/
def State.chanProducers (s : State) (c : Chan) : Nat := s.producers c.colour (c.load.getD 0) c.dest

/-- Whether a producer is not in a load, and stays out of it until its colour has been cut and resumed: it sends no weir
there (15 R429). One without an active bank still takes an armed one. -/
def State.waitsOut (s : State) (colour load : Nat) (x : Source) : Bool :=
  let g := s.staging x.die colour
  g.weir &&
    match x.kind with
    | .element =>
      let e := s.elem (elemKey x.die x.pos)
      if e.configured then e.load ≠ load && e.cut ≠ .open
      else e.cut = .saved && e.load ≠ load || e.cut ≠ .saved && !(e.armed && g.armed)
    | .memActor =>
      let m := s.ma (x.die * 64 + x.pos)
      if m.saved || m.st ≠ .unconfigured then m.load ≠ load else !(m.stagedValid && g.armed)
    | .node =>
      let n := s.node (x.die * 1600 + x.pos)
      if n.saved || n.configured then n.load ≠ load else !(n.stagedValid && g.armed)
    | .headgate => s.binds.any fun b => b.source = x && b.colour = colour && b.load.isSome && b.load ≠ some load && !b.switched

/-- Whether a channel endpoint has counted its weirs (15 R421): a producer that has switched out of the load has sent its
switch token instead, and one that has not switched into it sends nothing before the resume (R429). -/
def State.weirsCounted (s : State) (c : Chan) : Bool :=
  s.chanProducers c ≤ c.weirs + c.passed +
    s.producersThat (s.waitsOut c.colour (c.load.getD 0)) c.colour (c.load.getD 0) c.dest

/-- An outfall that has counted its weirs reports with event 8 (15 R423). -/
def State.reportWeir (s : State) (d : Dest) (colour : Nat) (load : Option Nat) : State :=
  match s.chanAt d colour load with
  | none => s
  | some c =>
    let key := d.die * 16 + d.pos
    if d.kind = .outfall && c.weirs ≠ 0 && s.weirsCounted c && !(s.out key).weired then
      (s.setOut key { s.out key with weired := true }).latch d.die 8
    else s

/-- A packet is delivered into a flume queue, or the next token of a flume queue into what it backs. -/
def execTokenArrival (a : Arrival) (s : State) : Out :=
  match a with
  | .packet i =>
    match s.packets[i]? with
    | none => .next s
    | some p => .next ((s.arrive i).reportWeir p.dest p.colour p.load)
  | .release d colour =>
    match d.kind with
    | .element => .next (s.releaseToPort d colour)
    | .outfall => .next (s.releaseToOutfall d colour)
    | .memActor | .node => .next s

end Sys2Proof.Machine
end

