-- ==== Sys2Proof/Machine/Float.lean ====
section
/-! DEFINITION. Number formats and arithmetic (chapter 3): a value is exact and is rounded once. A finite value is held
as sign, magnitude and power of two; a rounding takes the magnitude as a ratio. -/

namespace Sys2Proof.Machine

/-- The floating-point formats of Table 3-1. -/
inductive FFormat where
  | fp32 | bf16 | fp16 | e5m2 | e4m3 | e2m1
deriving DecidableEq, Repr

/-- Width of an encoding in bits. -/
def FFormat.width : FFormat → Nat
  | .fp32 => 32
  | .bf16 | .fp16 => 16
  | .e5m2 | .e4m3 => 8
  | .e2m1 => 4

/-- Fraction width F. -/
def FFormat.frac : FFormat → Nat
  | .fp32 => 23
  | .bf16 => 7
  | .fp16 => 10
  | .e5m2 => 2
  | .e4m3 => 3
  | .e2m1 => 1

/-- Exponent bias. -/
def FFormat.bias : FFormat → Nat
  | .fp32 | .bf16 => 127
  | .fp16 | .e5m2 => 15
  | .e4m3 => 7
  | .e2m1 => 1

/-- Encoding of the largest finite magnitude. -/
def FFormat.maxEnc : FFormat → Nat
  | .fp32 => 0x7F7FFFFF
  | .bf16 => 0x7F7F
  | .fp16 => 0x7BFF
  | .e5m2 => 0x7B
  | .e4m3 => 0x7E
  | .e2m1 => 0x7

/-- NaN(Fm) (Table 3-2); FP4 has none, and a NaN becomes +0 there (Table 3-6). -/
def FFormat.nan : FFormat → Nat
  | .fp32 => 0x7FC00000
  | .bf16 => 0x7FC0
  | .fp16 => 0x7E00
  | .e5m2 => 0x7E
  | .e4m3 => 0x7F
  | .e2m1 => 0

/-- Encoding of +∞ in the formats that have one. -/
def FFormat.inf (fm : FFormat) : Nat := fm.maxEnc + 1

/-- The sign bit of an encoding. -/
def FFormat.sign (fm : FFormat) (bits : Nat) : Bool := bits / 2 ^ (fm.width - 1) % 2 = 1

/-- The magnitude bits of an encoding. -/
def FFormat.mag (fm : FFormat) (bits : Nat) : Nat := bits % 2 ^ (fm.width - 1)

/-- An encoding with a given sign and magnitude. -/
def FFormat.withSign (fm : FFormat) (neg : Bool) (mag : Nat) : Nat := (if neg then 2 ^ (fm.width - 1) else 0) + mag

/-- Val (03 R70): NaN, an infinity, or (-1)^neg × m × 2^e. -/
inductive FVal where
  | nan
  | inf (neg : Bool)
  | fin (neg : Bool) (m : Nat) (e : Int)
deriving DecidableEq, Repr

/-- Val(bits, Fm) (03 R70). -/
def valOf (fm : FFormat) (bits : Nat) : FVal :=
  let neg := fm.sign bits
  let mag := fm.mag bits
  let f := mag % 2 ^ fm.frac
  let e := mag / 2 ^ fm.frac
  if mag ≤ fm.maxEnc then
    if e = 0 then .fin neg f (1 - (fm.bias : Int) - fm.frac)
    else .fin neg (2 ^ fm.frac + f) ((e : Int) - fm.bias - fm.frac)
  else if fm = .e4m3 then .nan
  else if mag = fm.inf then .inf neg
  else .nan

/-- Over (03 R77); `exactInf` when the value is an infinity. -/
def overflow (fm : FFormat) (rm : Rm) (sat neg exactInf : Bool) : Nat :=
  match fm with
  | .e2m1 => fm.withSign neg fm.maxEnc
  | .e4m3 => if sat then fm.withSign neg fm.maxEnc else fm.nan
  | _ =>
    if sat then fm.withSign neg fm.maxEnc
    else
      match rm with
      | .rn | .rs => fm.withSign neg fm.inf
      | .rz => fm.withSign neg (if exactInf then fm.inf else fm.maxEnc)
      | .ru => fm.withSign neg (if exactInf || !neg then fm.inf else fm.maxEnc)
      | .rd => fm.withSign neg (if exactInf || neg then fm.inf else fm.maxEnc)

/-- Whether the magnitude above is chosen, where `n / d` is the position between two neighbours, n < d, and `k` the lower
neighbour (Table 3-3, R80). -/
def roundUp (rm : Rm) (neg : Bool) (k n d : Nat) (r : Word) : Bool :=
  if n = 0 then false
  else
    match rm with
    | .rn => 2 * n > d || (2 * n = d && k % 2 = 1)
    | .rz => false
    | .ru => !neg
    | .rd => neg
    | .rs => r.toNat < n * 2 ^ 32 / d

/-- floor(log2(n / d)) for positive n and d. -/
def floorLog2 (n d : Nat) : Int :=
  let l : Int := (n.log2 : Int) - d.log2
  if l ≥ 0 then if n ≥ d * 2 ^ l.toNat then l else l - 1
  else if n * 2 ^ (-l).toNat ≥ d then l else l - 1

/-- Round of the nonzero magnitude n / d with sign `neg` (03 R76). -/
def roundRatio (fm : FFormat) (rm : Rm) (sat neg : Bool) (n d : Nat) (r : Word) : Nat :=
  let emin : Int := 1 - fm.bias
  let x := max (floorLog2 n d) emin
  let sh := x - fm.frac
  let n' := if sh ≥ 0 then n else n * 2 ^ (-sh).toNat
  let d' := if sh ≥ 0 then d * 2 ^ sh.toNat else d
  let k := n' / d'
  let c := if roundUp rm neg k (n' % d') d' r then k + 1 else k
  let enc := (x - emin).toNat * 2 ^ fm.frac + c
  if enc > fm.maxEnc then overflow fm rm sat neg false else fm.withSign neg enc

/-- Round(v, Fm, m, sat) with the random word of the draw (03 R76, R80, R81). -/
def round (fm : FFormat) (rm : Rm) (sat : Bool) (r : Word) : FVal → Nat
  | .nan => fm.nan
  | .inf neg => overflow fm rm sat neg true
  | .fin neg m e =>
    if m = 0 then fm.withSign neg 0
    else if e ≥ 0 then roundRatio fm rm sat neg (m * 2 ^ e.toNat) 1 r
    else roundRatio fm rm sat neg m (2 ^ (-e).toNat) r

/-- Round in mode rn, no .sat. -/
def roundN (fm : FFormat) (v : FVal) : Nat := round fm .rn false 0 v

/-- CvtF (03 R81, Table 3-6). -/
def cvtF (bits : Nat) (fs fd : FFormat) (rm : Rm) (sat : Bool) (r : Word) : Nat :=
  round fd rm sat r (valOf fs bits)

/-! ## Exact arithmetic (03 R78, R79, R84) -/

/-- The sign changed. -/
def FVal.negate : FVal → FVal
  | .nan => .nan
  | .inf n => .inf !n
  | .fin n m e => .fin (!n) m e

/-- An exact sum; a zero takes its sign by R78. -/
def FVal.add : FVal → FVal → FVal
  | .nan, _ | _, .nan => .nan
  | .inf a, .inf b => if a = b then .inf a else .nan
  | .inf a, .fin _ _ _ => .inf a
  | .fin _ _ _, .inf b => .inf b
  | .fin na ma ea, .fin nb mb eb =>
    let e := min ea eb
    let a := ma * 2 ^ (ea - e).toNat
    let b := mb * 2 ^ (eb - e).toNat
    if na = nb then .fin na (a + b) e
    else if a > b then .fin na (a - b) e
    else if b > a then .fin nb (b - a) e
    else .fin false 0 e

/-- An exact difference. -/
def FVal.sub (x y : FVal) : FVal := x.add y.negate

/-- An exact product. -/
def FVal.mul : FVal → FVal → FVal
  | .nan, _ | _, .nan => .nan
  | .inf a, .inf b => .inf (a != b)
  | .inf a, .fin nb mb _ => if mb = 0 then .nan else .inf (a != nb)
  | .fin na ma _, .inf b => if ma = 0 then .nan else .inf (na != b)
  | .fin na ma ea, .fin nb mb eb => .fin (na != nb) (ma * mb) (ea + eb)

/-- The ratio of two positive magnitudes m × 2^e as numerator and denominator. -/
def ratioOf (ma : Nat) (ea : Int) (mb : Nat) (eb : Int) : Nat × Nat :=
  let e := ea - eb
  if e ≥ 0 then (ma * 2 ^ e.toNat, mb) else (ma, mb * 2 ^ (-e).toNat)

/-- Round(x / y, F, rn) (08 R226). -/
def roundDiv (fm : FFormat) : FVal → FVal → Nat
  | .nan, _ | _, .nan => fm.nan
  | .inf _, .inf _ => fm.nan
  | .inf a, .fin nb _ _ => overflow fm .rn false (a != nb) true
  | .fin na _ _, .inf b => fm.withSign (na != b) 0
  | .fin na ma ea, .fin nb mb eb =>
    if mb = 0 then if ma = 0 then fm.nan else overflow fm .rn false (na != nb) true
    else if ma = 0 then fm.withSign (na != nb) 0
    else
      let r := ratioOf ma ea mb eb
      roundRatio fm .rn false (na != nb) r.1 r.2 0

/-- The integer square root by bits: the largest root whose square is at most n, found from bit `i` downward. -/
def isqrtFrom (n root : Nat) : Nat → Nat
  | 0 => root
  | i + 1 =>
    let t := root + 2 ^ i
    isqrtFrom n (if t * t ≤ n then t else root) i

/-- floor(√n). -/
def isqrt (n : Nat) : Nat := isqrtFrom n 0 (n.log2 / 2 + 1)

/-- Round(√(n / d), F, rn) for positive n and d (03 R84). -/
def roundSqrtRatio (fm : FFormat) (n d : Nat) : Nat :=
  let emin : Int := 1 - fm.bias
  let x := max (floorLog2 n d / 2) emin
  let sh := 2 * (x - fm.frac)
  let n' := if sh ≥ 0 then n else n * 2 ^ (-sh).toNat
  let d' := if sh ≥ 0 then d * 2 ^ sh.toNat else d
  let k := isqrt (n' / d')
  let half := (4 * k * k + 4 * k + 1) * d'
  let c := if 4 * n' > half || (4 * n' = half && k % 2 = 1) then k + 1 else k
  let enc := (x - emin).toNat * 2 ^ fm.frac + c
  if enc > fm.maxEnc then overflow fm .rn false false false else enc

/-- FSQRT of a lane (08 R227, Table 8-3). -/
def fsqrtLane (fm : FFormat) (v : FVal) : Nat :=
  match v with
  | .nan => fm.nan
  | .inf neg => if neg then fm.nan else overflow fm .rn false false true
  | .fin neg m e =>
    if m = 0 then fm.withSign neg 0
    else if neg then fm.nan
    else
      let r := ratioOf m e 1 0
      roundSqrtRatio fm r.1 r.2

/-- FRCP of a lane. -/
def frcpLane (fm : FFormat) (v : FVal) : Nat := roundDiv fm (.fin false 1 0) v

/-- FRSQ of a lane. -/
def frsqLane (fm : FFormat) (v : FVal) : Nat :=
  match v with
  | .nan => fm.nan
  | .inf neg => if neg then fm.nan else 0
  | .fin neg m e =>
    if m = 0 then overflow fm .rn false neg true
    else if neg then fm.nan
    else
      let r := ratioOf 1 0 m e
      roundSqrtRatio fm r.1 r.2

/-- Fraction bits of the fixed-point series below (L9). -/
def seriesBits : Nat := 256

/-- Σ z^k / k! in fixed point, from the term t of index k on. -/
def expSeries (z : Nat) : Nat → Nat → Nat → Nat → Nat
  | 0, _, _, sum => sum
  | fuel + 1, k, t, sum =>
    let t' := t * z / 2 ^ seriesBits / (k + 1)
    expSeries z fuel (k + 1) t' (sum + t')

/-- Σ z^(2k+1) / (2k+1) in fixed point: atanh z. `p` is the present power, `z2` the square. -/
def atanhSeries (z2 : Nat) : Nat → Nat → Nat → Nat → Nat
  | 0, _, _, sum => sum
  | fuel + 1, k, p, sum => atanhSeries z2 fuel (k + 1) (p * z2 / 2 ^ seriesBits) (sum + p / (2 * k + 1))

/-- atanh(n / d) in fixed point for 0 ≤ n / d ≤ 1/3. -/
def atanhFix (n d : Nat) : Nat :=
  let z := n * 2 ^ seriesBits / d
  atanhSeries (z * z / 2 ^ seriesBits) 90 0 z 0

/-- ln 2 = 2 atanh(1/3) in fixed point. -/
def ln2Fix : Nat := 2 * atanhFix 1 3

/-- 2^(n / d) in fixed point, for 0 ≤ n / d < 1. -/
def exp2Fix (n d : Nat) : Nat :=
  expSeries (n * ln2Fix / d) 70 0 (2 ^ seriesBits) (2 ^ seriesBits)

/-- Round(2^i × n / d) in mode rn. -/
def roundScaled (fm : FFormat) (neg : Bool) (i : Int) (n d : Nat) : Nat :=
  if i ≥ 0 then roundRatio fm .rn false neg (n * 2 ^ i.toNat) d 0
  else roundRatio fm .rn false neg n (d * 2 ^ (-i).toNat) 0

/-- FEXP2 of a lane: exact for an integer, otherwise the rounded series (08 R227) (DEDUCED, L9). -/
def fexp2Lane (fm : FFormat) (v : FVal) : Nat :=
  match v with
  | .nan => fm.nan
  | .inf neg => if neg then 0 else overflow fm .rn false false true
  | .fin neg m e =>
    let r := ratioOf m e 1 0
    if r.1 ≥ 1024 * r.2 then if neg then 0 else overflow fm .rn false false false
    else
      let whole := r.1 / r.2
      let part := r.1 % r.2
      if part = 0 then roundScaled fm false (if neg then -(whole : Int) else whole) 1 1
      else if neg then roundScaled fm false (-(whole : Int) - 1) (exp2Fix (r.2 - part) r.2) (2 ^ seriesBits)
      else roundScaled fm false whole (exp2Fix part r.2) (2 ^ seriesBits)

/-- FLOG2 of a lane: exact for a power of two, otherwise the rounded series (08 R227) (DEDUCED, L9). -/
def flog2Lane (fm : FFormat) (v : FVal) : Nat :=
  match v with
  | .nan => fm.nan
  | .inf neg => if neg then fm.nan else overflow fm .rn false false true
  | .fin neg m e =>
    if m = 0 then overflow fm .rn false true true
    else if neg then fm.nan
    else
      let l := m.log2
      let whole : Int := l + e
      if m = 2 ^ l then
        if whole = 0 then 0 else roundRatio fm .rn false (whole < 0) whole.natAbs 1 0
      else
        -- the mantissa m / 2^l lies strictly between 1 and 2
        let frac := 2 * atanhFix (m - 2 ^ l) (m + 2 ^ l) * 2 ^ seriesBits / ln2Fix
        let total : Int := whole * 2 ^ seriesBits + frac
        roundRatio fm .rn false (total < 0) total.natAbs (2 ^ seriesBits) 0

/-! ## Comparison (03 R85, R86) -/

/-- Whether x is below y by value; NaN is below nothing, and the zeros are equal. -/
def FVal.lt : FVal → FVal → Bool
  | .nan, _ | _, .nan => false
  | .inf a, .inf b => a && !b
  | .inf a, .fin _ _ _ => a
  | .fin _ _ _, .inf b => !b
  | .fin na ma ea, .fin nb mb eb =>
    let e := min ea eb
    let a : Int := (if na then -1 else 1) * (ma * 2 ^ (ea - e).toNat : Nat)
    let b : Int := (if nb then -1 else 1) * (mb * 2 ^ (eb - e).toNat : Nat)
    a < b

/-- NaN. -/
def FVal.isNan : FVal → Bool
  | .nan => true
  | _ => false

/-- A zero. -/
def FVal.isZero : FVal → Bool
  | .fin _ m _ => m = 0
  | _ => false

/-- FMin and FMax on encodings (03 R85). -/
def fminmax (fm : FFormat) (wantMax : Bool) (x y : Nat) : Nat :=
  let vx := valOf fm x
  let vy := valOf fm y
  if vx.isNan && vy.isNan then fm.nan
  else if vx.isNan then y
  else if vy.isNan then x
  else
    let below := vx.lt vy || (vx.isZero && vy.isZero && fm.sign x && !fm.sign y)
    if wantMax then if below then y else x else if below then x else y

/-! ## Conversion to and from integers (03 R82, R83) -/

/-- SatS and SatU (03 R74), as the encoded n bits. -/
def saturate (v : Int) (n : Nat) (signed : Bool) : Nat :=
  let lo : Int := if signed then -(2 ^ (n - 1) : Nat) else 0
  let hi : Int := if signed then (2 ^ (n - 1) : Nat) - 1 else (2 ^ n : Nat) - 1
  ((max lo (min v hi)) % (2 ^ n : Nat)).toNat

/-- CvtI (03 R82): the n-bit encoding of the result. -/
def cvtI (v : FVal) (n : Nat) (signed : Bool) (rm : Rm) (r : Word) : Nat :=
  match v with
  | .nan => 0
  | .inf neg => saturate (if neg then -(2 ^ 70 : Nat) else (2 ^ 70 : Nat)) n signed
  | .fin neg m e =>
    let q := ratioOf m e 1 0
    let k := q.1 / q.2
    let c := if roundUp rm neg k (q.1 % q.2) q.2 r then k + 1 else k
    saturate (if neg then -(c : Int) else c) n signed

/-- The exact value of an integer. -/
def intVal (v : Int) : FVal := .fin (v < 0) v.natAbs 0

/-! ## Lanes (08 R223) -/

/-- Lane format of a fmt code. -/
def laneFormat : Fmt → FFormat
  | .f32 => .fp32
  | .bf16x2 => .bf16
  | .f16x2 => .fp16
  | .e4m3x4 => .e4m3
  | .e5m2x4 => .e5m2

/-- Lane count L. -/
def lanes : Fmt → Nat
  | .f32 => 1
  | .bf16x2 | .f16x2 => 2
  | .e4m3x4 | .e5m2x4 => 4

/-- Lane i of a word, with lanes of n bits. -/
def laneOf (n i : Nat) (w : Nat) : Nat := w / 2 ^ (n * i) % 2 ^ n

/-- A word made of lanes of n bits, lane 0 first. -/
def joinLanes (n : Nat) : List Nat → Nat
  | [] => 0
  | x :: xs => x % 2 ^ n + 2 ^ n * joinLanes n xs

/-- A lane-wise one-source operation. -/
def map1 (fmt : Fmt) (f : FFormat → Nat → Nat) (a : Word) : Word :=
  let fm := laneFormat fmt
  BitVec.ofNat 32 (joinLanes fm.width ((List.range (lanes fmt)).map fun i => f fm (laneOf fm.width i a.toNat)))

/-- A lane-wise two-source operation (08 R226). -/
def map2 (fmt : Fmt) (f : FFormat → Nat → Nat → Nat) (a b : Word) : Word :=
  let fm := laneFormat fmt
  BitVec.ofNat 32 (joinLanes fm.width ((List.range (lanes fmt)).map fun i =>
    f fm (laneOf fm.width i a.toNat) (laneOf fm.width i b.toNat)))

/-- A lane-wise three-source operation (08 R228). -/
def map3 (fmt : Fmt) (f : FFormat → Nat → Nat → Nat → Nat) (a b c : Word) : Word :=
  let fm := laneFormat fmt
  BitVec.ofNat 32 (joinLanes fm.width ((List.range (lanes fmt)).map fun i =>
    f fm (laneOf fm.width i a.toNat) (laneOf fm.width i b.toNat) (laneOf fm.width i c.toNat)))

/-- FADD of a lane (Table 8-2). -/
def faddLane (fm : FFormat) (x y : Nat) : Nat := roundN fm ((valOf fm x).add (valOf fm y))

/-- FSUB of a lane. -/
def fsubLane (fm : FFormat) (x y : Nat) : Nat := roundN fm ((valOf fm x).sub (valOf fm y))

/-- FMUL of a lane. -/
def fmulLane (fm : FFormat) (x y : Nat) : Nat := roundN fm ((valOf fm x).mul (valOf fm y))

/-- FDIV of a lane. -/
def fdivLane (fm : FFormat) (x y : Nat) : Nat := roundDiv fm (valOf fm x) (valOf fm y)

/-- FCPS of a lane. -/
def fcpsLane (fm : FFormat) (x y : Nat) : Nat := fm.withSign (fm.sign y) (fm.mag x)

/-- FMA, FMS and FNMA of a lane (08 R228). -/
def fmaLane (fm : FFormat) (negProd negAdd : Bool) (x y z : Nat) : Nat :=
  let p := (valOf fm x).mul (valOf fm y)
  let c := valOf fm z
  roundN fm ((if negProd then p.negate else p).add (if negAdd then c.negate else c))

/-- The class byte of FCLASS (08 R232). -/
def fclassLane (fm : FFormat) (x : Nat) : Nat :=
  let mag := fm.mag x
  let msb := mag / 2 ^ (fm.frac - 1) % 2
  let sign := if fm.sign x then 1 else 0
  let kind :=
    match valOf fm x with
    | .nan => 4
    | .inf _ => 3
    | .fin _ m _ => if m = 0 then 0 else if mag / 2 ^ fm.frac = 0 then 1 else 2
  16 * msb + 8 * sign + kind

/-! ## Furrow (03 R94) -/

/-- One multiply and shift of Furrow. -/
def furrowRound (x : Word) : Word :=
  let y := x * 0x6B2F4A35
  y ^^^ (y >>> 16)

/-- Furrow(ctr, key). -/
def furrow (ctr key : Word) : Word := furrowRound (furrowRound (ctr ^^^ key))

end Sys2Proof.Machine
end

