-- ==== Sys2Proof/Machine/Physical.lean ====
section
/-! DEFINITION. Physical addresses and translation (01 R9, R10, R18; 04 R99; 15 R410 to R412). -/

namespace Sys2Proof.Machine

/-! ## The physical address space (R10, R18) -/

/-- Die positions in serpentine order. -/
def serpentineOrder : List Nat := (List.range 64).map serpentine

/-- Whether a position is a compute die, or router-only. -/
def State.isCompute (s : State) (d : Nat) : Bool := (s.dieMap d).cls = .compute
def State.isRouter (s : State) (d : Nat) : Bool := (s.dieMap d).cls = .router

/-- The owner of the stack of a router-only die: the nearest compute die that precedes it in serpentine order, else the
first that follows it (R10). -/
def State.owner (s : State) (d : Nat) : Option Nat :=
  let before := serpentineOrder.takeWhile (· ≠ d)
  match (before.filter s.isCompute).getLast? with
  | some o => some o
  | none => serpentineOrder.find? s.isCompute

/-- The unattached stacks that a compute die owns, in serpentine order. -/
def State.unattached (s : State) (d : Nat) : List Nat :=
  serpentineOrder.filter fun x => s.isRouter x && s.owner x = some d

/-- Fields of a physical address. -/
def paSpace (pa : Nat) : Nat := pa / 2 ^ 48 % 16
def paDie (pa : Nat) : Nat := pa / 2 ^ 40 % 64
def paStack (pa : Nat) : Nat := pa / 2 ^ 36 % 16
def paOffset (pa : Nat) : Nat := pa % 2 ^ 36

/-- A physical address of a space, logical die, stack and offset. -/
def paOf (space ldie stack off : Nat) : Nat := space * 2 ^ 48 + ldie * 2 ^ 40 + stack * 2 ^ 36 + off

/-- Whether a logical die has a stack of a number. -/
def State.stackExists (s : State) (ldie stack : Nat) : Bool :=
  match s.dieOf ldie with
  | none => false
  | some d => stack = 0 || stack ≤ (s.unattached d).length

/-- Whether an address names an existing place of a space below 4, with no reserved bit set (R18). In an optical window
the stack field is a window number. -/
def State.paExists (s : State) (pa : Nat) : Bool :=
  pa / 2 ^ 52 = 0 && pa / 2 ^ 46 % 4 = 0 && paSpace pa ≤ 3 &&
    if paSpace pa = 2 then (s.dieOf (paDie pa)).isSome else s.stackExists (paDie pa) (paStack pa)

/-! ## The retirement window (18 R463) -/

/-- The window of the retirement list in die control space of L0: base and bytes. -/
def retireBase : Nat := 0x0003000FFFFF0000
def retireBytes : Nat := 65536

/-- A record of the list replaced; the list keeps no zero at its end. -/
def putWord : List DWord → Nat → DWord → List DWord
  | [], 0, v => if v = 0 then [] else [v]
  | [], n + 1, v => if v = 0 then [] else 0 :: putWord [] n v
  | _ :: t, 0, v => if v = 0 && t = [] then [] else v :: t
  | x :: t, n + 1, v =>
    let r := putWord t n v
    if x = 0 && r = [] then [] else x :: r

/-- Whether a physical address lies in the retirement window. -/
def inRetire (pa : Nat) : Bool := retireBase ≤ pa && pa < retireBase + retireBytes

/-- The record at an address of the window, and replacing it. -/
def State.retired (s : State) (pa : Nat) : Nat := (nth s.hw.retire ((pa - retireBase) / 8) 0).toNat
def State.setRetired (s : State) (pa v : Nat) : State :=
  { s with hw := { s.hw with retire := putWord s.hw.retire ((pa - retireBase) / 8) (BitVec.ofNat 64 v) } }

/-- The memory that a granule is read from: the window's record stands in the headworks. -/
def State.granuleMem (s : State) (pa : Nat) : Mem :=
  if inRetire pa then Memory.write [] (pa / 8 * 8) (s.retired pa) 8 else s.phys

/-- The granule put back from a memory; one that is written whole is good again (15 R414). -/
def State.putGranule (s : State) (pa : Nat) (m : Mem) (written : Bool) : State :=
  if inRetire pa then s.setRetired pa (Memory.read m (pa / 8 * 8) 8)
  else { s with phys := m, bad := if written then s.bad.erase (pa / 8) else s.bad }

/-! ## Translation (R410 to R412) -/

/-- What an access is (R412). -/
inductive Access where
  | read | write | atomic
deriving DecidableEq, Repr

/-- Table levels (Table 15-3): index of an address, table size, page size. -/
def levelIndex (va lvl : Nat) : Nat :=
  match lvl with
  | 0 => va / 2 ^ 44 % 8192
  | 1 => va / 2 ^ 30 % 16384
  | 2 => va / 2 ^ 21 % 512
  | _ => va / 2 ^ 16 % 32
def tableSize (lvl : Nat) : Nat :=
  match lvl with
  | 0 => 65536
  | 1 => 131072
  | 2 => 4096
  | _ => 256
def pageSize (lvl : Nat) : Nat :=
  match lvl with
  | 1 => 2 ^ 30
  | 2 => 2 ^ 21
  | _ => 2 ^ 16

/-- A translation that succeeded: the page, its size and its permissions. -/
structure Leaf where
  va : Nat
  size : Nat
  pa : Nat
  r : Bool
  w : Bool
  a : Bool
deriving DecidableEq, Repr

/-- What a walk comes to: a page, XLATE with its cause and level, or an uncorrectable entry at an address. -/
inductive Walked where
  | page (l : Leaf)
  | xlate (cause lvl : Nat)
  | uncorrectable (pa : Nat)
deriving DecidableEq, Repr

/-- Permission of a page for an access. -/
def Leaf.permits (l : Leaf) (k : Access) : Bool :=
  match k with
  | .read => l.r
  | .write => l.w
  | .atomic => l.a

/-- The walk from a table of level `lvl` on, with `fuel` levels left (R412). -/
def State.walkFrom (s : State) (va : Nat) (k : Access) : Nat → Nat → Nat → Walked
  | 0, lvl, _ => .xlate 2 lvl
  | fuel + 1, lvl, t =>
    let ea := t + 8 * levelIndex va lvl
    if s.bad.contains (ea / 8) then .uncorrectable ea
    else
      let e := Memory.read s.phys ea 8
      let ty := e % 4
      let addr := e / 2 ^ 8 % 2 ^ 44 * 2 ^ 8
      let perms := e / 4 % 8
      if ty = 0 then .xlate 1 lvl
      else if ty = 3 || e / 2 ^ 52 ≠ 0 || e / 2 ^ 5 % 8 ≠ 0 then .xlate 2 lvl
      else if ty = 1 then
        if lvl = 3 || perms ≠ 0 then .xlate 2 lvl
        else if addr % tableSize (lvl + 1) ≠ 0 || paSpace addr ≠ 0 || addr / 2 ^ 46 % 4 ≠ 0 ||
            !s.stackExists (paDie addr) (paStack addr) then .xlate 2 lvl
        else s.walkFrom va k fuel (lvl + 1) addr
      else if lvl = 0 || addr % pageSize lvl ≠ 0 then .xlate 2 lvl
      else
        let n := pageSize lvl
        let l : Leaf := { va := va / n * n, size := n, pa := addr, r := perms % 2 = 1, w := perms / 2 % 2 = 1,
                          a := perms / 4 = 1 }
        if l.permits k then .page l else .xlate 3 lvl

/-- The walk of a virtual address under the root of a colour on a die. -/
def State.walk (s : State) (die colour va : Nat) (k : Access) : Walked :=
  match (tabGet s.roots (die * 16 + colour)).getD none with
  | none => .xlate 4 0
  | some root => s.walkFrom (va % vaMask) k 4 0 root

/-- The physical address of a virtual address in a page. -/
def Leaf.address (l : Leaf) (va : Nat) : Nat := l.pa + (va % vaMask - l.va)

/-! ## Reach of an entry port (R99) -/

/-- Entry ports (14 Table 14-9). -/
inductive Port where
  | hbm | cn | ce | cs | cw | opt
deriving DecidableEq, Repr

/-- Whether an existing address is within the reach of an entry port of a memory actor on a die (Table 4-2); colour 0
also reaches space 3 through hbm, whatever the kind of the actor (L95). -/
def State.inReach (s : State) (die colour : Nat) (p : Port) (pa : Nat) : Bool :=
  s.paExists pa &&
    match p with
    | .hbm => (paSpace pa = 0 && paDie pa = s.ldie die && paStack pa = 0) || (colour = 0 && paSpace pa = 3)
    | .opt => paSpace pa = 2 && paDie pa = s.ldie die
    | _ => paSpace pa = 0 && (paStack pa ≠ 0 || paDie pa ≠ s.ldie die)

/-- The optical window that a space-2 address names, if it admits an access of n bytes (16 R449). -/
def State.windowFor (s : State) (die pa n : Nat) (k : Access) : Option Window :=
  let w := (tabGet s.windows (die * 16 + paStack pa)).getD Window.reset
  let ok := match k with
    | .read => w.r
    | .write => w.w
    | .atomic => w.a
  if w.valid && ok && paOffset pa + n ≤ w.len then some w else none

end Sys2Proof.Machine
end

