-- ==== Sys2Proof/Machine/MemActor.lean ====
section
/-! DEFINITION. Memory actors (04 R99 to R126; 14 R385, R386; 15 R401, R407, R413 to R415, R423): address sources,
units, gates, segments, requests, responses, completions, and their repairs. -/

namespace Sys2Proof.Machine

/-! ## Configuration (14 Table 14-9) -/

/-- Kinds of memory actor. -/
inductive MaKind where
  | read | write | atomic
deriving DecidableEq, Repr

/-- Atomic operations (04 Table 4-6). -/
inductive AtomicOp where
  | add | fadd | min | max | minz | maxz | fmin | fmax | swap | cas
deriving DecidableEq, Repr

/-- A 64-byte block as its fields. -/
structure MaCfg where
  vbase : Nat
  len : Nat
  off : Nat
  cnt : List Nat
  str : List Int
  gate : Nat
  clevel : Nat
  scope : Nat
  unit : Nat
  index : Bool
  port : Port
  op : AtomicOp
  kind : MaKind
deriving DecidableEq, Repr

/-- Bytes of a unit code. -/
def unitBytes (n : Nat) : Nat :=
  match n with
  | 0 => 1
  | 1 => 2
  | 2 => 4
  | 3 => 8
  | 4 => 512
  | _ => 528

/-- The fields of a block. -/
def maCfg (m : Mem) : MaCfg :=
  let c := Memory.read m 56 8
  { vbase := Memory.read m 0 8, len := Memory.read m 8 8 % 2 ^ 49, off := Memory.read m 16 8 % 2 ^ 48,
    cnt := (List.range 4).map fun i => Memory.read m (24 + 4 * i) 4,
    str := (List.range 4).map fun i => (BitVec.ofNat 32 (Memory.read m (40 + 4 * i) 4)).toInt,
    gate := c / 2 ^ 19 % 8, clevel := c / 2 ^ 16 % 8, scope := c / 2 ^ 13 % 8, unit := unitBytes (c / 2 ^ 10 % 8),
    index := c / 2 ^ 9 % 2 = 1,
    port := (match c / 2 ^ 6 % 8 with
      | 0 => .hbm
      | 1 => .cn
      | 2 => .ce
      | 3 => .cs
      | 4 => .cw
      | _ => .opt),
    op := (match c / 2 ^ 2 % 16 with
      | 0 => .add
      | 1 => .fadd
      | 2 => .min
      | 3 => .max
      | 4 => .minz
      | 5 => .maxz
      | 6 => .fmin
      | 7 => .fmax
      | 8 => .swap
      | _ => .cas),
    kind := (match c % 4 with
      | 0 => .read
      | 1 => .write
      | _ => .atomic) }

/-- The access of a kind of actor (R412). -/
def MaKind.access : MaKind → Access
  | .read => .read
  | .write => .write
  | .atomic => .atomic

/-- Whether a unit is a tile, and its 8-byte granules. -/
def isTile (c : MaCfg) : Bool := 512 ≤ c.unit
def granules (c : MaCfg) : Nat := if isTile c then c.unit / 8 else 1

/-- Requests of one run. -/
def runTotal (c : MaCfg) : Nat := c.cnt.foldl (· * ·) 1

/-- Loop counter l of the request at index i of a run; loop 0 runs fastest (R103). -/
def loopIdx (c : MaCfg) (l i : Nat) : Nat := i / (c.cnt.take l).foldl (· * ·) 1 % nth c.cnt l 1

/-- The address of the request at index i of a run from a start offset, exact (R103). A start offset that is no multiple of the
alignment gives addresses that are none, and such requests are performed as they are (L93). -/
def patternVa (c : MaCfg) (start : Nat) (i : Nat) : Int :=
  c.vbase + c.off + start + ((List.range 4).map fun l => (loopIdx c l i : Int) * nth c.str l 0).sum

/-- The highest loop level that closes at the request at index i: those whose own and every inner counter is last. -/
def closesLoop (c : MaCfg) (i : Nat) : Option Nat :=
  ((List.range 4).filter fun l => (List.range (l + 1)).all fun m => loopIdx c m i + 1 = nth c.cnt m 1).getLast?

/-- The level of the stop that follows the request at index i of a run, 0 for none (R105). -/
def stopLevel (c : MaCfg) (i : Nat) : Nat :=
  match closesLoop c i with
  | some l => if isTile c then l + 2 else l + 1
  | none => if isTile c then 1 else 0

/-- Whether an exact address leaves the declared range. -/
def leavesRange (c : MaCfg) (va : Int) : Bool := va < c.vbase || va + c.unit > c.vbase + c.len

/-! ## Inputs and outputs -/

/-- Key of a slot. -/
def maKey (die slot : Nat) : Nat := die * 64 + slot

/-- Input numbers (14 R387). -/
def inReq : Nat := 0
def inData : Nat := 1
def inCmp : Nat := 2
def inStart : Nat := 3
def inAfter : Nat := 4

/-- An input as a consumer endpoint; an output, 0 resp or 1 done, as a source. -/
def maDest (die slot i : Nat) : Dest := { die := die, kind := .memActor, pos := slot, din := i }
def maSource (die slot o : Nat) : Source := { die := die, kind := .memActor, pos := slot, out := o }

/-- The channel endpoint of an input, if it is bound. -/
def State.maIn (s : State) (die slot i : Nat) : Option Chan :=
  let m := s.ma (maKey die slot)
  s.chanAt (maDest die slot i) m.colour (some m.load)

/-- Whether an input is bound. -/
def State.maBound (s : State) (die slot i : Nat) : Bool := (s.maIn die slot i).isSome

/-- The token at the head of an input. -/
def State.maHead (s : State) (die slot i : Nat) : Option Token := (s.maIn die slot i).bind Chan.head

/-- Taking the head of an input; EOS and switch tokens are counted. -/
def State.maPop (s : State) (die slot i : Nat) : State :=
  let m := s.ma (maKey die slot)
  match s.maHead die slot i with
  | none => s
  | some t =>
    s.popChan (maDest die slot i) m.colour (some m.load) (countMarks t)

/-- Whether every producer of an input has sent EOS, the one at its head included. -/
def State.maEosNext (s : State) (die slot i : Nat) : Bool :=
  match s.maIn die slot i with
  | none => false
  | some c => s.chanProducers c ≤ c.eos + 1

/-- The binding of an output. -/
def State.maOut (s : State) (die slot o : Nat) : Option Bind :=
  s.srcBind (maSource die slot o) (s.ma (maKey die slot)).colour (s.ma (maKey die slot)).load

/-- Changing a slot. -/
def State.mapMa (s : State) (die slot : Nat) (f : MemActor → MemActor) : State :=
  s.setMa (maKey die slot) (f (s.ma (maKey die slot)))

/-! ## Stalls (15 R401, R414) -/

/-- Word 3 of a memory actor's record. -/
def maWord3 (va cause lvl : Nat) : DWord := BitVec.ofNat 64 (va % vaMask * 2 ^ 7 + cause * 4 + lvl)

/-- Word 2. -/
def maWord2 (tag : Word) (index : Nat) : DWord := BitVec.ofNat 64 (tag.toNat * 2 ^ 32 + index % 2 ^ 32)

/-- A fault stalls a slot at a request, with a record of its own (R414, R415). -/
def State.stallMa (s : State) (die slot : Nat) (kind : StallKind) (code : Nat) (tag : Word) (index : Nat) (w3 : DWord) :
    State :=
  let m := s.ma (maKey die slot)
  let seq := ((tabGet s.seqs die).getD 0).toNat
  let s := s.mapMa die slot fun m =>
    { m with
      st := .stalled
      stall := some { kind := kind, code := code, seq := seq, tag := tag, index := index,
                      halted := m.st = .halted || m.stall.any Stall.halted } }
  s.report die m.colour m.load .stall code .memActor slot 0 (maWord2 tag index) w3

/-- Causes of ACCESS in [4:2], and its marks in [1:0] (R401). -/
def causeRange : Nat := 1
def causeReach : Nat := 2
def lvlUnit : Nat := 1
def lvlAfter : Nat := 2

/-! ## Segments and gates (04 R109, R110) -/

/-- The completion segment that is open. -/
def openSeg (m : MemActor) : Seg :=
  match m.segs.getLast? with
  | some x => if x.closed.isNone then x else { num := m.segNo, units := 0, closed := none }
  | none => { num := m.segNo, units := 0, closed := none }

/-- The segments with the open one replaced. -/
def putSeg (m : MemActor) (x : Seg) : MemActor :=
  { m with segs := (m.segs.filter fun y => y.num ≠ x.num) ++ [x], segNo := Nat.max m.segNo (x.num + 1) }

/-- One more unit in the open segment. -/
def countUnit (m : MemActor) : MemActor := putSeg m { openSeg m with units := (openSeg m).units + 1 }

/-- The open segment closed with a tag. -/
def closeSeg (m : MemActor) (tag : Word) : MemActor := putSeg m { openSeg m with closed := some tag }

/-- A gated segment ends at a stop of a level (R110). -/
def passGate (c : MaCfg) (m : MemActor) (level : Nat) : MemActor :=
  if c.gate ≠ 0 && c.gate ≤ level then { m with gate := m.gate + 1 } else m

/-- A stop on data: its completion segment and its gated segment. -/
def dataStop (c : MaCfg) (m : MemActor) (level : Nat) (tag : Word) : MemActor :=
  passGate c (if c.clevel ≤ level then closeSeg m tag else m) level

/-- Whether the gated segment of the next request is released (R110). -/
def State.gateOpen (s : State) (die slot : Nat) : Bool :=
  let m := s.ma (maKey die slot)
  !s.maBound die slot inAfter || m.skipRest || m.gate < m.after

/-! ## Addresses (04 R103, R104) -/

/-- What the address source offers next. -/
inductive Addr where
  | none
  | ended
  | at (va : Int) (tag : Word) (stops : Nat)
deriving DecidableEq, Repr

/-- The next address of a slot. -/
def State.nextAddr (s : State) (die slot : Nat) : Addr :=
  let m := s.ma (maKey die slot)
  let c := maCfg m.active
  if m.dropAddrs then .ended
  else if c.index then
    match s.maHead die slot inReq with
    | some t => if t.kind = .data then .at (c.vbase + t.payload.toNat * c.unit) t.tag (if isTile c then 1 else 0) else .none
    | none => if m.reqEnd then .ended else .none
  else
    match m.run with
    | some (start, tag, i) => .at (patternVa c start.toNat i) tag (stopLevel c i)
    | none => if s.maBound die slot inStart then if m.startEnd then .ended else .none else if m.ran then .ended else .none

/-- The address taken: the run goes on, or the req token is consumed. -/
def State.takeAddr (s : State) (die slot : Nat) : State :=
  let m := s.ma (maKey die slot)
  let c := maCfg m.active
  if c.index then s.maPop die slot inReq
  else
    s.mapMa die slot fun m =>
      match m.run with
      | some (start, tag, i) => { m with run := if i + 1 < runTotal c then some (start, tag, i + 1) else none }
      | none => m

/-- A request formed from an address and, for a write or atomic actor, its unit. -/
def formedReq (c : MaCfg) (m : MemActor) (va : Int) (tag : Word) (stops : Nat) : Req :=
  { index := m.nextIdx, va := va.toNat % 2 ^ 64, pas := [], tag := tag, data := m.unit.getD [], cmp := m.cmpVal.getD 0,
    left := List.range (granules c), got := [], seg := (openSeg m).num, stops := stops, st := .issued,
    outOfRange := leavesRange c va, skip := m.skipRest || m.skipUnit, acked := false, stale := false }

/-- The slot with that request as its next one. The stops of R105 end the gated segments of a read pattern actor; those of a
read index actor end at the stops on req alone (R110). -/
def takeUnit (c : MaCfg) (m : MemActor) (r : Req) : MemActor :=
  let m := { m with cur := some r, nextIdx := m.nextIdx + 1, unit := none, skipUnit := false, cmpVal := none,
                    resp := m.resp ++ [.req r.index] }
  match c.kind with
  | .read => if c.index then m else passGate c m r.stops
  | _ =>
    match m.mark with
    | some (level, tag) => dataStop c { countUnit m with mark := none } level tag
    | none => countUnit m

/-- Whether a slot forms and issues requests: it is running. When a request faults, no later request of the actor is issued
until the fault is repaired (R118). -/
def canForm (m : MemActor) : Bool := m.weir = .none && !m.saved && m.drained && m.st = .running

/-- Whether a second fault would find a stall in force. -/
def isStalled (m : MemActor) : Bool := m.stall.isSome

/-- A token that is not data at the head of req (R104): a stop is passed on by a read actor and discarded by another. -/
def State.reqMarker (s : State) (die slot : Nat) (t : Token) : State :=
  let c := maCfg (s.ma (maKey die slot)).active
  let last := s.maEosNext die slot inReq
  let u := s.maPop die slot inReq
  match t.kind with
  | .stop =>
    if c.kind = .read then u.mapMa die slot fun m => passGate c { m with resp := m.resp ++ [.tok t] } t.level else u
  | .eos => u.mapMa die slot fun m => { m with reqEnd := m.reqEnd || last }
  | .data => if (s.ma (maKey die slot)).dropAddrs then u else s
  | _ => u

/-- Whether an actor needs a compare value. -/
def needsCmp (c : MaCfg) : Bool := c.kind = .atomic && c.op = .cas

/-- The next request of a read actor. -/
def State.formRead (s : State) (die slot : Nat) : State :=
  let m := s.ma (maKey die slot)
  let c := maCfg m.active
  match s.nextAddr die slot with
  | .at va tag stops =>
    if s.gateOpen die slot then (s.mapMa die slot fun m => takeUnit c m (formedReq c m va tag stops)).takeAddr die slot
    else if m.afterEnd && !isStalled m then
      s.stallMa die slot .afterEnded cAccess tag m.nextIdx (maWord3 va.toNat 0 lvlAfter)
    else s
  | _ => s

/-- The next request of a write or atomic actor: addresses and units pair one for one (R108). -/
def State.formWrite (s : State) (die slot : Nat) : State :=
  let m := s.ma (maKey die slot)
  let c := maCfg m.active
  let noCmp := needsCmp c && m.cmpVal.isNone
  match s.nextAddr die slot with
  | .at va tag stops =>
    if m.unit.isSome && !noCmp then
      if s.gateOpen die slot then (s.mapMa die slot fun m => takeUnit c m (formedReq c m va tag stops)).takeAddr die slot
      else if m.afterEnd && !isStalled m then
        s.stallMa die slot .afterEnded cAccess tag m.nextIdx (maWord3 va.toNat 0 lvlAfter)
      else s
    else if ((m.unit.isNone && m.dataEnd) || (m.unit.isSome && noCmp && m.cmpEnd)) && !isStalled m then
      s.stallMa die slot .missingUnit cAccess tag m.nextIdx (maWord3 va.toNat 0 lvlUnit)
    else s
  | .ended =>
    if (m.unit.isSome || m.cmpVal.isSome) && !isStalled m then
      s.stallMa die slot .surplusUnit cAccess 0 m.nextIdx (maWord3 0 0 lvlUnit)
    else s
  | .none => s

/-! ## Translation and issue (04 R99; 15 R412 to R414) -/

/-- The virtual address of granule g of a request. -/
def granuleVa (r : Req) (g : Nat) : Nat := r.va + 8 * g

/-- The micro-TLB entry that translates an address for a colour with a permission (R413). -/
def tlbFind (m : MemActor) (va : Nat) (k : Access) : Option Tlb :=
  let v := va % vaMask
  m.tlb.find? fun t =>
    t.colour = m.colour && t.va ≤ v && v < t.va + t.size &&
      match k with
      | .read => t.r
      | .write => t.w
      | .atomic => t.a

/-- Entries of a micro-TLB. -/
def tlbSize : Nat := 32

/-- A leaf kept in the micro-TLB; the oldest gives way (R413: not architected). -/
def keepLeaf (m : MemActor) (l : Leaf) : MemActor :=
  let t : Tlb := { colour := m.colour, va := l.va, size := l.size, pa := l.pa, r := l.r, w := l.w, a := l.a }
  { m with tlb := (if tlbSize ≤ m.tlb.length then m.tlb.tail else m.tlb) ++ [t] }

/-- The physical address of each granule, if the micro-TLB has every page. -/
def translateAll (m : MemActor) (c : MaCfg) (r : Req) : Option (List Nat) :=
  (List.range (granules c)).mapM fun g =>
    (tlbFind m (granuleVa r g) c.kind.access).map fun t => t.pa + (granuleVa r g % vaMask - t.va)

/-- Bytes that one granule of a request covers. -/
def granuleBytes (c : MaCfg) : Nat := if isTile c then 8 else c.unit

/-- Whether two requests touch a common byte. -/
def overlaps (c : MaCfg) (a b : Req) : Bool :=
  a.pas.any fun x => b.pas.any fun y => x < y + granuleBytes c && y < x + granuleBytes c

/-- Whether every granule is within reach of the entry port and, through opt, inside its window. -/
def State.reaches (s : State) (die : Nat) (m : MemActor) (c : MaCfg) (pas : List Nat) : Bool :=
  pas.all fun pa =>
    s.inReach die m.colour c.port pa &&
      (c.port ≠ .opt || (s.windowFor die pa (granuleBytes c) c.kind.access).isSome)

/-- A request that is performed as SKIP states: nothing is read or stored (15 Table 15-2). -/
def skipped (r : Req) : Req := { r with left := [], got := [], st := .performed, skip := true, acked := true }

/-- A granule that is in the way of an issue: a later request that overlaps the bytes of one with a memory error is not
issued (R414). -/
def blockedBy (c : MaCfg) (m : MemActor) (r : Req) : Bool :=
  m.flight.any fun x => x.st = .uncorrectable && overlaps c x r

/-! ## Requests, responses and acknowledgements as packets (04 R100; 13 R348 to R353) -/

/-- Whether a packet is the request of a slot's request for a 64-byte block, a request of it at all, or an answer to it. -/
def isBlockRequest (die slot index block : Nat) : Cargo → Bool
  | .request d n i b _ => d = die && n = slot && i = index && b = block
  | _ => false
def requestOf (die slot index : Nat) : Cargo → Bool
  | .request d n i _ _ => d = die && n = slot && i = index
  | _ => false
def answerTo (die slot index : Nat) : Cargo → Bool
  | .response d n i _ _ => d = die && n = slot && i = index
  | _ => false

/-- Whether every answer to a request has come back. -/
def State.answered (s : State) (die slot index : Nat) : Bool := !s.packets.any fun p => answerTo die slot index p.cargo

/-- The 64-byte block of a physical address. -/
def blockOf (pa : Nat) : Nat := pa / 64

/-- The blocks that a request touches. -/
def reqBlocks (r : Req) : List Nat := r.pas.foldl (fun l pa => insertNat l (blockOf pa)) []

/-- Data flits for the bytes of a request in a block, 16 bytes to a flit. -/
def blockFlits (c : MaCfg) (r : Req) (block : Nat) : Nat :=
  (granuleBytes c * (r.pas.countP fun pa => blockOf pa = block) + 15) / 16

/-- Data flits of a request packet: what is written, or nothing; of its answer: what is read, or nothing. -/
def requestFlits (c : MaCfg) (r : Req) (block : Nat) : Nat := if c.kind = .read then 0 else blockFlits c r block
def answerFlits (c : MaCfg) (r : Req) (block : Nat) : Nat := if c.kind = .write then 0 else blockFlits c r block

/-- The die whose memory controller is home to a physical address: the die with the stack; for an optical window the
actor's own, at whose port the request leaves (01 R10). -/
def State.homeDie (s : State) (die pa : Nat) : Nat :=
  if paSpace pa = 2 then die
  else
    let d := (s.dieOf (paDie pa)).getD die
    if paStack pa = 0 then d else nth (s.unattached d) (paStack pa - 1) d

/-- An uncorrectable error counts at the stack that it stands in (18 R469). -/
def State.countBad (s : State) (die pa : Nat) : State := s.countUe (s.homeDie die pa)

/-- The link that a request crosses first (R100). -/
def firstLink (p : Port) : Option Nat :=
  match p with
  | .hbm => none
  | .cn => some 0
  | .ce => some 1
  | .cs => some 2
  | .cw => some 3
  | .opt => some 4

/-- The request packets of an issued request leave, class 2. -/
def State.sendRequest (s : State) (die slot : Nat) (r : Req) : State :=
  let m := s.ma (maKey die slot)
  let c := maCfg m.active
  (reqBlocks r).foldl (fun t b =>
    t.sendPacket 2 m.colour (.request die slot r.index b (requestFlits c r b)) (t.attach die) (t.attach (t.homeDie die (64 * b)))
      (firstLink c.port)) s

/-- Whether the request packet for a block has reached its home controller, or the optical port. -/
def State.requestHome (s : State) (die slot index block : Nat) : Bool :=
  s.packets.all fun p => !isBlockRequest die slot index block p.cargo || (p.here = p.target && (p.via.isNone || p.via = some 4))

/-- Whether granule g is the last of its block that a request has still to perform. -/
def lastOfBlock (r : Req) (g : Nat) : Bool :=
  !(r.left.erase g).any fun h => blockOf (nth r.pas h 0) = blockOf (nth r.pas g 0)

/-- The last granule of a block is performed: the request packet is consumed, and the response or acknowledgement leaves,
class 1. -/
def State.answerBlock (s : State) (die slot : Nat) (r : Req) (g : Nat) : State :=
  let m := s.ma (maKey die slot)
  let block := blockOf (nth r.pas g 0)
  if lastOfBlock r g then
    (s.consume (isBlockRequest die slot r.index block)).sendPacket 1 m.colour
      (.response die slot r.index block (answerFlits (maCfg m.active) r block)) (s.attach (s.homeDie die (nth r.pas g 0)))
      (s.attach die) none
  else s

/-- Whether the answer that performing granule g sends finds a buffer: in the actor's own die the space reserved for it, at
another home controller room for its class in the router there. A controller holds a request until then (R353). -/
def State.answerRoom (s : State) (die slot : Nat) (r : Req) (g : Nat) : Bool :=
  let home := s.attach (s.homeDie die (nth r.pas g 0))
  let block := blockOf (nth r.pas g 0)
  !lastOfBlock r g || home = s.attach die ||
    s.routerHasRoom home
      { cls := 1, colour := 0, load := none, chan := 0, seq := 0, dest := { die := die, kind := .memActor, pos := slot, din := 0 },
        cargo := .response die slot r.index block (answerFlits (maCfg (s.ma (maKey die slot)).active) r block), here := home,
        target := s.attach die, via := none, escape := false, refused := 0 }

/-- Bytes of the memory actor buffers of a die (01 Table 1-1). -/
def answerBytesPerDie : Nat := 2 ^ 23

/-- Bytes that the answers of a request take in the buffers: a header flit and the data flits of each. -/
def answerBytes (c : MaCfg) (r : Req) : Nat := ((reqBlocks r).map fun b => 16 * (1 + answerFlits c r b)).sum

/-- Bytes of a die's memory actor buffers that are reserved (13 R350). -/
def State.reservedBytes (s : State) (die : Nat) : Nat :=
  ((s.mas.filter fun x => x.1 / 64 = die).map fun x => (x.2.flight.map (answerBytes (maCfg x.2.active))).sum).sum

/-- Whether a slot can reserve space for the answers of a request: its own share, and the buffers of its die (L15). -/
def State.canReserve (s : State) (die slot : Nat) (r : Req) : Bool :=
  let m := s.ma (maKey die slot)
  m.flight.length ≤ Config.responseRoom && s.reservedBytes die + answerBytes (maCfg m.active) r ≤ answerBytesPerDie

/-- The formed request issues once it has passed its checks and has space reserved for its answer (13 R350). -/
def State.issueCur (s : State) (die slot : Nat) (r : Req) : State :=
  let m := s.ma (maKey die slot)
  let c := maCfg m.active
  if r.skip then s.mapMa die slot fun m => { m with cur := none, flight := m.flight ++ [skipped r] }
  else if r.outOfRange then
    if isStalled m then s
    else s.stallMa die slot .request cAccess r.tag r.index (maWord3 r.va causeRange 0)
  else
    match translateAll m c r with
    | none => s
    | some pas =>
      let r' := { r with pas := pas }
      if !s.reaches die m c pas then
        if isStalled m then s
        else s.stallMa die slot .request cAccess r.tag r.index (maWord3 r.va causeReach 0)
      else if blockedBy c m r' || !s.canReserve die slot r' then s
      else (s.mapMa die slot fun m => { m with cur := none, flight := m.flight ++ [r'] }).sendRequest die slot r'

/-- A memory actor forms its next request and issues it: one event does what it can of the two. -/
def execMemoryRequestIssue (die slot : Nat) (s : State) : Out :=
  let m := s.ma (maKey die slot)
  let c := maCfg m.active
  if !canForm m then .next s
  else
    match m.cur with
    | some r => .next (s.issueCur die slot r)
    | none =>
      let markerAtReq := c.index && (match s.maHead die slot inReq with
        | some t => t.kind ≠ .data || m.dropAddrs
        | none => false)
      if markerAtReq then
        match s.maHead die slot inReq with
        | some t => .next (s.reqMarker die slot t)
        | none => .next s
      else
        let u := if c.kind = .read then s.formRead die slot else s.formWrite die slot
        match (u.ma (maKey die slot)).cur with
        | some r => .next (if canForm (u.ma (maKey die slot)) then u.issueCur die slot r else u)
        | none => .next u

/-- The first granule of the formed request whose page the micro-TLB misses. -/
def missing (m : MemActor) : Option (Req × Nat) :=
  let c := maCfg m.active
  match m.cur with
  | none => none
  | some r =>
    if !canForm m || r.skip || r.outOfRange then none
    else ((List.range (granules c)).find? fun g => (tlbFind m (granuleVa r g) c.kind.access).isNone).map fun g => (r, g)

/-- The least page of an address: what misses of several actors share (R413). -/
def pageOf (va : Nat) : Nat := va % vaMask / leastPage * leastPage

/-- Walks that a die's walker has outstanding. -/
def walkLimit : Nat := 256

/-- The colours and pages of the walks of a die, each once. -/
def State.walks (s : State) (die : Nat) : List (Nat × Nat) :=
  ((s.mas.filter fun x => x.1 / 64 = die).filterMap fun x => x.2.walking.map fun p => (x.2.colour, p)).foldl
    (fun l w => if l.contains w then l else w :: l) []

/-- A walk ends for a slot that waits for it: a page is kept in its micro-TLB, a fault stalls it, with a record of its own
(R415). -/
def State.walkEnds (s : State) (die slot : Nat) : State :=
  let m := { s.ma (maKey die slot) with walking := none }
  let s := s.setMa (maKey die slot) m
  match missing m with
  | none => s
  | some (r, g) =>
    match s.walk die m.colour (granuleVa r g) (maCfg m.active).kind.access with
    | .page l => s.mapMa die slot fun m => keepLeaf m l
    | .xlate cause lvl =>
      if isStalled m then s else s.stallMa die slot .request cXlate r.tag r.index (maWord3 r.va cause lvl)
    | .uncorrectable pa =>
      if isStalled m then s else (s.stallMa die slot .request cHbm r.tag r.index (maWord3 r.va 0 0)).countBad die pa

/-- The walker of a die: the miss of a slot begins a walk, or joins that of its page, if the walker has room; a walk that
has begun ends for every slot that waits for it (R412, R413). -/
def execAddressTranslation (die slot : Nat) (s : State) : Out :=
  let m := s.ma (maKey die slot)
  match m.walking with
  | some p =>
    .next ((((List.range 64).filter fun n =>
      (s.ma (maKey die n)).walking = some p && (s.ma (maKey die n)).colour = m.colour)).foldl
      (fun t n => t.walkEnds die n) s)
  | none =>
    match missing m with
    | none => .next s
    | some (r, g) =>
      let p := pageOf (granuleVa r g)
      if (s.walks die).contains (m.colour, p) || (s.walks die).length < walkLimit then
        .next (s.mapMa die slot fun m => { m with walking := some p })
      else .next s

/-! ## Input tokens (04 R103, R108, R110) -/

/-- A token on start: data starts one run once the last has ended, a stop is ignored. A slot that a switch has brought in
takes none before its drained notice (13 R340). -/
def execStartToken (die slot : Nat) (s : State) : Out :=
  let m := s.ma (maKey die slot)
  match s.maHead die slot inStart with
  | none => .next s
  | some t =>
    if m.st ≠ .running || m.saved || !m.drained then .next s
    else
      match t.kind with
      | .data =>
        if m.dropAddrs then .next (s.maPop die slot inStart)
        else if m.run.isSome then .next s
        else .next ((s.maPop die slot inStart).mapMa die slot fun m => { m with run := some (t.payload, t.tag, 0), ran := true })
      | .eos =>
        let last := s.maEosNext die slot inStart
        .next ((s.maPop die slot inStart).mapMa die slot fun m => { m with startEnd := m.startEnd || last })
      | _ => .next (s.maPop die slot inStart)

/-- A token on after: a data token releases the next gated segment, a stop releases none. -/
def execAfterToken (die slot : Nat) (s : State) : Out :=
  let m := s.ma (maKey die slot)
  match s.maHead die slot inAfter with
  | none => .next s
  | some t =>
    if m.st = .unconfigured || m.saved then .next s
    else
      let last := s.maEosNext die slot inAfter
      .next ((s.maPop die slot inAfter).mapMa die slot fun m =>
        match t.kind with
        | .data => { m with after := m.after + 1 }
        | .eos => { m with afterEnd := m.afterEnd || last }
        | _ => m)

/-- The fault of a unit whose flits do not fit (R108): nothing of it is stored. Where its address has not come yet, the record's
tag and address are zero: R108 names neither (L28). -/
def State.badUnit (s : State) (die slot : Nat) : State :=
  let m := s.ma (maKey die slot)
  let p := match s.nextAddr die slot with
    | .at va tag _ => (va.toNat, tag)
    | _ => (0, 0)
  s.stallMa die slot .badUnit cAccess p.2 m.nextIdx (maWord3 p.1 0 lvlUnit)

/-- The low bytes of a payload that a unit takes. -/
def lowBytes (c : MaCfg) (v : DWord) : DWord := BitVec.ofNat 64 (v.toNat % 2 ^ (8 * c.unit))

/-- A token at the head of data, when no unit waits for its address (R108, R109). -/
def State.dataToken' (s : State) (die slot : Nat) (t : Token) : State :=
  let m := s.ma (maKey die slot)
  let c := maCfg m.active
  let full := m.flits.length = granules c
  let pop := s.maPop die slot inData
  match t.kind with
  | .data =>
    if !isTile c then pop.mapMa die slot fun m => { m with unit := some [lowBytes c t.payload] }
    else if full then s.badUnit die slot
    else pop.mapMa die slot fun m => { m with flits := m.flits ++ [t.payload] }
  | .stop =>
    if m.flits = [] then pop.mapMa die slot fun m => dataStop c m t.level t.tag
    else if full then
      pop.mapMa die slot fun m =>
        { m with unit := some m.flits, flits := [], mark := if 2 ≤ t.level then some (t.level, t.tag) else none }
    else s.badUnit die slot
  | .eos =>
    if m.flits ≠ [] then s.badUnit die slot
    else
      let last := s.maEosNext die slot inData
      pop.mapMa die slot fun m => if last then { closeSeg m 0 with dataEnd := true } else m
  | _ => pop

/-- A token at the head of cmp: a data token is the next compare value, a stop supplies none. -/
def State.cmpToken (s : State) (die slot : Nat) (t : Token) : State :=
  let last := s.maEosNext die slot inCmp
  (s.maPop die slot inCmp).mapMa die slot fun m =>
    match t.kind with
    | .data => { m with cmpVal := some t.payload }
    | .eos => { m with cmpEnd := m.cmpEnd || last }
    | _ => m

/-- A write or atomic actor takes its next operand. -/
def execWriteDataToken (die slot : Nat) (s : State) : Out :=
  let m := s.ma (maKey die slot)
  let c := maCfg m.active
  if m.st ≠ .running || m.saved || m.weir = .sent || c.kind = .read then .next s
  else
    match s.maHead die slot inData, m.unit, m.cur with
    | some t, none, none => .next (s.dataToken' die slot t)
    | _, _, _ =>
      match s.maHead die slot inCmp, m.cmpVal with
      | some t, none => .next (s.cmpToken die slot t)
      | _, _ => .next s

/-! ## Performing requests (04 R112 to R114, R124, R125) -/

/-- The new word of an atomic on n bits (Table 4-6). The table gives fadd, fmin and fmax width 4 only and nothing refuses
unit 8: they then act on the low 32 bits and leave the high half zero (L70). -/
def atomicNew (op : AtomicOp) (bytes : Nat) (old v cmp : Nat) : Nat :=
  let n := 8 * bytes
  let w := 2 ^ n
  let so := (BitVec.ofNat n old).toInt
  let sv := (BitVec.ofNat n v).toInt
  match op with
  | .add => (old + v) % w
  | .fadd => faddLane .fp32 (old % 2 ^ 32) (v % 2 ^ 32)
  | .min => if so ≤ sv then old else v % w
  | .max => if sv ≤ so then old else v % w
  | .minz => Nat.min old (v % w)
  | .maxz => Nat.max old (v % w)
  | .fmin => fminmax .fp32 false (old % 2 ^ 32) (v % 2 ^ 32)
  | .fmax => fminmax .fp32 true (old % 2 ^ 32) (v % 2 ^ 32)
  | .swap => v % w
  | .cas => if old = cmp % w then v % w else old

/-- Changing the request of an index in flight. -/
def mapReq (m : MemActor) (index : Nat) (f : Req → Req) : MemActor :=
  { m with flight := m.flight.map fun r => if r.index = index then f r else r }

/-- A granule done: what it read, and the end of the request with its last granule. -/
def granuleDone (r : Req) (g : Nat) (v : DWord) : Req :=
  let left := r.left.erase g
  { r with left := left, got := r.got ++ [(g, v)], st := if left = [] then .performed else r.st }

/-- Whether an earlier request of the actor still has to be performed on the same bytes (R114). -/
def behindOverlap (c : MaCfg) (m : MemActor) (r : Req) : Bool :=
  (m.flight.takeWhile fun x => x.index ≠ r.index).any fun x => x.st ≠ .performed && overlaps c x r

/-- The effect on memory of granule g of a request at a physical address: the memory after it, and what it read. -/
def performAt (c : MaCfg) (phys : Mem) (r : Req) (g pa : Nat) : Mem × DWord :=
  let n := granuleBytes c
  match c.kind with
  | .read => (phys, BitVec.ofNat 64 (Memory.read phys pa n))
  | .write => (Memory.write phys pa (nth r.data g 0).toNat n, 0)
  | .atomic =>
    let old := Memory.read phys pa n
    (Memory.write phys pa (atomicNew c.op n old (nth r.data 0 0).toNat r.cmp.toNat) n, BitVec.ofNat 64 old)

/-- Whether an uncorrectable granule makes an access fault: a store of the whole granule replaces it (R414). -/
def readsGranule (c : MaCfg) : Bool := c.kind ≠ .write || granuleBytes c < 8

/-- An issued request fails: the slot stalls at it, and its request packets are gone. -/
def State.failReq (s : State) (die slot : Nat) (r : Req) (code : Nat) (w3 : DWord) : State :=
  ((s.mapMa die slot fun m => mapReq m r.index fun r => { r with st := .uncorrectable }).consume
    (requestOf die slot r.index)).stallMa die slot (.memory r.index) code r.tag r.index w3

/-- The code of an access in a request to the partner. -/
def accessCode : MaKind → Nat
  | .read => 0
  | .write => 1
  | .atomic => 2

/-- The low n bytes of a word. -/
def lowOf (v : DWord) (n : Nat) : DWord := BitVec.ofNat 64 (v.toNat % 2 ^ (8 * n))

/-- A granule in an optical window: the request leaves for the partner, at the window's base plus the offset, and its
inbound grant may refuse it with ACCESS (16 R449). A failed link holds it, and LINK is raised (15 R418). -/
def State.performPeer (s : State) (die slot g : Nat) (r : Req) : State :=
  let m := s.ma (maKey die slot)
  let c := maCfg m.active
  let pa := nth r.pas g 0
  let n := granuleBytes c
  match s.windowFor die pa n c.kind.access with
  | none => if isStalled m then s else s.failReq die slot r cAccess (maWord3 r.va causeReach 0)
  | some w =>
    if !crosses (s.link die 4) then s.linkHolds die 4 m.colour
    else if Config.peerRefuses s.free then
      if isStalled m then s.bumpFree else (s.failReq die slot r cAccess (maWord3 r.va causeReach 0)).bumpFree
    else
      let t := (s.mapMa die slot fun m =>
        mapReq m r.index fun r => granuleDone r g (lowOf (Config.freePeer s.free) n)).answerBlock die slot r g
      { t with
        free := t.free + 1
        hw := { t.hw with peerOut := t.hw.peerOut ++
          [.request die (w.base + paOffset pa) n (accessCode c.kind) (nth r.data g 0)] } }

/-- Granule g of a request is performed at its home controller, or finds an uncorrectable error there. The retirement window
holds the requested set (18 R463): an access there reads and writes that. -/
def State.performGranule (s : State) (die slot g : Nat) (r : Req) : State :=
  let m := s.ma (maKey die slot)
  let c := maCfg m.active
  let pa := nth r.pas g 0
  if paSpace pa = 2 then s.performPeer die slot g r
  else if s.bad.contains (pa / 8) && readsGranule c && !inRetire pa then
    if isStalled m then s else (s.failReq die slot r cHbm (maWord3 r.va 0 0)).countBad die pa
  else
    let p := performAt c (s.granuleMem pa) r g pa
    ((s.mapMa die slot fun m => mapReq m r.index fun r => granuleDone r g p.2).answerBlock die slot r g).putGranule pa p.1
      (c.kind = .write)

/-- Whether a packet is the request of an atomic actor that has reached its home and has still to be performed on the n bytes
at a physical address. One that waits for a repair of its slot, or for an earlier request of its own actor (R114), is not waited
for. -/
def State.atomicWaits (s : State) (pa n : Nat) (p : Packet) : Bool :=
  match p.cargo with
  | .request d slot i b _ =>
    let m := s.ma (maKey d slot)
    let c := maCfg m.active
    p.atTarget && c.kind = .atomic &&
      m.flight.any fun r => r.index = i && r.st = .issued && !behindOverlap c m r && r.left.any fun g =>
        let x := nth r.pas g 0
        blockOf x = b && x < pa + n && pa < x + granuleBytes c && !s.bad.contains (x / 8)
  | _ => false

/-- Whether an atomic that has reached the home controller earlier has still to be performed on the bytes of a granule: atomics
to one address are performed in arrival order (R125), the order of the packets at their home. -/
def State.behindAtomic (s : State) (die slot : Nat) (r : Req) (g : Nat) : Bool :=
  let c := maCfg (s.ma (maKey die slot)).active
  let pa := nth r.pas g 0
  c.kind = .atomic &&
    (s.packets.takeWhile fun p => !isBlockRequest die slot r.index (blockOf pa) p.cargo).any (s.atomicWaits pa (granuleBytes c))

/-- Whether granule g of a request may be performed now: its packet is at home, nothing that goes before it is left to be
performed on its bytes (R114, R125), and its answer finds a buffer. -/
def State.mayPerform (s : State) (die slot : Nat) (r : Req) (g : Nat) : Bool :=
  let m := s.ma (maKey die slot)
  r.st = .issued && r.left.contains g && !behindOverlap (maCfg m.active) m r &&
    s.requestHome die slot r.index (blockOf (nth r.pas g 0)) && !s.behindAtomic die slot r g && s.answerRoom die slot r g

def execMemoryPerform (die slot index granule : Nat) (s : State) : Out :=
  match (s.ma (maKey die slot)).flight.find? fun r => r.index = index with
  | none => .next s
  | some r => if s.mayPerform die slot r granule then .next (s.performGranule die slot granule r) else .next s

/-! ## Responses and completions (04 R105, R107, R109, R111) -/

/-- A data token of a memory actor. -/
def maToken (colour : Nat) (payload : DWord) (tag : Word) : Token :=
  { payload := payload, tag := tag, kind := .data, level := 0, arm := false, colour := colour, fin := false }

/-- The tokens that a performed request delivers on resp (R105). The end-of-tile mark that a read index actor makes carries the
tag of its request (L94). -/
def respTokens (c : MaCfg) (colour : Nat) (r : Req) : List Token :=
  let data := (List.range (granules c)).map fun g =>
    maToken colour (((r.got.find? fun x => x.1 = g).map Prod.snd).getD 0) r.tag
  data ++ if r.stops = 0 then [] else [{ maToken colour 0 r.tag with kind := .stop, level := r.stops }]

/-- Whether the address tokens are all consumed, those that SKIP drops included (R108). -/
def State.addrsEnded (s : State) (die slot : Nat) : Bool :=
  let m := s.ma (maKey die slot)
  if (maCfg m.active).index then m.reqEnd else !s.maBound die slot inStart || m.startEnd

/-- Whether the operands of a write or atomic actor are all consumed; a surplus unit or compare value is a fault (R108). -/
def operandsEnded (m : MemActor) : Bool :=
  let c := maCfg m.active
  c.kind = .read || (m.dataEnd && (!needsCmp c || (m.cmpEnd && m.cmpVal.isNone)))

/-- Whether a slot will form no further request. -/
def State.noMore (s : State) (die slot : Nat) : Bool :=
  let m := s.ma (maKey die slot)
  s.nextAddr die slot = .ended && (!m.dropAddrs || s.addrsEnded die slot) && m.cur.isNone && m.unit.isNone &&
    operandsEnded m && m.stall.isNone

/-- A request leaves the list of those in flight once it is performed, acknowledged and delivered. -/
def settleFlight (m : MemActor) : MemActor :=
  { m with flight := m.flight.filter fun r => !(r.st = .performed && r.acked && !m.resp.contains (.req r.index)) }

/-- A slot that has sent EOS on each bound output, and has nothing left, is ended. -/
def State.endMa (s : State) (die slot : Nat) : State :=
  let m := s.ma (maKey die slot)
  let respOk := m.respEos || (s.maOut die slot 0).isNone
  let doneOk := m.doneEos || (s.maOut die slot 1).isNone
  if m.st = .running && s.noMore die slot && m.flight = [] && m.resp = [] && m.out = [] && respOk && doneOk then
    s.mapMa die slot fun m => { m with st := .ended }
  else s

/-- The next token on resp: the rest of a response, the next one in request order, or EOS after the last. -/
def State.respond (s : State) (die slot : Nat) : State :=
  let m := s.ma (maKey die slot)
  let c := maCfg m.active
  match m.out with
  | t :: rest =>
    match s.maOut die slot 0 with
    | none => s.mapMa die slot fun m => { m with out := rest }
    | some _ =>
      match s.tryEmit (maSource die slot 0) m.load t with
      | some u => u.mapMa die slot fun m => { m with out := rest }
      | none => s
  | [] =>
    match m.resp with
    | .tok t :: rest => s.mapMa die slot fun m => { m with resp := rest, out := [{ t with colour := m.colour }] }
    | .req i :: rest =>
      match m.flight.find? fun r => r.index = i with
      | none => s
      | some r =>
        if r.st = .performed && s.answered die slot i then
          s.mapMa die slot fun m =>
            settleFlight { m with
              resp := rest
              out := if c.kind = .write then [] else respTokens c m.colour r
              flight := if c.kind = .read then m.flight.filter fun x => x.index ≠ i else m.flight }
        else s
    | [] =>
      if s.noMore die slot && !m.respEos && (s.maOut die slot 0).isSome then
        match s.tryEmit (maSource die slot 0) m.load (eosToken m.colour) with
        | some u => u.mapMa die slot fun m => { m with respEos := true }
        | none => s
      else s

/-- Whether a slot puts tokens on its outputs: not when saved, nor behind its weirs (15 R423). -/
def maDelivers (m : MemActor) : Bool := m.st ≠ .unconfigured && !m.saved && m.weir ≠ .sent

def execMemoryResponse (die slot : Nat) (s : State) : Out :=
  if !maDelivers (s.ma (maKey die slot)) then .next s else .next ((s.respond die slot).endMa die slot)

/-- A store or atomic counts as performed at the actor's scope: at element scope once it is issued, since later requests
of the actor see it (R114, R116), at a wider scope once it is performed (L30). -/
def ackDue (c : MaCfg) (r : Req) : Bool := !r.acked && (c.scope = 0 || r.st = .performed)

def execStoreAcknowledgement (die slot index : Nat) (s : State) : Out :=
  let m := s.ma (maKey die slot)
  let c := maCfg m.active
  match m.flight.find? fun r => r.index = index with
  | none => .next s
  | some r =>
    if c.kind ≠ .read && ackDue c r && (c.scope = 0 || s.answered die slot index) then
      .next ((s.mapMa die slot fun m => settleFlight (mapReq m index fun r => { r with acked := true })).endMa die slot)
    else .next s

/-- Whether every unit of a segment has been acknowledged. -/
def segDone (m : MemActor) (x : Seg) : Bool :=
  x.closed.isSome && !(m.flight.any fun r => r.seg = x.num && !r.acked) &&
    !(match m.cur with
      | some r => r.seg = x.num
      | none => false)

/-- The outstanding count of R111. -/
def outstanding (m : MemActor) : Nat := (m.flight.filter fun r => !r.acked).length

/-- The completion of the first segment, once its stores are performed at scope; after the last one, EOS on done. -/
def State.complete (s : State) (die slot : Nat) : State :=
  let m := s.ma (maKey die slot)
  let bound := (s.maOut die slot 1).isSome
  match m.segs with
  | x :: rest =>
    if segDone m x then
      if bound then
        match s.tryEmit (maSource die slot 1) m.load (maToken m.colour (BitVec.ofNat 64 x.units) (x.closed.getD 0)) with
        | some u => u.mapMa die slot fun m => { m with segs := rest }
        | none => s
      else s.mapMa die slot fun m => { m with segs := rest }
    else s
  | [] =>
    if (maCfg m.active).kind ≠ .read && s.noMore die slot && m.flight = [] && !m.doneEos && bound then
      match s.tryEmit (maSource die slot 1) m.load (eosToken m.colour) with
      | some u => u.mapMa die slot fun m => { m with doneEos := true }
      | none => s
    else s

def execCompletionSegment (die slot : Nat) (s : State) : Out :=
  if !maDelivers (s.ma (maKey die slot)) then .next s else .next ((s.complete die slot).endMa die slot)

/-! ## Repairs (15 Table 15-2; 04 R108, R110) -/

/-- Running again with no stall, or halted as before it. -/
def unstall (m : MemActor) : MemActor :=
  { m with st := if m.stall.any Stall.halted then .halted else .running, stall := none }

/-- A request reissued after a memory error: translated afresh, every granule to be performed again (R407). -/
def State.reissue (s : State) (die slot : Nat) (r : Req) : State :=
  let m := s.ma (maKey die slot)
  let c := maCfg m.active
  let ws := (List.range (granules c)).map fun g => (g, s.walk die m.colour (granuleVa r g) c.kind.access)
  let pages := ws.filterMap fun w =>
    match w.2 with
    | .page l => some (l.address (granuleVa r w.1))
    | _ => none
  match ws.findSome? fun w =>
      match w.2 with
      | .page _ => none
      | .xlate cause lvl => some (s.stallMa die slot (.memory r.index) cXlate r.tag r.index (maWord3 r.va cause lvl))
      | .uncorrectable pa => some ((s.stallMa die slot (.memory r.index) cHbm r.tag r.index (maWord3 r.va 0 0)).countBad die pa) with
  | some t => t
  | none =>
    if s.reaches die m c pages then
      let r' := { r with pas := pages, left := List.range (granules c), got := [], st := .issued, stale := false }
      (s.mapMa die slot fun m => unstall (mapReq m r.index fun _ => r')).sendRequest die slot r'
    else s.stallMa die slot (.memory r.index) cAccess r.tag r.index (maWord3 r.va causeReach 0)

/-- The fault raised again by RESUME of a stall that no reissue can clear (R108, R110). -/
def State.raiseAgain (s : State) (die slot : Nat) (x : Stall) : State :=
  let va := match s.nextAddr die slot with
    | .at va _ _ => va.toNat
    | _ => 0
  s.stallMa die slot x.kind x.code x.tag x.index
    (maWord3 va 0 (match x.kind with | .afterEnded => lvlAfter | _ => lvlUnit))

/-- The micro-TLB without the entries that translate the formed request: it is translated afresh, by walks that bring them
again (R407, R413). -/
def walkAfresh (m : MemActor) : MemActor :=
  match m.cur with
  | none => m
  | some r =>
    let used (t : Tlb) : Bool := (List.range (granules (maCfg m.active))).any fun g =>
      t.colour = m.colour && t.va ≤ granuleVa r g % vaMask && granuleVa r g % vaMask < t.va + t.size
    { m with tlb := m.tlb.filter fun t => !used t }

/-- RESUME of a stalled slot. -/
def State.resumeMa (s : State) (die slot : Nat) (x : Stall) : State :=
  let m := s.ma (maKey die slot)
  match x.kind with
  | .request => s.mapMa die slot fun m => unstall (walkAfresh m)
  | .memory i =>
    match m.flight.find? fun r => r.index = i with
    | some r => s.reissue die slot r
    | none => s.mapMa die slot unstall
  | _ => s.raiseAgain die slot x

/-- SKIP of a bad unit: the address is used up and counted without being performed, and the stop that ended the unit
early acts as its mark (L28). -/
def State.skipBadUnit (s : State) (die slot : Nat) : State :=
  let head := s.maHead die slot inData
  let stop : Bool := match head with
    | some t => t.kind = .stop
    | none => false
  let s := if stop then s.maPop die slot inData else s
  s.mapMa die slot fun m =>
    unstall { m with
      flits := [], unit := some [], skipUnit := true
      mark := match head with
        | some t => if t.kind = .stop && 2 ≤ t.level then some (t.level, t.tag) else none
        | none => none }

/-- SKIP of a stalled slot. SKIP of a surplus tile unit drops its end-of-tile mark with it (L28). Where a cas actor has a data
unit or a compare value for the address that lacks the other, the data unit goes with the address, and the compare value stays
and is raised as a surplus unit: R108 gives neither (L71). -/
def State.skipMa (s : State) (die slot : Nat) (x : Stall) : State :=
  match x.kind with
  | .request => s.mapMa die slot fun m => unstall { m with cur := m.cur.map fun r => { r with skip := true } }
  | .memory i => s.mapMa die slot fun m => unstall (mapReq m i skipped)
  | .surplusUnit => s.mapMa die slot fun m => unstall { m with unit := none, flits := [], mark := none, cmpVal := none }
  | .missingUnit =>
    s.mapMa die slot fun m => unstall { m with dropAddrs := true, run := none, unit := none, mark := none }
  | .badUnit => s.skipBadUnit die slot
  | .afterEnded => s.mapMa die slot fun m => unstall { m with skipRest := true }

/-- Whether SUBST suits the slot: a read whose unit is at most 8 bytes. -/
def substSuits (m : MemActor) : Bool := (maCfg m.active).kind = .read && !isTile (maCfg m.active)

/-- SUBST: the response payload is the substitute. -/
def substReq (v : DWord) (r : Req) : Req := { skipped r with got := [(0, v)] }

/-- The formed request answered with the substitute. -/
def State.substCur (s : State) (die slot : Nat) (v : DWord) : State :=
  s.mapMa die slot fun m => unstall { m with cur := none, flight := m.flight ++ (m.cur.map (substReq v)).toList }

/-- The request before which a slot stalls under R110, formed. -/
def State.formNext (s : State) (die slot : Nat) : State :=
  match s.nextAddr die slot with
  | .at va tag stops =>
    (s.mapMa die slot fun m => takeUnit (maCfg m.active) m (formedReq (maCfg m.active) m va tag stops)).takeAddr die slot
  | _ => s

def State.substMa (s : State) (die slot : Nat) (x : Stall) (v : DWord) : State :=
  match x.kind with
  | .memory i => s.mapMa die slot fun m => unstall (mapReq m i (substReq v))
  | .afterEnded => (s.formNext die slot).substCur die slot v
  | _ => s.substCur die slot v

/-- Kinds of repair (14 R390). -/
inductive RepairKind where
  | resume | skip | subst | abort
deriving DecidableEq, Repr

/-- The kind of a code. -/
def repairKind (n : Nat) : Option RepairKind :=
  match n with
  | 0 => some .resume
  | 1 => some .skip
  | 2 => some .subst
  | 3 => some .abort
  | _ => none

/-- A repair of a memory actor: its status (14 Table 14-5), and the state after it. ABORT is the launch's affair. -/
def State.repairMa (s : State) (die slot : Nat) (kind : RepairKind) (v : DWord) : Nat × State :=
  let m := s.ma (maKey die slot)
  match m.st, m.stall, m.saved with
  | .stalled, some x, false =>
    match kind with
    | .resume => (0, s.resumeMa die slot x)
    | .skip => (0, s.skipMa die slot x)
    | .subst => if substSuits m then (0, s.substMa die slot x v) else (2, s)
    | .abort => (0, s)
  | _, _, _ => (3, s)

/-! ## The weir (15 R423) -/

/-- Whether a slot at its weir has drained: no request is outstanding, and every response and completion that can be is
delivered. One stalled by HBM_UNCORRECTABLE keeps the faulting request and what waits behind it (R414, R423). -/
def State.maDrained (s : State) (die slot : Nat) : Bool :=
  let m := s.ma (maKey die slot)
  let failed := m.flight.any fun r => r.st = .uncorrectable
  let quiet := m.flight.all fun r => r.st = .uncorrectable || (r.st = .performed && s.answered die slot r.index)
  quiet && m.out = [] && m.walking.isNone && !(m.segs.head?.any (segDone m)) &&
    if failed then
      m.resp.head?.all fun x => match x with
        | .req i => m.flight.any fun r => r.index = i && r.st = .uncorrectable
        | .tok _ => false
    else
      outstanding m = 0 && m.resp.all fun x => match x with
        | .req i => m.flight.all fun r => r.index ≠ i
        | .tok _ => false

/-- The bound outputs of a slot whose load it has not left: those that owe a weir (15 R423, R429). -/
def State.maWeirOuts (s : State) (die slot : Nat) : List (Source × Nat) :=
  let m := s.ma (maKey die slot)
  ((List.range 2).filter fun o => (s.maOut die slot o).any fun b => !b.switched).map fun o => (maSource die slot o, m.load)

/-- A memory actor at its weir stops issuing, and once it has drained appends a weir on resp and done, against their credits
(13 R350). -/
def execMemoryActorWeir (die slot : Nat) (s : State) : Out :=
  let m := s.ma (maKey die slot)
  if m.st = .unconfigured || m.saved || !(s.staging die m.colour).weir then .next s
  else
    match m.weir with
    | .none => .next (s.mapMa die slot fun m => { m with weir := .stopping })
    | .stopping =>
      if s.maDrained die slot then
        match s.tryEmits (markerToken .weir m.colour) (s.maWeirOuts die slot) with
        | some u => .next (u.mapMa die slot fun m => { m with weir := .sent })
        | none => .next s
      else .next s
    | .sent => .next s

end Sys2Proof.Machine
end

