-- ==== Sys2Proof/Machine/Nodes.lean ====
section
/-! DEFINITION. Node units (02 R32 to R35; 15 R423): turnouts and confluences. Each event takes one token from an input,
or closes the outlets, when the outlets have the credits for what leaves. -/

namespace Sys2Proof.Machine

/-! ## Inputs and outlets -/

/-- Key of a node. -/
def nodeKey (die node : Nat) : Nat := die * 1600 + node

/-- Input i of a node as a consumer endpoint. -/
def nodeDest (die node i : Nat) : Dest := { die := die, kind := .node, pos := node, din := i }

/-- The channel endpoint of an input. -/
def State.nodeIn (s : State) (die node i : Nat) : Option Chan :=
  let n := s.node (nodeKey die node)
  s.chanAt (nodeDest die node i) n.colour (some n.load)

/-- The token at the head of an input. -/
def State.nodeHead (s : State) (die node i : Nat) : Option Token := (s.nodeIn die node i).bind Chan.head

/-- Taking the head of an input; EOS and switch tokens are counted. -/
def State.nodePop (s : State) (die node i : Nat) : State :=
  let n := s.node (nodeKey die node)
  match s.nodeHead die node i with
  | none => s
  | some t =>
    s.popChan (nodeDest die node i) n.colour (some n.load) (countMarks t)

/-- Whether an input has delivered every EOS. -/
def State.nodeEnded (s : State) (die node i : Nat) : Bool :=
  match s.nodeIn die node i with
  | none => false
  | some c => 0 < s.chanProducers c && s.chanProducers c ≤ c.eos

/-- The bound inputs of a node. -/
def State.nodeInputs (s : State) (die node : Nat) : List Nat :=
  (List.range 10).filter fun i => (s.nodeIn die node i).isSome

/-- Whether every bound input has counted its weirs, in a cut (15 R423). -/
def State.nodeWeirs (s : State) (die node : Nat) : Bool :=
  let ins := s.nodeInputs die node
  let n := s.node (nodeKey die node)
  let cut := (s.staging die n.colour).weir || ins.any fun i => match s.nodeIn die node i with
    | none => false
    | some c => 0 < c.weirs
  cut && ins ≠ [] && ins.all fun i =>
    match s.nodeIn die node i with
    | none => false
    | some c => s.weirsCounted c

/-- Outlet o of a node as a source endpoint. -/
def nodeSource (die node o : Nat) : Source := { die := die, kind := .node, pos := node, out := o }

/-- One token on each of several outlets, if all have the credit. -/
def State.nodeEmit (s : State) (die node : Nat) (outs : List Nat) (t : Token) : Option State :=
  s.tryEmits t (outs.map fun o => (nodeSource die node o, (s.node (nodeKey die node)).load))

/-- A node fault, which holds nothing (R32). -/
def State.nodeFault (s : State) (die node : Nat) : State :=
  let n := s.node (nodeKey die node)
  s.report die n.colour n.load .nothing cIllegal .node node 0 0 (noDetail cIllegal)

/-- A weir on those of several outlets whose load has not been left (15 R429), if all have the credit. -/
def State.nodeWeir (s : State) (die node : Nat) (outs : List Nat) : Option State :=
  let n := s.node (nodeKey die node)
  let still := outs.filter fun o =>
    (s.srcBind (nodeSource die node o) n.colour n.load).any fun b => !b.switched
  (s.nodeEmit die node still (markerToken .weir n.colour)).map fun u =>
    u.setNode (nodeKey die node) { u.node (nodeKey die node) with weired := true }

/-- Whether a node is at work. -/
def nodeLive (n : Node) : Bool := n.configured && !n.saved

/-! ## Turnouts (R32) -/

/-- The outlets of a turnout. -/
def turnoutOuts (n : Node) : List Nat := if nodeKind n.active = .split then [0, 1] else [0]

/-- A paired data token: its outlet and itself as it leaves. -/
def turnoutRoute (n : Node) (t p : Token) : Nat × Token :=
  let b := p.payload.getLsbD 0
  if nodeKind n.active = .split then (if b then 0 else 1, t) else (0, { t with arm := b })

/-- Markers and stops at the head of the predicate input, and predicates that the data input has left over. -/
def State.turnoutPred (s : State) (die node : Nat) (p : Token) : Option State :=
  match p.kind with
  | .data =>
    if s.nodeEnded die node 0 then
      let n := s.node (nodeKey die node)
      let t := s.nodePop die node 1
      some (if n.predFault then t else (t.setNode (nodeKey die node) { n with predFault := true }).nodeFault die node)
    else none
  | _ => some (s.nodePop die node 1)

/-- The head of the data input. -/
def State.turnoutData (s : State) (die node : Nat) (t : Token) : Option State :=
  let n := s.node (nodeKey die node)
  match t.kind with
  | .stop => (s.nodeEmit die node (turnoutOuts n) t).map fun u => u.nodePop die node 0
  | .data =>
    if s.nodeEnded die node 1 then
      let u := s.nodePop die node 0
      some (if n.dataFault then u else (u.setNode (nodeKey die node) { n with dataFault := true }).nodeFault die node)
    else
      match s.nodeHead die node 1 with
      | some p =>
        if p.kind = .data then
          let r := turnoutRoute n t p
          (s.nodeEmit die node [r.1] r.2).map fun u => (u.nodePop die node 0).nodePop die node 1
        else none
      | none => none
  | _ => some (s.nodePop die node 0)

/-- EOS on the outlets once both inputs have ended. -/
def State.turnoutClose (s : State) (die node : Nat) : Option State :=
  let key := nodeKey die node
  let n := s.node key
  if s.nodeEnded die node 0 && s.nodeEnded die node 1 && !n.closedOut then
    (s.nodeEmit die node (turnoutOuts n) (eosToken n.colour)).map fun u =>
      u.setNode key { u.node key with closedOut := true }
  else none

/-- Whether a node owes its weirs: its inputs have counted theirs, whatever stands ahead of them (15 R421, R423). Behind
its weirs a node forwards nothing: what its inputs hold is saved with them (R424). -/
def State.weirDue (s : State) (die node : Nat) : Bool := s.nodeWeirs die node && !(s.node (nodeKey die node)).weired

def execTurnoutPair (die node : Nat) (s : State) : Out :=
  let n := s.node (nodeKey die node)
  let isTurnout := nodeKind n.active = .split || nodeKind n.active = .arm
  if !nodeLive n || !isTurnout || n.weired then .next s
  else if s.weirDue die node then .next ((s.nodeWeir die node (turnoutOuts n)).getD s)
  else
    let pred := (s.nodeHead die node 1).bind fun p => s.turnoutPred die node p
    let data := (s.nodeHead die node 0).bind fun t => s.turnoutData die node t
    .next (((pred.orElse fun _ => data).orElse fun _ => s.turnoutClose die node).getD s)

/-! ## Unordered confluence (R33) -/

/-- The token at an input leaves as it is, markers included. -/
def execUnorderedConfluence (die node input : Nat) (s : State) : Out :=
  let n := s.node (nodeKey die node)
  if nodeLive n && nodeKind n.active = .unorderedConf then
    match s.nodeHead die node input with
    | none => .next s
    | some t => .next (((s.nodeEmit die node [0] t).map fun u => u.nodePop die node input).getD s)
  else .next s

/-! ## Ordered confluence (R34) -/

/-- Contexts that the table holds. -/
def reorderContexts : Nat := 16

/-- What R34 does with an arriving token. -/
inductive Placing where
  /-- The context opens an entry, then the token is placed again. -/
  | opens
  | now
  | slot (d : Nat)
  | leave
deriving DecidableEq, Repr

/-- The entry of a context. -/
def findReorder (n : Node) (c : BitVec 14) : Option Reorder := n.table.find? fun r => r.ctx = c

/-- Replacing the entry of a context. -/
def setReorder (n : Node) (r : Reorder) : Node := { n with table := n.table.map fun x => if x.ctx = r.ctx then r else x }

/-- The placing of a token. -/
def placing (n : Node) (h : Token) : Placing :=
  match findReorder n (h.tag.extractLsb' 18 14) with
  | none => if reorderContexts ≤ n.table.length then .leave else .opens
  | some r =>
    let d := (h.tag.extractLsb' 0 18 - r.e).toNat
    if r.emitted && d = 2 ^ 18 - 1 then .now
    else if d < nodeDepth n.active then .slot d
    else .leave

/-- A new context (R34). -/
def newReorder (c : BitVec 14) : Reorder := { ctx := c, e := 0, emitted := false, ended := false, slots := [] }

/-- A context's buffer shifted down one slot. -/
def shiftSlots (r : Reorder) : Reorder :=
  { r with e := r.e + 1, emitted := true,
           slots := r.slots.filterMap fun x => if x.1 = 0 then none else some (x.1 - 1, x.2) }

/-- A context that has emitted its level-6 stop leaves once its buffer holds no token. -/
def closeReorder (n : Node) : Node := { n with table := n.table.filter fun r => !(r.ended && r.slots = []) }

/-- The mark of a level-6 stop that is emitted. -/
def marked (r : Reorder) (t : Token) : Reorder := { r with ended := r.ended || (t.kind = .stop && t.level = 6) }

/-- The first context whose slot 0 is filled, with the token that leaves next. -/
def nextOut (n : Node) : Option (Reorder × Token × List Token) :=
  n.table.findSome? fun r =>
    match tabGet r.slots 0 with
    | some (t :: rest) => some (r, t, rest)
    | _ => none

/-- The entry after the token at the front of its slot 0 has left. -/
def afterOut (r : Reorder) (t : Token) (rest : List Token) : Reorder :=
  if rest = [] then shiftSlots (marked { r with slots := tabDel r.slots 0 } t)
  else marked { r with slots := tabSet r.slots 0 rest } t

/-- The tokens of slot 0 leave, as far as the outlet has credits. -/
def State.flushOut (s : State) (die node : Nat) : Nat → State
  | 0 => s
  | fuel + 1 =>
    let key := nodeKey die node
    match nextOut (s.node key) with
    | none => s
    | some (r, t, rest) =>
      match s.nodeEmit die node [0] t with
      | none => s
      | some u => State.flushOut (u.setNode key (closeReorder (setReorder (u.node key) (afterOut r t rest)))) die node fuel

/-- Tokens that a confluence holds. -/
def heldTokens (n : Node) : Nat := (n.table.map fun r => (r.slots.map fun x => x.2.length).sum).sum

/-- A data or stop token of an input placed by R34. A new entry of the table stays, also where the token then waits. -/
def State.placeToken (s : State) (die node input : Nat) (h : Token) : State :=
  let key := nodeKey die node
  let n := s.node key
  let n' := if placing n h = .opens then { n with table := n.table ++ [newReorder (h.tag.extractLsb' 18 14)] } else n
  match findReorder n' (h.tag.extractLsb' 18 14), placing n' h with
  | some r, .slot d =>
    let r' := { r with slots := tabSet r.slots d ((tabGet r.slots d).getD [] ++ [h]) }
    (s.setNode key (setReorder n' r')).nodePop die node input
  | some r, .now =>
    match s.nodeEmit die node [0] h with
    | none => s
    | some u => (u.setNode key (closeReorder (setReorder n' (marked r h)))).nodePop die node input
  | _, _ => s.setNode key n'

/-- EOS once every input has delivered EOS and the buffer is empty. -/
def State.confluenceClose (s : State) (die node : Nat) : State :=
  let key := nodeKey die node
  let n := s.node key
  let ins := s.nodeInputs die node
  if ins ≠ [] && ins.all (fun i => s.nodeEnded die node i) && heldTokens n = 0 && !n.closedOut then
    ((s.nodeEmit die node [0] (eosToken n.colour)).map fun u => u.setNode key { u.node key with closedOut := true }).getD s
  else s

def execOrderedConfluence (die node input : Nat) (s : State) : Out :=
  let key := nodeKey die node
  let n := s.node key
  if !(nodeLive n && nodeKind n.active = .orderedConf) || n.weired then .next s
  else if s.weirDue die node then .next ((s.nodeWeir die node [0]).getD s)
  else
    let s := s.flushOut die node (heldTokens n)
    match s.nodeHead die node input with
    | none => .next (s.confluenceClose die node)
    | some h =>
      if h.kind = .data || h.kind = .stop then
        let s := s.placeToken die node input h
        .next (s.flushOut die node (heldTokens (s.node key)))
      else .next ((s.nodePop die node input).confluenceClose die node)

end Sys2Proof.Machine
end

