-- ==== Sys2Proof/Machine/Loads.lean ====
section
/-! DEFINITION. Banks, regions and loads (13 R331 to R341; 14 R379 to R384; 15 R408): what becomes active, what is
discarded, and the counts that the end of a load waits for. Stream commands and the loader's own steps share it. -/

namespace Sys2Proof.Machine

/-! ## Targets of a colour on a die -/

/-- Plots that a colour holds on a die. -/
def State.regionPlots (s : State) (die colour : Nat) : List Nat :=
  (List.range 400).filter fun p => (s.plot (die * 400 + p)).colour = some colour

/-- Live element positions of a colour's region on a die. -/
def State.regionElems (s : State) (die colour : Nat) : List Nat :=
  (s.regionPlots die colour).flatMap fun p => ((List.range 16).map (16 * p + ·)).filter (s.liveElem die)

/-- Node numbers of a colour's region on a die. -/
def State.regionNodes (s : State) (die colour : Nat) : List Nat :=
  (s.regionPlots die colour).flatMap fun p => (List.range 4).map (4 * p + ·)

/-- Memory actor slots that a colour holds on a die, staged or active. -/
def State.colourSlots (s : State) (die colour : Nat) : List Nat :=
  (List.range 64).filter fun n =>
    let m := s.ma (maKey die n)
    m.colour = colour && (m.st ≠ .unconfigured || m.stagedValid || m.saved)

/-- Applying a change to several elements of a die. -/
def State.mapElems (s : State) (die : Nat) (f : Element → Element) (ps : List Nat) : State :=
  ps.foldl (fun t p => t.setElem (elemKey die p) (f (t.elem (elemKey die p)))) s

/-- Applying a change to several memory actor slots of a die. -/
def State.mapMas (s : State) (die : Nat) (f : MemActor → MemActor) (ns : List Nat) : State :=
  ns.foldl (fun t n => t.mapMa die n f) s

/-- Applying a change to several nodes of a die. -/
def State.mapNodes (s : State) (die : Nat) (f : Node → Node) (ns : List Nat) : State :=
  ns.foldl (fun t n => t.setNode (nodeKey die n) (f (t.node (nodeKey die n)))) s

/-! ## Slot records -/

/-- Valid slots of a block. -/
def validSlots (m : Mem) : List Nat := (List.range 8).filter fun n => (Memory.get m (32 * n + 25)).getLsbD 0

/-- A block with every slot record marked invalid. -/
def invalidBlock (m : Mem) : Mem :=
  (List.range 8).foldl (fun m n => Memory.set m (32 * n + 25) (Memory.get m (32 * n + 25) &&& 0xFE)) m

/-- The staged bank of an element, discarded. -/
def dropStaged (e : Element) : Element := { e with staged := invalidBlock e.staged, imgDesc := none, constDesc := none }

/-- An element whose bank is active and fresh: nothing matched, bound, running or stored by the old one (08 R255,
09 R281). A fault that waits for the next firing dispatched there still waits for it (09 R280). -/
def activate (e : Element) (colour load : Nat) : Element :=
  { Element.reset with
    mem := e.mem, active := e.active, staged := e.staged, imgDesc := e.imgDesc, constDesc := e.constDesc
    configured := true, colour := colour, load := load, pend := e.pend, dirty := e.dirty }

/-- An element without an active bank. What a firing has queued in the matrix unit, or pushed to a write run, runs on
(08 R254, 09 R278). -/
def unconfigure (e : Element) : Element :=
  { Element.reset with
    mem := e.mem, active := e.active, staged := e.staged, imgDesc := e.imgDesc, constDesc := e.constDesc
    colour := e.colour, load := e.load, acc := e.acc, tiles := e.tiles, mprog := e.mprog, mq := e.mq, pend := e.pend
    gens := e.gens.map fun g => if g.waiting = [] then Gen.reset else g, dirty := e.dirty }

/-- An element of a region that is freed: its memory stays, and what runs on in its units. -/
def freed (e : Element) : Element :=
  { unconfigure e with active := [], staged := [], imgDesc := none, constDesc := none, colour := 0, load := 0, dirty := [] }

/-- Whether nothing of an earlier bank is still under way in an element: it then may activate one (08 R255, 09 R281). A write run
that has accepted fewer pushes than its length does not hold the switch once those are written (L96). -/
def unitsQuiet (e : Element) : Bool := e.mq = [] && e.gens.toList.all fun g => g.waiting = []

/-! ## Endpoints -/

/-- Whether a source or a destination belongs to a selection of endpoints of one die. -/
def sourceIn (die : Nat) (ps : Option (List Nat)) (x : Source) : Bool :=
  x.die = die &&
    match ps with
    | none => true
    | some l => x.kind = .element && l.contains x.pos
def destIn (die : Nat) (ps : Option (List Nat)) (x : Dest) : Bool :=
  x.die = die &&
    match ps with
    | none => true
    | some l => x.kind = .element && l.contains x.pos

/-- The endpoints of a die that are bound in the active bank become endpoints of a load, with the consumers that the
sources lead to, so that tokens wait there (14 R381). -/
def State.commitEnds (s : State) (die colour load : Nat) (ps : Option (List Nat)) : State :=
  let mine (b : Bind) := b.colour = colour && b.load.isNone && sourceIn die ps b.source
  let dests := (s.binds.filter mine).flatMap Bind.dests
  { s with
    binds := s.binds.map fun b => if mine b then { b with load := some load } else b
    chans := s.chans.map fun c =>
      if c.colour = colour && c.load.isNone && (destIn die ps c.dest || dests.contains c.dest) then
        { c with load := some load } else c
    depths := s.depths.map fun x => if x.colour = colour && x.load.isNone && x.die = die then { x with load := some load } else x }

/-- The endpoints of a load on a die, gone, with what they hold. -/
def State.dropEnds (s : State) (die colour : Nat) (load : Option Nat) : State :=
  { s with
    binds := s.binds.filter fun b => !(b.source.die = die && b.colour = colour && b.load = load)
    chans := s.chans.filter fun c => !(c.dest.die = die && c.colour = colour && c.load = load)
    depths := s.depths.filter fun x => !(x.die = die && x.colour = colour && x.load = load) }

/-! ## Committing and aborting a load -/

/-- Elements of a list that LOAD.COMMIT would activate. -/
def State.committable (s : State) (die : Nat) (ps : List Nat) : List Nat :=
  ps.filter fun p => validSlots (s.elem (elemKey die p)).active ≠ []

/-- Nodes of a colour on a die that the active bank binds. -/
def State.boundNodes (s : State) (die colour : Nat) : List Nat :=
  (s.regionNodes die colour).filter fun n =>
    s.binds.any fun b => b.colour = colour && b.load.isNone && b.source.die = die && b.source.kind = .node && b.source.pos = n

/-- The active bank made active. -/
def State.commitLoad (s : State) (die colour load : Nat) (ps : List Nat) (one : Bool) : State :=
  let act := s.committable die ps
  let nodes := if one then [] else s.boundNodes die colour
  let s := s.mapElems die (activate · colour load) act
  let s := s.mapNodes die (fun n => { Node.reset with
    active := n.active, staged := n.staged, stagedValid := n.stagedValid, configured := true, colour := colour, load := load }) nodes
  let s := s.mapMas die (fun m => { m with load := load })
    ((s.colourSlots die colour).filter fun n => (s.ma (maKey die n)).st = .configured)
  s.commitEnds die colour load (if one then some act else none)

/-- Discarding the staged bank of a colour on a die, with the key of its load. -/
def State.dropStaging (s : State) (die colour load : Nat) : State :=
  let g := s.staging die colour
  let s := s.mapElems die dropStaged (s.regionElems die colour)
  let s := s.mapNodes die (fun n => { n with stagedValid := false }) (s.regionNodes die colour)
  let s := s.mapMas die (fun m => { m with stagedValid := false }) (s.colourSlots die colour)
  let s := if g.isOpen || g.closed then s.dropEnds die colour (some load) else s
  s.setStaging die colour { Staging.reset with weir := g.weir, drained := g.drained, area := g.area }

/-- Elements of a colour that are active for a load of a number on a die. -/
def State.elemsOfLoad (s : State) (die colour number : Nat) : List Nat :=
  (s.elems.filter fun x =>
    x.1 / 6400 = die && x.2.configured && x.2.colour = colour && loadNumber x.2.load = number).map fun x => x.1 % 6400

/-- Elements of a colour that are active for a load, by its key, on a die. -/
def State.activeElems (s : State) (die colour load : Nat) : List Nat :=
  (s.elems.filter fun x =>
    x.1 / 6400 = die && x.2.configured && x.2.colour = colour && x.2.load = load).map fun x => x.1 % 6400

/-- A firing abandoned without commit, and its element unconfigured (14 R382). -/
def State.stopElement (s : State) (k : Nat) : State :=
  let s := s.undo k
  s.setElem k (unconfigure (s.elem k))

/-- A slot without an active bank. Its stores that are issued and not performed are dropped: 14 R382 discards its tokens and
says nothing of them (L72). -/
def unconfigureMa (m : MemActor) : MemActor :=
  { MemActor.reset with active := m.active, staged := m.staged, stagedValid := m.stagedValid, colour := m.colour }

/-- The packets of a slot's requests and answers. -/
def packetOf (die slot : Nat) : Cargo → Bool
  | .request d n _ _ _ | .response d n _ _ _ => d = die && n = slot
  | _ => false

/-- A slot unconfigured, with the packets of its requests. -/
def State.stopMa (s : State) (die slot : Nat) : State := (s.mapMa die slot unconfigureMa).consume (packetOf die slot)

/-- Whether LOAD.ABORT discards a cargo of its colour that a failed link holds; memory requests and their answers go with their
slots, and the others belong to no colour (L73). -/
def heldGoes : Cargo → Bool
  | .token _ | .spill _ | .unspill | .ask _ _ _ | .notice _ _ _ | .moved _ _ => true
  | .request _ _ _ _ _ | .response _ _ _ _ _ | .command _ _ | .drained _ _ | .inval _ _ => false

/-- Whether LOAD.ABORT discards a packet held for a failed link of a die (15 R418). -/
def State.heldToken (s : State) (die colour : Nat) (p : Packet) : Bool :=
  p.colour = colour && heldGoes p.cargo && (List.range 5).any fun l => s.link die l = .failed && s.heldBy die l p

/-- The packets that LOAD.ABORT discards at failed links of a die, gone with what they would have brought: a free notice, or a
request to a sluice. -/
def State.dropHeld (s : State) (die colour : Nat) : State :=
  let gone := (s.packets.filter (s.heldToken die colour)).map Packet.cargo
  { s with
    packets := s.packets.filter fun p => !s.heldToken die colour p
    notices := s.notices.filter fun n => !gone.contains (.notice n.pool n.value n.elem)
    pools := s.pools.map fun x => (x.1, { x.2 with asks := x.2.asks.filter fun a => !gone.contains (.ask x.1 a.1 a.2) }) }

/-- LOAD.ABORT on one die, of the load of a number in either bank. -/
def State.abortLoad (s : State) (die colour load : Nat) : State :=
  let n := loadNumber load
  let g := s.staging die colour
  let s := if (g.isOpen || g.closed) && loadNumber g.load = n then s.dropStaging die colour g.load else s
  let s := (s.elemsOfLoad die colour n).foldl (fun t p => t.stopElement (elemKey die p)) s
  let s := s.mapNodes die (fun n => { Node.reset with active := n.active, staged := n.staged, stagedValid := n.stagedValid })
    ((s.nodes.filter fun x =>
      x.1 / 1600 = die && x.2.configured && x.2.colour = colour && loadNumber x.2.load = n).map (·.1 % 1600))
  let s := ((s.colourSlots die colour).filter fun i =>
    loadNumber (s.ma (maKey die i)).load = n && (s.ma (maKey die i)).st ≠ .unconfigured).foldl (fun t i => t.stopMa die i) s
  let s := s.dropHeld die colour
  (s.dropEnds die colour (some n)).dropEnds die colour (some (n + 64))

/-! ## Regions -/

/-- The key of what is kept of a headgate or outfall of a cut launch: Table 15-5 gives them no place (L18). -/
def savedHead (colour key : Nat) : Nat := 1024 * (colour + 1) + key

/-- A headgate of a cut launch: its stream is kept for the resume, with tokens of a load that has no channel there yet
(R327, L42). -/
def State.saveHead (s : State) (colour key : Nat) : State :=
  if (s.head key).st = .idle then s else (s.setHead (savedHead colour key) (s.head key)).setHead key Headgate.reset

/-- An outfall of a cut launch: a repair request that waits for its substitute, and the binding to a headgate of the partner (16
R450), are kept for the resume. -/
def State.saveOut (s : State) (colour key : Nat) : State :=
  let o := s.out key
  if o.colour = some colour && (o.subst.isSome || o.peer.isSome) then
    s.setOut (savedHead colour key) { Outfall.reset with subst := o.subst, peer := o.peer }
  else s

/-- The headgates and outfalls of a colour among some, kept. -/
def State.saveGatesOf (s : State) (colour : Nat) (keys : List Nat) : State :=
  let t := (keys.filter fun n => (s.head n).colour = some colour).foldl (fun t n => t.saveHead colour n) s
  keys.foldl (fun t n => t.saveOut colour n) t

/-- What still keeps a region from being freed on a die (14 R384). -/
def State.regionBusy (s : State) (die colour : Nat) : Bool :=
  let g := s.staging die colour
  (s.regionElems die colour).any (fun p =>
    let e := s.elem (elemKey die p)
    (e.configured && e.colour = colour) || ((g.isOpen || g.closed) && e.cut ≠ .saved && validSlots e.staged ≠ [])) ||
  (s.regionNodes die colour).any (fun n => let x := s.node (nodeKey die n); !x.saved && x.colour = colour && (x.configured || (x.stagedValid && (g.isOpen || g.closed)))) ||
  (s.colourSlots die colour).any (fun n => let m := s.ma (maKey die n); !m.saved && (m.st ≠ .unconfigured || m.stagedValid))

/-- Granting the plots of a die in a rectangle. -/
def State.grantPlots (s : State) (die colour : Nat) (r : Rect) : State :=
  ((List.range 400).filter (rectHolds r die)).foldl
    (fun t p => t.setPlot (die * 400 + p) { t.plot (die * 400 + p) with colour := some colour })
    { s with grants := tabSet s.grants (die * 16 + colour) r }

/-- Freeing a colour's plots, headgates, outfalls and slots on a die. -/
def State.freeRegion (s : State) (die colour : Nat) : State :=
  let s := s.mapElems die freed (s.regionElems die colour)
  let s := s.mapNodes die (fun _ => Node.reset) (s.regionNodes die colour)
  let s := s.mapMas die (fun _ => MemActor.reset) (s.colourSlots die colour)
  let s := (List.range 16).foldl (fun t n =>
    let h := t.head (die * 16 + n)
    let o := t.out (die * 16 + n)
    let t := if h.colour = some colour then t.setHead (die * 16 + n) { h with colour := none } else t
    if o.colour = some colour then
      t.setOut (die * 16 + n) { o with colour := none, peer := none, weired := false, subst := none, selected := none } else t) s
  let s := (s.regionPlots die colour).foldl
    (fun t p => t.setPlot (die * 400 + p) { t.plot (die * 400 + p) with colour := none, lastColour := some colour }) s
  let s := { s with grants := tabDel s.grants (die * 16 + colour) }
  s.setStaging die colour { Staging.reset with area := (s.staging die colour).area }

/-! ## Counts (13 R354, R341) -/

/-- A headgate as a source. -/
def headSource (key : Nat) : Source := { die := key / 16, kind := .headgate, pos := key % 16, out := 0 }

/-- The load that a source runs: an element's own; for a headgate the oldest that its switch token has not closed. -/
def State.sourceLoad (s : State) (x : Source) (colour : Nat) : Nat :=
  match x.kind with
  | .element => (s.elem (elemKey x.die x.pos)).load
  | .memActor => (s.ma (maKey x.die x.pos)).load
  | .node => (s.node (nodeKey x.die x.pos)).load
  | .headgate =>
    ((s.binds.find? fun b => b.source = x && b.colour = colour && b.load.isSome && !b.switched).bind Bind.load).getD 0

/-- Whether a headgate of a colour has a channel for what it holds. -/
def State.gateBound (s : State) (key colour : Nat) : Bool :=
  (s.srcBind (headSource key) colour (s.sourceLoad (headSource key) colour)).isSome

/-- Tokens that the headgates hold for a colour. In a cut, those of a gate whose load has no channel yet are saved with the
gate (13 R327, 15 R424). -/
def State.headHeld (s : State) (colour : Nat) : Nat :=
  ((s.heads.filter fun x =>
      x.1 < 1024 && x.2.colour = some colour && !((s.staging (x.1 / 16) colour).weir && !s.gateBound x.1 colour)).map
    fun x => x.2.held.length).sum

/-- Whether a packet has been delivered though it is still listed: a command that waits at its engine. -/
def Packet.delivered (p : Packet) : Bool :=
  p.atTarget &&
    match p.cargo with
    | .command _ _ => true
    | _ => false

/-- The module-wide in-flight count of a colour: packets under way, flume queues, headgates, memory actors. Tokens in the
spillway no longer count (15 R424). -/
def State.inFlight (s : State) (colour : Nat) : Nat :=
  (s.packets.countP fun p => p.colour = colour && !p.delivered) +
    ((s.chans.filter fun c => c.colour = colour).map fun c => c.queue.length + c.rear.length + c.early.length).sum +
    s.headHeld colour +
    ((s.mas.filter fun x => x.1 < 4096 && x.2.colour = colour && !x.2.saved).map fun x =>
      x.2.flight.length + x.2.out.length).sum

/-- Whether every actor replica of a load on a die has ended. -/
def State.elemsEnded (s : State) (die colour load : Nat) : Bool :=
  (s.activeElems die colour load).all fun p =>
    let e := s.elem (elemKey die p)
    (validSlots e.active).all fun n => nth e.ends.toList n .active = .ended

/-- Whether every memory actor of a load on a die has ended with nothing outstanding. -/
def State.masEnded (s : State) (die colour load : Nat) : Bool :=
  (s.colourSlots die colour).all fun n =>
    let m := s.ma (maKey die n)
    m.st = .unconfigured || m.load ≠ load || (m.st = .ended && outstanding m = 0)

/-- Whether a channel endpoint has delivered every EOS, counting what an element's port has counted. A weir or switch token
behind them is none of the load's tokens. -/
def State.chanEnded (s : State) (c : Chan) : Bool :=
  match c.dest.kind with
  | .element => s.portEnded (elemKey c.dest.die c.dest.pos) c.dest.din
  | .memActor | .node | .outfall => 0 < s.chanProducers c && s.chanProducers c ≤ c.eos

/-- Whether the actors of the saved elements of a launch have all ended, and its saved memory actors with nothing outstanding:
saved targets count as they are saved (15 R428). -/
def State.savedEnded (s : State) (l : Launch) : Bool :=
  s.elems.all fun x =>
    !(x.1 / 409600 = l.colour + 1) || (validSlots x.2.active).all fun n => nth x.2.ends.toList n .active = .ended
def State.savedMasEnded (s : State) (l : Launch) : Bool :=
  s.mas.all fun x => !(x.1 / 4096 = l.colour + 1) || (x.2.st = .ended && outstanding x.2 = 0)

/-- A load is complete (R341); one that LOAD.ABORT has made absent is not (02 Table 2-7). -/
def State.loadDone (s : State) (l : Launch) : Bool :=
  !l.absent && s.savedEnded l && s.savedMasEnded l &&
    (l.dies.all fun d => s.elemsEnded d l.colour l.load && s.masEnded d l.colour l.load) &&
    (s.chans.filter fun c => c.colour = l.colour && c.load = some l.load).all (s.chanEnded ·)

/-! ## The end of a launch (13 R341, 15 R408) -/

/-- A launch that will send its completion message: status and detail. -/
def finishing (status : Nat) (detail : DWord × DWord) (l : Launch) : Launch :=
  { l with st := .finishing, status := status, detail := detail }

/-- A headgate of a launch discards what it holds and is idle. -/
def State.idleGates (s : State) (colour : Nat) : State :=
  { s with heads := s.heads.map fun x =>
      if x.2.colour = some colour then
        (x.1, { x.2 with st := .idle, held := [], fresh := [], answer := none, eosSeen := false }) else x }

/-- LOAD.ABORT of the active and of any staged load of a launch on every compute die of the region; its headgates discard what
they hold. -/
def State.abortLoads (s : State) (l : Launch) : State :=
  (l.dies.foldl (fun t d =>
    let g := t.staging d l.colour
    let t := if g.isOpen || g.closed || g.armed then t.dropStaging d l.colour g.load else t
    (t.abortLoad d l.colour g.load).abortLoad d l.colour l.load) s).idleGates l.colour

/-- ABORT: the loads of the launch are aborted; the completion message follows once the colour's count reads zero (R408). -/
def State.abortLaunch (s : State) (colour : Nat) (detail : DWord × DWord) : State :=
  match s.launch colour with
  | none => s
  | some l => (s.abortLoads l).mapLaunch colour (finishing 2 detail)

/-- Whether a load of a launch still stands on one of its dies: an element, a memory actor or a node has it. -/
def State.loadStands (s : State) (l : Launch) : Bool :=
  l.dies.any fun d =>
    s.elems.any (fun x => x.1 / 6400 = d && x.2.configured && x.2.colour = l.colour) ||
      s.mas.any (fun x => x.1 / 64 = d && x.2.st ≠ .unconfigured && x.2.colour = l.colour) ||
      s.nodes.any (fun x => x.1 / 1600 = d && x.2.configured && x.2.colour = l.colour)

/-- A configuration fetch fault while a load is staged: the load is absent on every die of the region, every element stays in
its old bank, and the launch ends with status 2 (02 R63, 13 R337). -/
def State.failLaunch (s : State) (l : Launch) : State :=
  (l.dies.foldl (fun t d =>
    let g := t.staging d l.colour
    if (g.isOpen || g.closed) && !g.armed then t.dropStaging d l.colour g.load else t) s).mapLaunch l.colour (finishing 2 (0, 0))

end Sys2Proof.Machine
end

