-- ==== Sys2Proof/Machine/Repair.lean ====
section
/-! DEFINITION. Repairs and the fault and repair channels (02 R42, R51; 14 R390; 15 R403 to R409). -/

namespace Sys2Proof.Machine

/-! ## Records -/

/-- Fields of a record. -/
def recCode (r : Rec) : Nat := r.w0.toNat % 256
def recSeq (r : Rec) : Nat := r.w0.toNat / 2 ^ 32
def recHolds (r : Rec) : Nat := r.w0.toNat / 2 ^ 16 % 4
def recKind (r : Rec) : Nat := r.w1.toNat / 2 ^ 32 % 16
def recPos (r : Rec) : Nat := r.w1.toNat / 2 ^ 16 % 65536
def recLdie (r : Rec) : Nat := r.w1.toNat % 64
def recTag (r : Rec) : Word := r.w2.extractLsb' 32 32
def recSlot (r : Rec) : Nat := if recKind r = 0 then r.w2.toNat / 2 ^ 16 % 8 else 0

/-- Whether a record of an origin at a position is that of a held fault of an element's actor slot and tag, or of a memory actor
slot. -/
def recNames (die pos slot : Nat) (tag : Word) (isMa : Bool) (d p : Nat) (r : Rec) : Bool :=
  d = die && recHolds r ≠ 0 && p = pos &&
    if isMa then recKind r = 1 else recKind r = 0 && recSlot r = slot && recTag r = tag

/-- Words 1 and 2 of the newest record of a fault that is held, for the completion message of an ABORT (R408). -/
def State.recordOf (s : State) (die pos slot : Nat) (tag : Word) (isMa : Bool) : DWord × DWord :=
  let open' := (s.hw.faultsOpen.filter fun f => recNames die pos slot tag isMa f.die f.pos f.record).map OpenFault.record
  let sent := (s.levee.filter fun f => recNames die pos slot tag isMa f.die f.pos f.record).map LeveeRec.record
  match (open' ++ sent).getLast? with
  | some r => (r.w1, r.w2)
  | none => (0, 0)

/-- A repaired fault is no longer open. -/
def State.closeFault (s : State) (die pos slot : Nat) (tag : Word) (isMa : Bool) : State :=
  { s with hw := { s.hw with
      faultsOpen := s.hw.faultsOpen.filter fun f => !recNames die pos slot tag isMa f.die f.pos f.record } }

/-! ## Repairs of an element -/

/-- A place put in front of the first place of a list that meets a condition. -/
def insertBefore (f : Nat → Bool) (p : Nat) : List Nat → Option (List Nat)
  | [] => none
  | x :: t => if f x then some (p :: x :: t) else (insertBefore f p t).map (x :: ·)

/-- A repaired entry is READY (Table 2-5). An ordered actor keeps its order, so its entry stands ahead of every younger one
(L31, from R40 and R409): among the READY; or, where younger ones are in the run queue and it has a place, ahead of them
there, which it joins at once. A tagged actor's stands last among the READY. -/
def readmit (e : Element) (p : Nat) (en : Entry) : Element :=
  let same (q : Nat) : Bool := placeSlot e q = en.slot
  let last := { setEntry e p { en with st := .ready } with ready := e.ready ++ [p] }
  if slotOrdered e en.slot then
    match insertBefore same p e.runq, insertBefore same p e.ready with
    | some q, r =>
      if q.length ≤ runqSize then { setEntry e p { en with st := .queued } with runq := q }
      else { last with ready := r.getD (p :: e.ready) }
    | none, some r => { last with ready := r }
    | none, none => last
  else last

/-- An entry to run again with xc.retry, and with a payload in place of operand 0's. -/
def retryEntry (en : Entry) : Entry := { en with retry := true }
def substEntry (en : Entry) (v : DWord) : Entry := { en with retry := true, payloads := en.payloads.set 0 v }

/-- A repair of the FAULTED entry at place p: status and state. An entry of R41 accepts only SKIP and ABORT (R407). -/
def State.repairEntry (s : State) (k p : Nat) (en : Entry) (kind : RepairKind) (v : DWord) : Nat × State :=
  let e := s.elem k
  let whole := en.present = requiredMask e en.slot
  match kind with
  | .resume => if whole then (0, s.setElem k (readmit e p (retryEntry en))) else (2, s)
  | .subst => if whole then (0, s.setElem k (readmit e p (substEntry en v))) else (2, s)
  | .skip => (0, (s.setElem k { e with store := tabDel e.store p }).checkMatch k)
  | .abort => (0, s.abortLaunch e.colour (s.recordOf (k / 6400) (k % 6400) en.slot en.tag false))

/-- Output ports of a slot. -/
def slotOuts (e : Element) (slot : Nat) : List Nat :=
  (List.range 16).filter fun o => outBound e o && outSlot e o = slot

/-- EOS on every output port of a slot that is not closed (R42), if all have the credit (13 R350). -/
def State.closeSlot (s : State) (k slot : Nat) : Option State :=
  let e := s.elem k
  s.tryEmits (eosToken e.colour)
    (((slotOuts e slot).filter fun o => (s.srcBind (elemSource k o) e.colour e.load).any fun b => !b.closed).map fun o =>
      (elemSource k o, e.load))

/-- What a repair that has to wait comes to in place of a status: it acts later. -/
def notYet : Nat := 256

/-- A repair of a FAULTED end firing (R42): SUBST does not suit it, and SKIP waits for the credits of its EOS tokens. -/
def State.repairEnd (s : State) (k slot : Nat) (kind : RepairKind) : Nat × State :=
  let e := s.elem k
  match kind with
  | .resume =>
    (0, s.setElem k { e with ends := e.ends.setIfInBounds slot (.ready true), ready := e.ready ++ [endPlace slot] })
  | .skip =>
    match s.closeSlot k slot with
    | some t => (0, t.setElem k { t.elem k with ends := (t.elem k).ends.setIfInBounds slot .ended })
    | none => (notYet, s)
  | .subst => (2, s)
  | .abort => (0, s.abortLaunch e.colour (s.recordOf (k / 6400) (k % 6400) slot 0 false))

/-- A repair that names an actor slot and a tag on an element: its status (14 Table 14-5) and the state after it. -/
def State.repairElement (s : State) (k slot : Nat) (tag : Word) (kind : RepairKind) (v : DWord) : Nat × State :=
  let e := s.elem k
  if !e.configured || e.cut = .saved then (3, s)
  else
    match findEntry e slot tag with
    | some (p, en) => if en.st = .faulted then s.repairEntry k p en kind v else (3, s)
    | none => if tag = 0 && nth e.ends.toList slot .active = .faulted then s.repairEnd k slot kind else (3, s)

/-- A repair of an element or a memory actor; an applied one closes the fault. -/
def State.repair (s : State) (die pos slot : Nat) (tag : Word) (isMa : Bool) (kind : RepairKind) (v : DWord) : Nat × State :=
  let r :=
    if isMa then
      let q := s.repairMa die pos kind v
      if q.1 = 0 && kind = .abort then
        (0, q.2.abortLaunch (s.ma (maKey die pos)).colour (s.recordOf die pos 0 0 true)) else q
    else s.repairElement (elemKey die pos) slot tag kind v
  if r.1 = 0 then (0, r.2.closeFault die pos slot tag isMa) else r

/-- Whether repairs may act on an element now: between firings (14 R375, 15 R409). -/
def State.betweenFirings (s : State) (k : Nat) : Bool := (s.elem k).fir.status = .idle

/-! ## The fault channel (15 R403, R404) -/

/-- The fault handle of a record. -/
def faultHandle (r : Rec) : DWord :=
  BitVec.ofNat 64 (recSeq r * 2 ^ 32 + recSlot r * 2 ^ 28 + recPos r % 8192 * 2 ^ 15 +
    (if recKind r = 1 then 2 ^ 14 else 0) + recLdie r * 2 ^ 8 + recCode r)

/-- The fault token of a record. -/
def faultTokenOf (colour : Nat) (r : Rec) : Token := maToken colour (faultHandle r) (recTag r)

/-- A record of the levee network that owes no token any more. -/
def State.tokenSent (s : State) (i : Nat) (x : LeveeRec) : State :=
  { s with levee := if x.toBox then setNth s.levee i { x with toChannel := false } else dropNth s.levee i }

/-- A record whose token can enter no channel, left to the die controller: one that stands in mailbox 0 already is due for a
FAULT event (R406). -/
def State.toController (s : State) (i : Nat) (x : LeveeRec) : State :=
  let t := s.tokenSent i { x with handled := true }
  if x.toBox then t
  else
    { t with hw := { t.hw with
        faultsOpen := t.hw.faultsOpen.map fun f => if f.die = x.die && f.record = x.record then { f with channel := false } else f } }

/-- The levee network delivers the first fault token that is due on a die into the fault channel of the load of its origin. -/
def execFaultToken (die : Nat) (s : State) : Out :=
  match s.levee.findIdx? fun x => x.die = die && x.toChannel with
  | none => .next s
  | some i =>
    match s.levee[i]? with
    | none => .next s
    | some x =>
      match s.faultChannel x.colour x.load with
      | none => .next (s.toController i x)
      | some b =>
        match s.tryEmit b.source x.load (faultTokenOf x.colour x.record) with
        | none => .next s
        | some t => .next (t.tokenSent i x)

/-! ## The repair channel (15 R405) -/

/-- The repair token of a request and its substitute; none where a field is reserved or names no party. -/
def State.repairOf (s : State) (colour : Nat) (req : Token) (subst : DWord) : Option RepairTok :=
  let p := req.payload.toNat
  let isMa := p / 2 ^ 14 % 2 = 1
  let pos := p / 2 ^ 15 % 8192
  if p / 2 ^ 35 ≠ 0 || p / 2 ^ 31 % 2 ≠ 0 || 4 ≤ p / 2 ^ 32 || (if isMa then 64 else 6400) ≤ pos then none
  else
    (s.dieOf (p / 2 ^ 8 % 64)).map fun d =>
      { dest := if isMa then maKey d pos else elemKey d pos, isMa := isMa, slot := p / 2 ^ 28 % 8, tag := req.tag,
        kind := p / 2 ^ 32 % 8, subst := subst, colour := colour }

/-- The repair token, if the request is a good one, on the levee network. -/
def State.sendRepair (s : State) (colour : Nat) (req : Token) (subst : DWord) : State :=
  { s with repairs := s.repairs ++ (s.repairOf colour req subst).toList }

/-- A token taken from a channel at an outfall without leaving the module; EOS and switch tokens are counted. -/
def State.takeOut (s : State) (c : Chan) (t : Token) : State :=
  s.popChan c.dest c.colour c.load (countMarks t)

/-- The repair unit of region die 0 takes the next token of the repair channel: a request, or the substitute that a SUBST
request waits for. -/
def execRepairRequest (colour : Nat) (s : State) : Out :=
  match s.chans.find? fun c => c.colour = colour && s.isRepair c && c.queue ≠ [] with
  | none => .next s
  | some c =>
    match c.head with
    | none => .next s
    | some t =>
      let key := c.dest.die * 16 + c.dest.pos
      let u := s.takeOut c t
      let o := u.out key
      if t.kind ≠ .data then .next u
      else
        match o.subst with
        | some req => .next ((u.setOut key { o with subst := none }).sendRepair colour req t.payload)
        | none =>
          if t.payload.toNat / 2 ^ 32 % 8 = 2 then .next (u.setOut key { o with subst := some t })
          else .next (u.sendRepair colour t 0)

/-- A repair token acts as REPAIR does; one that finds nothing to act on is discarded. -/
def State.applyRepair (s : State) (r : RepairTok) : Nat × State :=
  match repairKind r.kind with
  | none => (3, s)
  | some kind =>
    if r.isMa then
      if r.dest < 4096 && (s.ma r.dest).colour = r.colour then s.repair (r.dest / 64) (r.dest % 64) 0 0 true kind r.subst
      else (3, s)
    else if (s.elem r.dest).colour = r.colour then s.repair (r.dest / 6400) (r.dest % 6400) r.slot r.tag false kind r.subst
    else (3, s)

/-- The repair token reaches its target, behind every earlier one for it, between two firings. -/
def execRepairToken (i : Nat) (s : State) : Out :=
  match s.repairs[i]? with
  | none => .next s
  | some r =>
    let first := !((s.repairs.take i).any fun q => q.isMa = r.isMa && q.dest = r.dest)
    if first && (r.isMa || s.betweenFirings r.dest) then
      let q := ({ s with repairs := dropNth s.repairs i } : State).applyRepair r
      .next (if q.1 = notYet then s else q.2)
    else .next s

end Sys2Proof.Machine
end

