-- ==== Sys2Proof/Machine/Command.lean ====
section
/-! DEFINITION. Stream commands (14 R372 to R376): their fields, their order, and their completion. A command is an event
named by its issuer and its ticket; `mine` says which commands an event performs. -/

namespace Sys2Proof.Machine

/-- The fields of a command (R372). -/
structure Cmd where
  issuer : Nat
  code : Nat
  fl : Nat
  rsv : Nat
  colour : Nat
  ldie : Nat
  tgt : Nat
  arg : Nat
  opd : Nat
deriving DecidableEq, Repr

/-- The fields of a ticket's command. -/
def cmdOf (issuer : Nat) (t : Ticket) : Cmd :=
  let w := t.lo.toNat
  { issuer := issuer, code := w % 256, fl := w / 2 ^ 8 % 256, rsv := w / 2 ^ 16 % 64, colour := w / 2 ^ 22 % 16,
    ldie := w / 2 ^ 26 % 64, tgt := w / 2 ^ 32 % 65536, arg := w / 2 ^ 48, opd := t.hi.toNat }

/-- Every such target in the colour's region on the die. -/
def allTargets : Nat := 0xFFFF

/-- What a command comes to: a status other than 0, its value with its completion, performed on its targets with completion
to come, or not performed yet. -/
inductive Result where
  | fails (status : Nat) (s : State)
  | done (value : Nat) (s : State)
  | later (value : Nat) (places : List Nat) (s : State)
  | wait

/-- A completion word (R373). -/
def completionWord (code status value : Nat) : DWord := BitVec.ofNat 64 (value % 2 ^ 48 * 2 ^ 16 + code * 2 ^ 8 + status)

/-- A ticket of a controller by its number. -/
def State.ticket (s : State) (die ticket : Nat) : Option Ticket :=
  (s.ctrl die).tickets.find? fun t => t.num.toNat = ticket

/-- The phase of a ticket. -/
def State.setPhase (s : State) (die ticket : Nat) (p : TicketPhase) : State :=
  let c := s.ctrl die
  s.setCtrl die { c with tickets := c.tickets.map fun t => if t.num.toNat = ticket then { t with phase := p } else t }

/-- The completion of a command. -/
def State.finish (s : State) (die ticket code status value : Nat) : State :=
  s.setPhase die ticket (.done (completionWord code status value))

/-- Whether an earlier command of the issuer to the same die has not been performed (R374). -/
def State.heldUp (s : State) (die : Nat) (t : Ticket) (c : Cmd) : Bool :=
  ((s.ctrl die).tickets.takeWhile fun x => x.num ≠ t.num).any fun x => x.phase = .issued && (cmdOf die x).ldie = c.ldie

/-- Posting what a command has come to. -/
def State.post (s : State) (die ticket code : Nat) (r : Result) : State :=
  match r with
  | .fails n t => t.finish die ticket code n 0
  | .done v t => t.finish die ticket code 0 v
  | .later v ps t => t.setPhase die ticket (.performed v ps)
  | .wait => s

/-- A command of the module: its checks of encoding (status 1), then what it comes to on the die it names. -/
def State.runCmd (s : State) (c : Cmd) (ok : Bool) (eff : Nat → Result) : Result :=
  if c.rsv ≠ 0 || !ok then .fails 1 s
  else
    match s.dieOf c.ldie with
    | none => .fails 1 s
    | some d => eff d

/-- The packet of a command. -/
def isCommand (die ticket : Nat) (c : Cargo) : Bool := c = .command die ticket

/-- Performing the command of a ticket, if it is one of `mine` and has arrived. -/
def command (die ticket : Nat) (mine ok : Cmd → Bool) (eff : State → Cmd → Nat → Result) (s : State) : Out :=
  match s.ticket die ticket with
  | none => .next s
  | some t =>
    let c := cmdOf die t
    if t.phase = .issued && mine c && !s.heldUp die t c && s.arrived (isCommand die ticket) then
      let u := s.consume (isCommand die ticket)
      match u.runCmd c (ok c) (eff u c) with
      | .wait => .next s
      | r => .next (u.post die ticket c.code r)
    else .next s

/-! ## Targets -/

/-- What a target field comes to: the places on the die, or the status that refuses it. -/
inductive Targets where
  | places (l : List Nat)
  | bad (status : Nat)

/-- Element targets: those of the colour's region, live ones only (Table 14-5: status 2 or 6). -/
def State.elemTargets (s : State) (d : Nat) (c : Cmd) : Targets :=
  if c.tgt = allTargets then .places (s.regionElems d c.colour)
  else if !s.liveElem d c.tgt then .bad 2
  else if (s.plot (d * 400 + c.tgt / 16)).colour ≠ some c.colour then .bad 6
  else .places [c.tgt]

/-- Node targets. -/
def State.nodeTargets (s : State) (d : Nat) (c : Cmd) : Targets :=
  if c.tgt = allTargets then .places (s.regionNodes d c.colour)
  else if 1600 ≤ c.tgt || !s.liveRouter { die := d, plot := c.tgt / 4 } then .bad 2
  else if (s.plot (d * 400 + c.tgt / 4)).colour ≠ some c.colour then .bad 6
  else .places [c.tgt]

/-- Whether a die is within a colour's region: the colour holds a plot there; colour 0 has no region, and is kept from none
(14 R373, R384). -/
def State.holdsPlot (s : State) (d colour : Nat) : Bool :=
  colour = 0 || (List.range 400).any fun p => (s.plot (d * 400 + p)).colour = some colour

/-- Memory actor slots: those of the colour, on a die of its region. -/
def State.slotTargets (s : State) (d : Nat) (c : Cmd) : Targets :=
  if c.tgt = allTargets then .places (s.colourSlots d c.colour)
  else if 64 ≤ c.tgt then .bad 2
  else
    let m := s.ma (maKey d c.tgt)
    if !s.holdsPlot d c.colour || ((m.st ≠ .unconfigured || m.stagedValid || m.saved) && m.colour ≠ c.colour) then .bad 6
    else .places [c.tgt]

/-! ## Moves under way (13 R347) -/

/-- Ports that an element uses, and those of a slot. -/
def usedIns (e : Element) : List Nat := (List.range 8).filter fun i => portMode e i ≠ .unbound
def usedOuts (e : Element) : List Nat := (List.range 16).filter (outBound e ·)
def slotIns (e : Element) (slot : Nat) : List Nat := (usedIns e).filter fun i => portSlot e i = slot

/-- What a REBAL.MOVE names: source and target keys and slots. -/
structure Move where
  src : Nat
  slot : Nat
  dst : Nat
  dslot : Nat
deriving DecidableEq, Repr

/-- The move of an element position that a command on die d names. -/
def State.moveOf (s : State) (c : Cmd) (d pos : Nat) : Option Move :=
  (s.dieOf (c.opd / 2 ^ 13 % 64)).map fun t =>
    { src := elemKey d pos, slot := c.arg % 8, dst := elemKey t (c.opd % 2 ^ 13), dslot := c.opd / 2 ^ 19 % 8 }

/-- The moves that have begun and are not complete, with their colour and with issuer and number of their command. -/
def State.moves (s : State) : List (Move × Nat × Nat × Nat) :=
  s.ctrls.flatMap fun x => x.2.tickets.filterMap fun t =>
    let c := cmdOf x.1 t
    match t.phase, s.dieOf c.ldie with
    | .performed _ (pos :: _), some d =>
      if c.code = 0x16 then (s.moveOf c d pos).map fun m => (m, c.colour, x.1, t.num.toNat) else none
    | _, _ => none

/-- A destination among the inputs of a moved slot becomes that of another element. -/
def moveDest (ports : List Nat) (a b : Nat) (d : Dest) : Dest :=
  if d.kind = .element && elemKey d.die d.pos = a && ports.contains d.din then
    { d with die := b / 6400, pos := b % 6400 } else d

/-- Every sending port, every flume queue with its spills, and every token under way for a slot's inputs goes from element a to
element b. -/
def State.retarget (s : State) (colour : Nat) (ports : List Nat) (a b : Nat) : State :=
  let f := moveDest ports a b
  { s with
    binds := s.binds.map fun (x : Bind) => if x.colour = colour then { x with dests := x.dests.map f } else x
    chans := s.chans.map fun (x : Chan) => if x.colour = colour then { x with dest := f x.dest } else x
    packets := s.packets.map fun (p : Packet) =>
      if p.colour = colour && f p.dest ≠ p.dest then
        if p.token.isSome then { p with dest := f p.dest, target := s.destLoc (f p.dest) }
        else if isSpill p.cargo || p.cargo = .unspill then { p with dest := f p.dest } else p
      else p }

/-- The channels that some input ports of an element are bound to for a load. -/
def State.portChans (s : State) (k colour load : Nat) (ports : List Nat) : List Nat :=
  (ports.filterMap fun i => (s.chanAt (elemDest k i) colour (some load)).map Chan.chan).eraseDups

/-- The depths on a die of some channels of a load that have no consumer there any more, gone. -/
def State.trimDepths (s : State) (die colour load : Nat) (chans : List Nat) : State :=
  { s with depths := s.depths.filter fun x =>
      !(x.die = die && x.colour = colour && x.load = some load && chans.contains x.chan) ||
        s.chanOn die colour x.chan x.load ≠ [] }

/-- The target of a move that is called off: the slot and the ports that it kept are free, and an element without another slot
has no bank. -/
def freeSlot (m : Move) (ports : List Nat) (e : Element) : Element :=
  let a := ports.foldl (fun a i => Memory.write a (256 + 4 * i) 0 4) e.active
  let e := { e with active := Memory.write a (32 * m.dslot) 0 32 }
  if validSlots e.active = [] then unconfigure e else e

/-- A move called off: the replica stays where it is, and the command completes with status 3. -/
def State.cancelMove (s : State) (x : Move × Nat × Nat × Nat) : State :=
  let m := x.1
  let ports := slotIns (s.elem m.src) m.slot
  let load := (s.elem m.src).load
  let t := s.retarget x.2.1 ports m.dst m.src
  let t := t.trimDepths (m.dst / 6400) x.2.1 load (t.portChans m.src x.2.1 load ports)
  let t := (t.setElem m.dst (freeSlot m ports (t.elem m.dst))).consume (· = .moved (8 * m.src + m.slot) (8 * m.dst + m.dslot))
  t.finish x.2.2.1 x.2.2.2 0x16 3 0

/-- No move runs in a cut or a switch: those of a colour with an end on a die are called off as one begins (13 R347) (L78). -/
def State.cancelMoves (s : State) (d colour : Nat) : State :=
  (s.moves.filter fun x => x.2.1 = colour && (x.1.src / 6400 = d || x.1.dst / 6400 = d)).foldl State.cancelMove s

/-- n bytes of the issuing controller's SRAM, if they lie inside it (L32). -/
def State.sramBytes (s : State) (c : Cmd) (a n : Nat) : Option (List Byte) :=
  if a + n ≤ 0x400000 then some (Memory.readBytes (s.ctrl c.issuer).sram a n) else none

/-- Whether n bytes of the configuration store meet an uncorrectable granule. -/
def State.storeBad (s : State) (a n : Nat) : Bool :=
  s.bad.any fun g => Config.storeRegion + a < 8 * g + 8 && 8 * g < Config.storeRegion + a + n

/-- n bytes of the configuration store, if a resident image holds them and they can be read (L34). -/
def State.storeBytesAt (s : State) (a n : Nat) : Option (List Byte) :=
  if s.storeBad a n then none
  else
    (s.store.find? fun r =>
      Config.storeBase r.index r.gen ≤ a && a + n ≤ Config.storeBase r.index r.gen + r.bytes.length).map fun r =>
        (r.bytes.drop (a - Config.storeBase r.index r.gen)).take n

end Sys2Proof.Machine
end

