-- ==== Sys2Proof/Machine/ConfigCmd.lean ====
section
/-! DEFINITION. Stream commands that configure: CFG.WRITE, CFG.BANK, LOAD.*, REGION.* (14 R377 to R384). -/

namespace Sys2Proof.Machine

/-! ## CFG.WRITE (R377) -/

/-- The destination of a CFG.WRITE. -/
def cfgDest (c : Cmd) : Nat := c.fl % 8

/-- Its length and source address. -/
def cfgLen (c : Cmd) : Nat := c.opd / 2 ^ 48
def cfgAddr (c : Cmd) : Nat := c.opd % 2 ^ 48

/-- Whether a command is the CFG.WRITE of a destination. -/
def isCfg (n : Nat) (c : Cmd) : Bool := c.code = 0x01 && cfgDest c = n

/-- Encoding checks of CFG.WRITE. -/
def cfgOk (c : Cmd) : Bool := c.fl < 16 && (cfgDest c ≠ 3 || c.tgt = 0)

/-- What is being staged for a colour on a die becomes absent. -/
def State.dropOpen (s : State) (d colour : Nat) : State :=
  if (s.staging d colour).isOpen then s.dropStaging d colour (s.staging d colour).load else s

/-- A configuration fetch fault: a CONFIG_FETCH record of a die controller. What is being staged becomes absent, every element
stays in its old bank, and the launch, where it has not ended, ends with status 2 (02 R63, 13 R337); the loads that still
stand are aborted before its completion message. -/
def State.fetchFault (s : State) (d colour : Nat) : State :=
  let t := (s.report d colour (s.activeLoad colour) .nothing cConfigFetch .controller 0 0 0 (noDetail cConfigFetch)).dropOpen d
    colour
  match t.launch colour with
  | some l => if l.st = .finishing || l.st = .ended then t else t.failLaunch l
  | none => t

/-- An uncorrectable error in the configuration store, which stands in L0's stack (16 Table 16-5). -/
def State.countStore (s : State) : State := s.countUe ((s.dieOf 0).getD 0)

/-- The bytes of a CFG.WRITE, if its length and its source are good; otherwise what it comes to. -/
def State.cfgBytes (s : State) (c : Cmd) (d : Nat) : List Byte ⊕ Result :=
  let n := cfgLen c
  if n < 8 || n % 8 ≠ 0 then .inr (.fails 2 s)
  else if bitOf c.fl 3 then
    match s.storeBytesAt (cfgAddr c) n with
    | some b => .inl b
    | none => .inr (.fails 4 ((if s.storeBad (cfgAddr c) n then s.countStore else s).fetchFault d c.colour))
  else
    match s.sramBytes c (cfgAddr c) n with
    | some b => .inl b
    | none => .inr (.fails 2 s)

/-- CFG.WRITE to targets of a die: the room, the state that each must be in, what the bytes must be, and the write. -/
def State.cfgTo (s : State) (c : Cmd) (d : Nat) (ts : Targets) (fits : Bool) (okAt : Nat → Bool) (good : List Byte → Bool)
    (write : List Byte → Nat → State → State) : Result :=
  match ts with
  | .bad n => .fails n s
  | .places ps =>
    if !fits then .fails 2 s
    else if !ps.all okAt then .fails 3 s
    else
      match s.cfgBytes c d with
      | .inr r => r
      | .inl b => if good b then .done (cfgLen c * ps.length) (ps.foldl (fun t p => write b p t) s) else .fails 1 s

/-- Bytes copied into element memory; their lines are dirty (15 R420). -/
def cfgMemory (off : Nat) (b : List Byte) (e : Element) : Element :=
  { e with mem := Memory.writeBytes e.mem off b, dirty := markDirty e.dirty off b.length }

def execCfgWriteElementMemory (die ticket : Nat) (s : State) : Out :=
  command die ticket (isCfg 0) cfgOk (fun s c d =>
    s.cfgTo c d (s.elemTargets d c) (c.arg % 8 = 0 && c.arg + cfgLen c ≤ emEnd)
      (fun p => !(s.elem (elemKey d p)).configured) (fun _ => true)
      fun b p t => t.setElem (elemKey d p) (cfgMemory c.arg b (t.elem (elemKey d p)))) s

/-- Bytes of a configuration block. -/
def blockSize : Nat := 512

/-- The bits of byte i of a block that a field of Table 14-8 holds. -/
def blockMask (i : Nat) : Byte :=
  if i < 256 then if i % 32 = 25 then 7 else 255
  else if i < 288 then if i % 4 = 0 then 127 else 0
  else if i < 352 then if i % 4 = 0 then 15 else 0
  else if i < 384 then 255
  else 0

/-- Bytes written into a block from an offset on: a reserved bit reads as zero (00 R3) (L75). -/
def writeBlock (m : Mem) (off : Nat) (b : List Byte) : Mem :=
  Memory.writeBytes m off ((List.zipIdx b).map fun x => x.1 &&& blockMask (off + x.2))

def execCfgWriteStagedBlock (die ticket : Nat) (s : State) : Out :=
  command die ticket (isCfg 1) cfgOk (fun s c d =>
    s.cfgTo c d (s.elemTargets d c) (c.arg + cfgLen c ≤ blockSize) (fun _ => (s.staging d c.colour).isOpen) (fun _ => true)
      fun b p t =>
        let e := t.elem (elemKey d p)
        t.setElem (elemKey d p) { e with staged := writeBlock e.staged c.arg b }) s

def execCfgWriteActiveBlock (die ticket : Nat) (s : State) : Out :=
  command die ticket (isCfg 2) cfgOk (fun s c d =>
    s.cfgTo c d (s.elemTargets d c) (c.arg + cfgLen c ≤ blockSize) (fun p => !(s.elem (elemKey d p)).configured) (fun _ => true)
      fun b p t =>
        let e := t.elem (elemKey d p)
        t.setElem (elemKey d p) { e with active := writeBlock e.active c.arg b, colour := c.colour }) s

/-- The staging area: the first 256 MiB of die control space. -/
def stagingBytes : Nat := 2 ^ 28

/-- A physical address in die control space of a die's own stack. -/
def State.control (s : State) (d off : Nat) : Nat := paOf 3 (s.ldie d) 0 off

/-- Bytes written to physical memory; a granule written whole is good again (15 R414). -/
def State.physWrite (s : State) (pa : Nat) (b : List Byte) : State :=
  { s with
    phys := Memory.writeBytes s.phys pa b
    bad := s.bad.filter fun g => !(pa ≤ 8 * g && 8 * g + 8 ≤ pa + b.length) }

def execCfgWriteStagingArea (die ticket : Nat) (s : State) : Out :=
  command die ticket (isCfg 3) cfgOk (fun s c d =>
    s.cfgTo c d (.places [0]) (c.arg * 4096 + cfgLen c ≤ stagingBytes) (fun _ => true) (fun _ => true)
      fun b _ t => t.physWrite (t.control d (c.arg * 4096)) b) s

/-- The node configuration in eight bytes. -/
def nodeWord (b : List Byte) : DWord := BitVec.ofNat 64 (bytesToNat b)

/-- The bindings of a node's outlets for a load, marked as those of an unordered confluence or not (02 R33). -/
def State.markMerges (s : State) (d n colour : Nat) (load : Option Nat) (cfg : DWord) : State :=
  { s with binds := s.binds.map fun b =>
      if b.source.die = d && b.source.kind = .node && b.source.pos = n && b.colour = colour && b.load = load then
        { b with merges := nodeKind cfg = .unorderedConf } else b }

/-- CFG.WRITE of a node configuration to the staged or the active bank; nonzero reserved bits [63:9] are a bad encoding:
Table 14-5 gives status 1 for a reserved field (L76). -/
def State.cfgNode (s : State) (c : Cmd) (d : Nat) (okAt : Nat → Bool) (load : Option Nat) (put : Node → DWord → Node) :
    Result :=
  s.cfgTo c d (s.nodeTargets d c) (c.arg = 0 && cfgLen c = 8) okAt (fun b => (nodeWord b).toNat < 2 ^ 9) fun b n t =>
    (t.setNode (nodeKey d n) { put (t.node (nodeKey d n)) (nodeWord b) with colour := c.colour }).markMerges d n c.colour load
      (nodeWord b)

def execCfgWriteStagedNode (die ticket : Nat) (s : State) : Out :=
  command die ticket (isCfg 4) cfgOk (fun s c d =>
    s.cfgNode c d (fun _ => (s.staging d c.colour).isOpen) (some (s.staging d c.colour).load) fun n w => { n with staged := w, stagedValid := true }) s

def execCfgWriteActiveNode (die ticket : Nat) (s : State) : Out :=
  command die ticket (isCfg 5) cfgOk (fun s c d =>
    s.cfgNode c d (fun n => !(s.node (nodeKey d n)).configured) none fun n w => { n with active := w }) s

/-! ## CFG.BANK (R379) -/

/-- The most bytes of an element image. -/
def imageBytes : Nat := 39680

/-- A descriptor set on the elements that a command names, while the staging is open. -/
def State.bank (s : State) (c : Cmd) (d : Nat) (fits : Bool) (put : Element → Element) : Result :=
  match s.elemTargets d c with
  | .bad n => .fails n s
  | .places ps =>
    if !fits then .fails 2 s
    else if !(s.staging d c.colour).isOpen then .fails 3 s
    else .done 0 (s.mapElems d put ps)

def execCfgBankImage (die ticket : Nat) (s : State) : Out :=
  command die ticket (fun c => c.code = 0x02 && c.fl % 2 = 0)
    (fun c => c.fl = 0 && c.arg = 0 && c.opd / 2 ^ 48 = 0 && c.opd / 2 ^ 28 % 16 = 0) (fun s c d =>
      let off := c.opd % 2 ^ 28
      let n := c.opd / 2 ^ 32 % 65536
      s.bank c d (off % 64 = 0 && n % 8 = 0 && n ≤ imageBytes && off + n ≤ stagingBytes)
        fun e => { e with imgDesc := some (off, n) }) s

def execCfgBankConstants (die ticket : Nat) (s : State) : Out :=
  command die ticket (fun c => c.code = 0x02 && c.fl % 2 = 1) (fun c => c.fl = 1 && c.arg = 0 && c.opd < 2 ^ 28)
    (fun s c d => s.bank c d (c.opd + 960 ≤ stagingBytes) fun e => { e with constDesc := some c.opd }) s

/-! ## LOAD.* (R380 to R383) -/

/-- Opening a staging marks what an earlier one has left invalid. -/
def State.openStaging (s : State) (d colour load : Nat) : State :=
  let t := s.dropStaging d colour (s.staging d colour).load
  let t := t.dropEnds d colour (some (t.stageKey colour load))
  t.setStaging d colour { t.staging d colour with isOpen := true, load := t.stageKey colour load }

def execLoadStageOpen (die ticket : Nat) (s : State) : Out :=
  command die ticket (fun c => c.code = 0x03 && c.fl % 2 = 0)
    (fun c => c.fl = 0 && c.tgt = 0 && c.arg < 64 && c.opd = 0) (fun s c d =>
      let g := s.staging d c.colour
      if g.isOpen || g.armed then .fails 3 s else .done 0 (s.openStaging d c.colour c.arg)) s

/-- Elements of a colour on a die with a valid staged slot. -/
def State.stagedElems (s : State) (d colour : Nat) : List Nat :=
  (s.regionElems d colour).filter fun p => validSlots (s.elem (elemKey d p)).staged ≠ []

def execLoadStageClose (die ticket : Nat) (s : State) : Out :=
  command die ticket (fun c => c.code = 0x03 && c.fl % 2 = 1)
    (fun c => c.fl = 1 && c.tgt = 0 && c.arg < 64 && c.opd = 0) (fun s c d =>
      let g := s.staging d c.colour
      if !g.isOpen || loadNumber g.load ≠ c.arg then .fails 3 s
      else .done (s.stagedElems d c.colour).length (s.setStaging d c.colour { g with isOpen := false, closed := true })) s

/-- Whether a command with a load argument and no more has a good encoding. -/
def loadArgOk (c : Cmd) : Bool := c.fl = 0 && c.arg < 64 && c.opd = 0

def execLoadCommit (die ticket : Nat) (s : State) : Out :=
  command die ticket (fun c => c.code = 0x04) loadArgOk (fun s c d =>
    match s.elemTargets d c with
    | .bad n => .fails n s
    | .places ps =>
      let key := s.activeKey c.colour c.arg
      if ps.any fun p => (s.elem (elemKey d p)).configured then .fails 3 s
      else if !(s.committable d ps).all (fun p => unitsQuiet (s.elem (elemKey d p))) then .wait
      else
        .done (s.committable d ps).length
          ((s.commitLoad d c.colour key ps (c.tgt ≠ allTargets)).mapLaunch c.colour fun l =>
            { l with load := key, absent := false, st := if l.st = .waiting then .active else l.st })) s

/-- Whether anything of a colour stands on a die for the load of a number, in either bank: an element, a slot, a node or an
endpoint. -/
def State.loadOn (s : State) (d colour n : Nat) : Bool :=
  s.elemsOfLoad d colour n ≠ [] ||
    ((s.colourSlots d colour).any fun i => (s.ma (maKey d i)).st ≠ .unconfigured && loadNumber (s.ma (maKey d i)).load = n) ||
    (s.nodes.any fun x => x.1 / 1600 = d && x.2.configured && x.2.colour = colour && loadNumber x.2.load = n) ||
    (s.binds.any fun b => b.source.die = d && b.colour = colour && b.load.any fun k => loadNumber k = n) ||
    s.chans.any fun c => c.dest.die = d && c.colour = colour && c.load.any fun k => loadNumber k = n

/-- Whether LOAD.ABORT on a die makes the active load of a launch absent: the load is active, and stands there (02 Table 2-7). -/
def State.abortsActive (s : State) (d n : Nat) (l : Launch) : Bool :=
  (l.st = .active || l.st = .cutting) && loadNumber l.load = n && s.loadOn d l.colour n

def execLoadAbort (die ticket : Nat) (s : State) : Out :=
  command die ticket (fun c => c.code = 0x05) (fun c => loadArgOk c && c.tgt = 0) (fun s c d =>
    let g := s.staging d c.colour
    if g.armed then .fails 3 s
    else
      let active := s.elemsOfLoad d c.colour c.arg
      let staged := if (g.isOpen || g.closed) && loadNumber g.load = c.arg then s.stagedElems d c.colour else []
      .done (active ++ staged.filter fun p => !active.contains p).length
        ((s.abortLoad d c.colour c.arg).mapLaunch c.colour fun l =>
          if s.abortsActive d c.arg l then { l with absent := true } else l)) s

/-- Arming the switch of a colour on a die; an element whose constants alone are staged takes them too (07 R220). -/
def State.armSwitch (s : State) (d colour : Nat) : State :=
  let s := s.cancelMoves d colour
  let t := s.setStaging d colour { s.staging d colour with armed := true }
  t.mapElems d (fun e => { e with armed := e.configured || validSlots e.staged ≠ [] || e.constDesc.isSome })
    (t.regionElems d colour)

def execLoadSwitch (die ticket : Nat) (s : State) : Out :=
  command die ticket (fun c => c.code = 0x06) (fun c => loadArgOk c && c.tgt = 0) (fun s c d =>
    let g := s.staging d c.colour
    if g.isOpen || !g.closed || loadNumber g.load ≠ c.arg || g.armed then .fails 3 s
    else .later 0 [] (s.armSwitch d c.colour)) s

/-! ## REGION.* (R384) -/

/-- The rectangle of a REGION.GRANT. -/
def grantRect (c : Cmd) : Rect :=
  { x0 := c.opd % 256, y0 := c.opd / 2 ^ 8 % 256, w := c.opd / 2 ^ 16 % 256, h := c.opd / 2 ^ 24 }

/-- Whether the fields of a rectangle are in their ranges (R384), and whether it lies within the panel. -/
def rectGood (r : Rect) : Bool := r.x0 < 160 && r.y0 < 160 && 1 ≤ r.w && r.w ≤ 160 && 1 ≤ r.h && r.h ≤ 160
def rectWithin (r : Rect) : Bool := rectGood r && r.x0 + r.w ≤ 160 && r.y0 + r.h ≤ 160

def execRegionGrant (die ticket : Nat) (s : State) : Out :=
  command die ticket (fun c => c.code = 0x07) (fun c => c.fl = 0 && c.tgt = 0 && c.arg = 0 && c.opd < 2 ^ 32)
    (fun s c d =>
      let r := grantRect c
      let ps := (List.range 400).filter (rectHolds r d)
      if !rectGood r then .fails 2 s
      else if ps.any (fun p =>
          match (s.plot (d * 400 + p)).colour with
          | none => false
          | some x => x ≠ c.colour) then .fails 3 s
      else if c.colour = 0 then .fails 6 s
      else .done ps.length (s.grantPlots d c.colour r)) s

/-- A saved launch that holds no plot any more waits for a region again (R425), with what is kept of its gates. -/
def State.freeSaved (s : State) (d colour : Nat) : State :=
  if (s.launch colour).any fun l => l.st = .saved then
    let t := (s.saveGatesOf colour ((List.range 16).map (d * 16 + ·))).freeRegion d colour
    t.mapLaunch colour fun l => if l.dies.any fun x => t.regionPlots x colour ≠ [] then l else { l with rect := none }
  else s.freeRegion d colour

def execRegionFree (die ticket : Nat) (s : State) : Out :=
  command die ticket (fun c => c.code = 0x08) (fun c => c.fl = 0 && c.tgt = 0 && c.arg = 0 && c.opd = 0)
    (fun s c d =>
      if s.regionBusy d c.colour then .fails 3 s
      else .done (s.regionPlots d c.colour).length (s.freeSaved d c.colour)) s

end Sys2Proof.Machine
end

