-- ==== Sys2Proof/Machine/FlowCmd.lean ====
section
/-! DEFINITION. Stream commands on memory actors, channels, faults, sluices, replicas, clocks, generations and roots
(14 R385 to R398). -/

namespace Sys2Proof.Machine

/-! ## MA.SET (R385; 04 R101, R106) -/

/-- Whether a virtual address is canonical: bits 63 to 57 equal bit 56. -/
def canonical (va : Nat) : Bool := va < 2 ^ 56 || (2 ^ 64 - 2 ^ 56 ≤ va && va < 2 ^ 64)

/-- Extremes of the addresses of a pattern run with start 0. -/
def patternLow (c : MaCfg) : Int :=
  c.vbase + c.off + ((List.range 4).map fun l => min 0 (((nth c.cnt l 1 : Nat) - 1 : Int) * nth c.str l 0)).sum
def patternHigh (c : MaCfg) : Int :=
  c.vbase + c.off + ((List.range 4).map fun l => max 0 (((nth c.cnt l 1 : Nat) - 1 : Int) * nth c.str l 0)).sum

/-- Alignment of a configuration. -/
def maAlign (c : MaCfg) : Nat := Nat.min c.unit 16

/-- Whether the reserved fields of a block are zero: len [63:49], off [63:48], control [63:22]. Table 14-5 gives status 1 for
a reserved field that is not (L76). -/
def blockReserved (m : Mem) : Bool :=
  Memory.read m 8 8 < 2 ^ 49 && Memory.read m 16 8 < 2 ^ 48 && Memory.read m 56 8 < 2 ^ 22

/-- The ranges of Table 4-3; a reserved code of a field of control is a value outside its range (L76). -/
def blockRanges (m : Mem) : Bool :=
  let w := Memory.read m 56 8
  let c := maCfg m
  1 ≤ c.len && c.len ≤ 2 ^ 48 && c.off < c.len &&
    c.cnt.all (fun n => 1 ≤ n && n ≤ 2 ^ 20) && c.gate ≤ 6 && 1 ≤ c.clevel && c.clevel ≤ 6 &&
    c.scope ≤ 4 && w / 2 ^ 10 % 8 ≤ 5 && w / 2 ^ 6 % 8 ≤ 5 && w % 4 ≤ 2 &&
    (if c.kind = .atomic then w / 2 ^ 2 % 16 ≤ 9 && (c.unit = 4 || c.unit = 8) else w / 2 ^ 2 % 16 = 0)

/-- The conditions of R106 but for the cmp channel. -/
def blockRules (m : Mem) : Bool :=
  let c := maCfg m
  c.vbase % maAlign c = 0 && c.off % maAlign c = 0 && c.str.all (fun x => x % maAlign c = 0) &&
    (c.index || (c.vbase ≤ patternLow c && patternHigh c + c.unit ≤ c.vbase + c.len)) &&
    canonical c.vbase && canonical (c.vbase + c.len - 1) && c.vbase / 2 ^ 56 % 2 = (c.vbase + c.len - 1) / 2 ^ 56 % 2 &&
    !(c.port = .opt && c.kind = .atomic) && !(c.port = .opt && c.kind ≠ .read && c.scope < 4)

/-- R106 for the cmp channel: a cas actor has one bound, and no other actor. -/
def State.cmpRule (s : State) (m : Mem) (die slot colour : Nat) (load : Option Nat) : Bool :=
  (s.chanAt (maDest die slot inCmp) colour load).isSome = needsCmp (maCfg m)

/-- A 64-byte block as a memory. -/
def blockMem (b : List Byte) : Mem := Memory.writeBytes [] 0 b

/-- A slot with a configuration in its active or its staged bank. -/
def setBlock (staged : Bool) (m : Mem) (colour : Nat) (x : MemActor) : MemActor :=
  if staged then { x with staged := m, stagedValid := true, colour := colour }
  else { MemActor.reset with active := m, staged := x.staged, stagedValid := x.stagedValid, colour := colour, st := .configured }

def execMaSet (die ticket : Nat) (s : State) : Out :=
  command die ticket (fun c => c.code = 0x09) (fun c => c.fl < 2 && c.arg = 0 && c.opd < 2 ^ 32) (fun s c d =>
    let staged := c.fl = 1
    match s.slotTargets d c, s.sramBytes c c.opd 64 with
    | .bad n, _ => .fails n s
    | .places _, none => .fails 2 s
    | .places ns, some b =>
      let m := blockMem b
      let load := if staged then some (s.staging d c.colour).load else none
      if c.opd % 64 ≠ 0 then .fails 2 s
      else if !blockReserved m then .fails 1 s
      else if !blockRanges m || !blockRules m || !ns.all fun n => s.cmpRule m d n c.colour load then .fails 2 s
      else if (if staged then !(s.staging d c.colour).isOpen else ns.any fun n => (s.ma (maKey d n)).st ≠ .unconfigured) then
        .fails 3 s
      else .done 0 (s.mapMas d (setBlock staged m c.colour) ns)) s

/-! ## MA.START, MA.HALT, MA.RESUME (R386) -/

/-- A slot set running: a pattern actor without a start input, in its load or in the active bank that its load has still to
commit, runs its pattern. -/
def State.runMa (s : State) (die slot : Nat) : State :=
  let m := s.ma (maKey die slot)
  let bound := s.maBound die slot inStart || (s.chanAt (maDest die slot inStart) m.colour none).isSome
  let auto := !(maCfg m.active).index && !bound
  s.mapMa die slot fun m =>
    { m with st := .running, drained := true, run := if auto then some (0, 0, 0) else none, ran := auto }

/-- A command on slots: the state that each must be in, its value and its effect. -/
def State.onSlots (s : State) (d : Nat) (c : Cmd) (okAt : MemActor → Bool) (eff : State → Nat → State)
    (value : Nat) (later : Bool) : Result :=
  match s.slotTargets d c with
  | .bad n => .fails n s
  | .places ns =>
    if !ns.all fun n => okAt (s.ma (maKey d n)) then .fails 3 s
    else if later then .later value ns (ns.foldl eff s) else .done value (ns.foldl eff s)

/-- Whether a command has no argument but its target. -/
def plainOk (c : Cmd) : Bool := c.arg = 0 && c.opd = 0

def execMaStart (die ticket : Nat) (s : State) : Out :=
  command die ticket (fun c => c.code = 0x0A) (fun c => plainOk c && c.fl = 0) (fun s c d =>
    s.onSlots d c (fun m => m.st = .configured && m.colour = c.colour && !m.saved) (fun t n => t.runMa d n) 0 false) s

/-- The index of the first request that a slot has not issued. -/
def issuedCount (m : MemActor) : Nat := match m.cur with
  | some r => r.index
  | none => m.nextIdx

def execMaHalt (die ticket : Nat) (s : State) : Out :=
  command die ticket (fun c => c.code = 0x0C) (fun c => plainOk c && c.fl = 0) (fun s c d =>
    let value := match s.slotTargets d c with
      | .places ns => (ns.map fun n => issuedCount (s.ma (maKey d n))).sum
      | .bad _ => 0
    s.onSlots d c (fun m => m.st = .running && !m.saved) (fun t n => t.mapMa d n fun m => { m with st := .halted }) value true) s

/-- The index of the first request that MA.RESUME reissues: of its slot, or of the first of several. -/
def State.firstReissued (s : State) (d : Nat) (c : Cmd) : Nat :=
  match s.slotTargets d c with
  | .places (n :: _) =>
    match (s.ma (maKey d n)).stall with
    | some x => x.index
    | none => issuedCount (s.ma (maKey d n))
  | _ => 0

def execMaResumeHalt (die ticket : Nat) (s : State) : Out :=
  command die ticket (fun c => c.code = 0x0B && c.fl % 2 = 0) (fun c => plainOk c && c.fl = 0) (fun s c d =>
    s.onSlots d c (fun m => m.st = .halted && !m.saved) (fun t n => t.mapMa d n fun m => { m with st := .running })
      (s.firstReissued d c) false) s

/-- Whether a slot is stalled by a translation fault, at a request being formed or at one reissued. -/
def translationStall (m : MemActor) : Bool := m.st = .stalled && !m.saved && m.stall.any fun x => x.code = cXlate

def execMaResumeFault (die ticket : Nat) (s : State) : Out :=
  command die ticket (fun c => c.code = 0x0B && c.fl % 2 = 1) (fun c => plainOk c && c.fl = 1) (fun s c d =>
    s.onSlots d c translationStall (fun t n => (t.repair d n 0 0 true .resume 0).2)
      (s.firstReissued d c) false) s

/-! ## CHAN.BIND (R387) -/

/-- Source kinds of CHAN.BIND, and destination kinds. -/
def sourceKind (n : Nat) : Option SourceKind :=
  match n with
  | 0 => some .element
  | 1 => some .memActor
  | 2 => some .node
  | 3 => some .headgate
  | _ => none
def destKind (n : Nat) : Option DestKind :=
  match n with
  | 0 => some .element
  | 1 => some .memActor
  | 2 => some .node
  | 3 => some .outfall
  | _ => none

/-- Channel kinds. -/
def chanKind (n : Nat) : Option ChanKind :=
  match n with
  | 0 => some .ordered
  | 1 => some .tagged
  | 2 => some .ret
  | _ => none

/-- Whether an endpoint exists on a die, and how many ports of its kind it has. -/
def State.sourceExists (s : State) (x : Source) : Bool :=
  match x.kind with
  | .element => s.liveElem x.die x.pos && x.out < 16
  | .memActor => x.pos < 64 && x.out < 2 && s.isCompute x.die
  | .node => x.pos < 1600 && s.liveRouter { die := x.die, plot := x.pos / 4 } && x.out < 2
  | .headgate => x.pos < 16 && x.out = 0 && s.isCompute x.die
def State.destExists (s : State) (x : Dest) : Bool :=
  match x.kind with
  | .element => s.liveElem x.die x.pos && x.din < 8
  | .memActor => x.pos < 64 && x.din < 5 && s.isCompute x.die
  | .node => x.pos < 1600 && s.liveRouter { die := x.die, plot := x.pos / 4 } && x.din < 10
  | .outfall => x.pos < 16 && x.din = 0 && s.isCompute x.die

/-- Whether a place of a die belongs to a colour, or, for a gate or a slot on a die of its region, to no other. -/
def State.sourceOwned (s : State) (x : Source) (colour : Nat) : Bool :=
  match x.kind with
  | .element => (s.plot (x.die * 400 + x.pos / 16)).colour = some colour
  | .node => (s.plot (x.die * 400 + x.pos / 4)).colour = some colour
  | .memActor =>
    let m := s.ma (maKey x.die x.pos)
    s.holdsPlot x.die colour && (m.colour = colour || (m.st = .unconfigured && !m.stagedValid))
  | .headgate => let h := s.head (x.die * 16 + x.pos); s.holdsPlot x.die colour && (h.colour = some colour || h.colour = none)
def State.destOwned (s : State) (x : Dest) (colour : Nat) : Bool :=
  match x.kind with
  | .element => (s.plot (x.die * 400 + x.pos / 16)).colour = some colour
  | .node => (s.plot (x.die * 400 + x.pos / 4)).colour = some colour
  | .memActor =>
    let m := s.ma (maKey x.die x.pos)
    s.holdsPlot x.die colour && (m.colour = colour || (m.st = .unconfigured && !m.stagedValid))
  | .outfall => let o := s.out (x.die * 16 + x.pos); s.holdsPlot x.die colour && (o.colour = some colour || o.colour = none)

/-- Whether a source is unconfigured; a headgate is while it has no binding but one that is only staged. -/
def State.sourceIdle (s : State) (x : Source) (colour : Nat) : Bool :=
  match x.kind with
  | .element => !(s.elem (elemKey x.die x.pos)).configured
  | .node => !(s.node (nodeKey x.die x.pos)).configured
  | .memActor => (s.ma (maKey x.die x.pos)).st = .unconfigured
  | .headgate =>
    let g := s.staging x.die colour
    !(s.binds.any fun b => b.source = x && b.colour = colour && b.load.isSome && !b.switched &&
      !((g.isOpen || g.closed) && !g.armed && b.load = some g.load))

/-- A headgate or an outfall that a binding gives to the colour. -/
def State.holdGates (s : State) (colour : Nat) (x : Source) (d : Dest) : State :=
  let s := if x.kind = .headgate then s.setHead (x.die * 16 + x.pos) { s.head (x.die * 16 + x.pos) with colour := some colour } else s
  if d.kind = .outfall then s.setOut (d.die * 16 + d.pos) { s.out (d.die * 16 + d.pos) with colour := some colour } else s

/-- A fresh consumer endpoint. -/
def newChan (d : Dest) (load : Option Nat) (colour chan : Nat) (kind : ChanKind) : Chan :=
  { dest := d, load := load, colour := colour, chan := chan, kind := kind, queue := [], spilled := [], rear := [], early := [],
    next := 0, eos := 0, switches := 0, weirs := 0, passed := 0, noSpill := false, stuck := false }

/-- Whether a source is an unordered confluence in the bank of a load (02 R33). -/
def State.mergesIn (s : State) (x : Source) (load : Option Nat) : Bool :=
  let n := s.node (nodeKey x.die x.pos)
  let cfg := match load with
    | none => n.active
    | some k => if n.configured && n.load = k || !n.stagedValid then n.active else n.staged
  x.kind = .node && nodeKind cfg = .unorderedConf

/-- Binding a source to a channel: a first binding, or one more consumer replica of the same channel. -/
def State.bindChan (s : State) (x : Source) (load : Option Nat) (colour chan : Nat) (kind : ChanKind) (d : Dest) : State :=
  let isIt (b : Bind) : Bool := b.source = x && b.load = load && b.colour = colour
  let s := s.holdGates colour x d
  let s :=
    if s.binds.any fun b => isIt b && b.chan = chan then
      { s with binds := s.binds.map fun b => if isIt b then { b with kind := kind, dests := b.dests ++ [d] } else b }
    else
      { s with binds := (s.binds.filter fun b => !isIt b) ++
          [{ source := x, load := load, colour := colour, chan := chan, kind := kind, dests := [d], closed := false,
             switched := false, weired := false, seq := 0, merges := s.mergesIn x load }] }
  if s.chans.any fun c => c.dest = d && c.colour = colour && c.load = load then s
  else { s with chans := s.chans ++ [newChan d load colour chan kind] }

/-- Unbinding a source. -/
def State.unbindChan (s : State) (x : Source) (load : Option Nat) (colour : Nat) : State :=
  { s with binds := s.binds.filter fun b => !(b.source = x && b.load = load && b.colour = colour) }

/-- The source that a CHAN.BIND names, and its destination on a die. -/
def bindSource (c : Cmd) (d : Nat) : Option Source :=
  (sourceKind (c.arg / 16 % 8)).map fun k => { die := d, kind := k, pos := c.tgt, out := c.arg % 16 }
def State.bindDest (s : State) (c : Cmd) : Option Dest :=
  match destKind (c.opd / 2 ^ 23 % 8), s.dieOf (c.opd % 64) with
  | some k, some d => some { die := d, kind := k, pos := c.opd / 2 ^ 6 % 2 ^ 13, din := c.opd / 2 ^ 19 % 16 }
  | _, _ => none

/-- Encoding checks of CHAN.BIND. -/
def bindOk (c : Cmd) : Bool :=
  c.fl = 0 && c.arg < 256 && c.arg / 16 % 8 < 4 && c.opd < 2 ^ 44 && c.opd / 2 ^ 26 % 4 < 3 && c.opd / 2 ^ 23 % 8 ≤ 4

/-- The sources of a kind that a command names: its target, or every one of the colour's region on the die (R372). -/
def State.sourcesOf (s : State) (c : Cmd) (d : Nat) (x : Source) : List Source :=
  if c.tgt ≠ allTargets then [x]
  else
    (match x.kind with
      | .element => s.regionElems d c.colour
      | .memActor => s.colourSlots d c.colour
      | .node => s.regionNodes d c.colour
      | .headgate => (List.range 16).filter fun n => (s.head (d * 16 + n)).colour = some c.colour).map fun p => { x with pos := p }

/-- CHAN.BIND on a die. -/
def State.chanBind (s : State) (c : Cmd) (d : Nat) : Result :=
  let staged := bitOf c.arg 7
  let unbind := c.opd / 2 ^ 23 % 8 = 4
  let load := if staged then some (s.staging d c.colour).load else none
  match bindSource c d, chanKind (c.opd / 2 ^ 26 % 4) with
  | some x, some kind =>
    let xs := s.sourcesOf c d x
    if !xs.all s.sourceExists then .fails 2 s
    else if !unbind && (match s.bindDest c with
        | some y => !s.destExists y || !s.destOwned y c.colour
        | none => true) then .fails 2 s
    else if !xs.all fun y => s.sourceOwned y c.colour then .fails 6 s
    else if (if staged then !(s.staging d c.colour).isOpen else !xs.all fun y => s.sourceIdle y c.colour) then .fails 3 s
    else
      match if unbind then none else s.bindDest c with
      | some y => .done 0 (xs.foldl (fun t x => t.bindChan x load c.colour (c.opd / 2 ^ 28) kind y) s)
      | none => .done 0 (xs.foldl (fun t x => t.unbindChan x load c.colour) s)
  | _, _ => .fails 1 s

def execChanBind (die ticket : Nat) (s : State) : Out :=
  command die ticket (fun c => c.code = 0x0D) bindOk (fun s c d => s.chanBind c d) s

/-! ## CHAN.DEPTH (R388) -/

/-- The load that a depth of the active bank belongs to: the active one once the channel is committed. -/
def State.depthLoad (s : State) (d colour chan : Nat) : Option Nat :=
  let l := some (s.activeLoad colour)
  if s.chans.any fun c => c.dest.die = d && c.colour = colour && c.chan = chan && c.load = l then l else none

/-- The channels that a CHAN.DEPTH names, with the load of each: its target, or every one of the colour with a consumer on the
die in that bank (R372). -/
def State.depthTargets (s : State) (d : Nat) (c : Cmd) : List (Nat × Option Nat) :=
  let bank (n : Nat) : Option Nat := if c.fl = 1 then some (s.staging d c.colour).load else s.depthLoad d c.colour n
  let all := ((s.chans.filter fun x => x.dest.die = d && x.colour = c.colour && x.load = bank x.chan).map Chan.chan).eraseDups
  (if c.tgt = allTargets then all else [c.tgt]).map fun n => (n, bank n)

/-- Whether a channel holds no token at its consumers on a die. -/
def State.chanEmpty (s : State) (d colour chan : Nat) (load : Option Nat) : Bool :=
  s.flumeHeld d colour chan load = 0 && s.spillHeld d colour chan load = 0

/-- Setting a depth. -/
def State.setDepth (s : State) (x : Depth) : State :=
  { s with depths := (s.depths.filter fun y =>
      !(y.die = x.die && y.colour = x.colour && y.chan = x.chan && y.load = x.load)) ++ [x] }

def execChanDepth (die ticket : Nat) (s : State) : Out :=
  command die ticket (fun c => c.code = 0x0E)
    (fun c => c.fl < 2 && c.arg = 0 && c.opd / 2 ^ 18 % 2 ^ 14 = 0) (fun s c d =>
      let depth := c.opd % 2 ^ 17
      let off := c.opd / 2 ^ 32
      let ns := s.depthTargets d c
      if depth < 1 || 65536 < depth || (s.ctrl d).spsize.toNat ≤ off * 65536 then .fails 2 s
      else if !s.holdsPlot d c.colour then .fails 6 s
      else if (if c.fl = 1 then !(s.staging d c.colour).isOpen else !ns.all fun x => s.chanEmpty d c.colour x.1 x.2) then .fails 3 s
      else
        .done 0 (ns.foldl (fun t x => t.setDepth
          { die := d, colour := c.colour, chan := x.1, load := x.2, depth := depth, spillable := bitOf c.opd 17, offset := off }) s)) s

/-! ## INJECT (R389) -/

/-- Token kinds that a host or a command may name. -/
def plainKind (n : Nat) : Option TokKind :=
  match n with
  | 0 => some .data
  | 1 => some .stop
  | 2 => some .eos
  | _ => none

/-- Whether the fields of a control word suit a kind: a level with a stop only, fin and reserved bits zero (02 R25). -/
def controlGood (w : Nat) : Bool :=
  let level := w / 2 ^ 9 % 8
  w % 16 = 0 && (if w / 2 ^ 12 = 1 then 1 ≤ level && level ≤ 6 else level = 0)

/-- The token of 16 bytes, with a colour; none for another kind or a bad control word. -/
def tokenOf (b : List Byte) (colour : Nat) : Option Token :=
  let w := leAt b 12 2
  match plainKind (w / 2 ^ 12) with
  | none => none
  | some k =>
    if controlGood w && leAt b 14 2 = 0 then
      some { payload := BitVec.ofNat 64 (leAt b 0 8), tag := BitVec.ofNat 32 (leAt b 8 4), kind := k,
             level := w / 2 ^ 9 % 8, arm := bitOf w 8, colour := colour, fin := false }
    else none

/-- The token of an INJECT descriptor: kind, level and arm of its control word, and no other bit of it; a level that does not
suit the kind is outside its range (02 R25). -/
def injectToken (b : List Byte) (colour : Nat) : Option Token :=
  let w := leAt b 12 2
  let level := w / 2 ^ 9 % 8
  match plainKind (w / 2 ^ 12) with
  | none => none
  | some k =>
    if (if k = .stop then 1 ≤ level && level ≤ 6 else level = 0) then
      some { payload := BitVec.ofNat 64 (leAt b 0 8), tag := BitVec.ofNat 32 (leAt b 8 4), kind := k,
             level := level, arm := bitOf w 8, colour := colour, fin := false }
    else none

/-- The status that keeps a token from a source: a stop on a tagged channel, no channel, a closed port. A data token on a return
channel is not refused, and stands at the head of its port (L85). -/
def State.injectRefused (s : State) (colour : Nat) (t : Token) (x : Source) : Option Nat :=
  match s.srcBind x colour (s.sourceLoad x colour) with
  | none => some 3
  | some y => if t.kind = .stop && y.kind ≠ .ordered then some 2 else if y.closed then some 3 else none

/-- One token on each of several sources, if all have the credit. -/
def State.injectAll (s : State) (colour : Nat) (t : Token) (xs : List Source) : Option State :=
  s.tryEmits t (xs.map fun x => (x, s.sourceLoad x colour))

/-- INJECT on a die. -/
def State.inject (s : State) (c : Cmd) (d : Nat) : Result :=
  match bindSource { c with arg := c.arg % 128 } d, s.sramBytes c c.opd 16 with
  | some x, some b =>
    let xs := s.sourcesOf c d x
    if !xs.all s.sourceExists || c.opd % 16 ≠ 0 then .fails 2 s
    else if !xs.all fun y => s.sourceOwned y c.colour then .fails 6 s
    else if leAt b 14 2 ≠ 0 then .fails 1 s
    else
      match injectToken b c.colour with
      | none => .fails 2 s
      | some t =>
        match xs.findSome? (s.injectRefused c.colour t) with
        | some n => .fails n s
        | none =>
          match s.injectAll c.colour t xs with
          | some u => .done 0 u
          | none => .wait
  | _, _ => .fails 2 s

def execInject (die ticket : Nat) (s : State) : Out :=
  command die ticket (fun c => c.code = 0x0F)
    (fun c => c.fl = 0 && c.arg < 128 && (c.arg / 16 = 0 || c.arg / 16 = 3) && c.opd < 2 ^ 32) (fun s c d => s.inject c d) s

/-! ## REPAIR (R390) -/

/-- Whether a command is REPAIR of a kind. -/
def isRepairCmd (n : Nat) (c : Cmd) : Bool := c.code = 0x10 && c.arg / 8 % 8 = n

/-- Encoding checks of REPAIR. -/
def repairOk (subst : Bool) (c : Cmd) : Bool := c.fl < 2 && c.arg < 64 && (subst || c.opd / 2 ^ 32 = 0)

/-- REPAIR of one target. -/
def State.repairAt (s : State) (c : Cmd) (d : Nat) (kind : RepairKind) (b : List Byte) (p : Nat) : Nat × State :=
  s.repair d p (c.arg % 8) (BitVec.ofNat 32 c.opd) (c.fl = 1) kind (BitVec.ofNat 64 (bytesToNat b))

/-- REPAIR of targets one after the other, none where one of them has to wait (L31). -/
def State.repairEach (s : State) (c : Cmd) (d : Nat) (kind : RepairKind) (b : List Byte) (ps : List Nat) : Option State :=
  ps.foldl (fun o p => o.bind fun t => if (t.repairAt c d kind b p).1 = notYet then none else some (t.repairAt c d kind b p).2)
    (some s)

/-- REPAIR on a die, with the substitute where one is due; it acts between firings. With every target named it repairs each
that has such a FAULTED entry, and gives status 3 when none has (L77). -/
def State.repairCmd (s : State) (c : Cmd) (d : Nat) (kind : RepairKind) : Result :=
  let isMa := c.fl = 1
  let v := if kind = .subst then s.sramBytes c (c.opd / 2 ^ 32) 8 else some []
  match (if isMa then s.slotTargets d c else s.elemTargets d c), v with
  | .bad n, _ => .fails n s
  | .places _, none => .fails 2 s
  | .places ps, some b =>
    let held := if c.tgt = allTargets then ps.filter fun p => (s.repairAt c d kind b p).1 ≠ 3 else ps
    let bad (p : Nat) : Bool := let n := (s.repairAt c d kind b p).1; n ≠ 0 && n ≠ notYet
    match held, held.find? bad with
    | [], _ => .fails 3 s
    | _, some p => .fails (s.repairAt c d kind b p).1 s
    | ps, none =>
      if !isMa && !ps.all fun p => s.betweenFirings (elemKey d p) then .wait
      else
        match s.repairEach c d kind b ps with
        | none => .wait
        | some t => .done 0 t

def execRepairResume (die ticket : Nat) (s : State) : Out :=
  command die ticket (isRepairCmd 0) (repairOk false) (fun s c d => s.repairCmd c d .resume) s
def execRepairSkip (die ticket : Nat) (s : State) : Out :=
  command die ticket (isRepairCmd 1) (repairOk false) (fun s c d => s.repairCmd c d .skip) s
def execRepairSubst (die ticket : Nat) (s : State) : Out :=
  command die ticket (isRepairCmd 2) (repairOk true) (fun s c d => s.repairCmd c d .subst) s
def execRepairAbort (die ticket : Nat) (s : State) : Out :=
  command die ticket (isRepairCmd 3) (repairOk false) (fun s c d => s.repairCmd c d .abort) s

/-! ## WEIR and COLOUR.READ (R391, R392; 15 R421, R423) -/

/-- Closing dispatch for a colour on a die. -/
def State.closeDispatch (s : State) (d colour : Nat) : State :=
  s.mapElems d (fun e => if e.configured && e.cut = .open then { e with cut := .closed } else e)
    ((s.elems.filter fun x => x.1 / 6400 = d && x.2.configured && x.2.colour = colour).map fun x => x.1 % 6400)

/-- Headgate sources of a colour on a die. -/
def State.gatesOf (s : State) (d colour : Nat) : List Nat :=
  (List.range 16).filter fun n => (s.head (d * 16 + n)).colour = some colour

/-- The binding on which a headgate owes the weir of a cut that its die has begun: that of the load it streams for. -/
def State.gateOwes (s : State) (d colour n : Nat) : Option Bind :=
  let x := headSource (d * 16 + n)
  if (s.staging d colour).weir then
    (s.srcBind x colour (s.sourceLoad x colour)).bind fun b => if b.switched || b.weired then none else some b
  else none

/-- The weir that a headgate owes leaves behind what it has sent, once the channel has the credit (13 R350). -/
def State.payWeir (s : State) (d colour n : Nat) : State :=
  match s.gateOwes d colour n with
  | some b => (s.tryEmit b.source (b.load.getD 0) (markerToken .weir colour)).getD s
  | none => s

/-- A headgate that has a weir to send, another one at a second WEIR (R391): it enters state holding, and the weir leaves. -/
def State.weirGate (s : State) (d colour n : Nat) : State :=
  let x := headSource (d * 16 + n)
  let h := s.head (d * 16 + n)
  ((s.setHead (d * 16 + n) { h with st := if h.st = .streaming then .holding else h.st }).mapBind x colour
    (s.sourceLoad x colour) fun b => { b with weired := false }).payWeir d colour n

/-- A memory actor that has sent its weirs stands at its weir again at a second WEIR (R391). -/
def weirAgain (m : MemActor) : MemActor := if m.weir = .sent && !m.saved then { m with weir := .stopping } else m

/-- Weirs placed at every headgate and memory actor of a colour on a die. -/
def State.weir (s : State) (d colour : Nat) (close : Bool) : State :=
  let s := s.cancelMoves d colour
  let s := if close then s.closeDispatch d colour else s
  let s := (s.setStaging d colour { s.staging d colour with weir := true }).mapMas d weirAgain (s.colourSlots d colour)
  (s.gatesOf d colour).foldl (fun t n => t.weirGate d colour n) s

/-- The sources that a WEIR marks. -/
def State.weirSources (s : State) (d colour : Nat) : Nat :=
  (s.gatesOf d colour).length + ((s.colourSlots d colour).filter fun n => (s.ma (maKey d n)).st ≠ .unconfigured).length

def execWeir (die ticket : Nat) (s : State) : Out :=
  command die ticket (fun c => c.code = 0x11) (fun c => c.fl < 2 && plainOk c) (fun s c d =>
    if c.tgt ≠ allTargets then .fails 2 s
    else .done (s.weirSources d c.colour) (s.weir d c.colour (c.fl = 1))) s

def execColourRead (die ticket : Nat) (s : State) : Out :=
  command die ticket (fun c => c.code = 0x12) (fun c => plainOk c && c.fl = 0 && c.tgt = 0) (fun s c _ =>
    .done (s.inFlight c.colour) s) s

/-! ## SLUICE.SET (R394) -/

/-- Whether a pool of a colour on another slot of a die overlaps a range. -/
def State.poolOverlap (s : State) (d colour tgt base size : Nat) : Bool :=
  (List.range 16).any fun n =>
    let p := s.pool (d * 16 + n)
    n ≠ tgt && p.valid && p.colour = colour && base < p.base + p.size && p.base < base + size

/-- Whether a pool has a value in use. -/
def poolInUse (p : Pool) : Bool := p.valid && (p.alloc ≠ [] || p.held ≠ [])

/-- The pools that a command names: its slot, or every one of the colour on the die (R372). -/
def State.poolTargets (s : State) (d : Nat) (c : Cmd) : List Nat :=
  if c.tgt = allTargets then
    (List.range 16).filter fun n => (s.pool (d * 16 + n)).valid && (s.pool (d * 16 + n)).colour = c.colour
  else [c.tgt]

/-- Encoding checks of SLUICE.SET, in both forms: Table 14-7 names base and size for each. -/
def sluiceOk (fl : Nat) (c : Cmd) : Bool := c.fl = fl && c.arg = 0 && c.opd < 2 ^ 31 && c.opd / 2 ^ 14 % 4 = 0

def execSluiceSet (die ticket : Nat) (s : State) : Out :=
  command die ticket (fun c => c.code = 0x15 && c.fl % 2 = 0)
    (sluiceOk 0) (fun s c d =>
      let base := c.opd % 2 ^ 14
      let size := c.opd / 2 ^ 16
      let ns := s.poolTargets d c
      if ns.any (16 ≤ ·) || size < 1 || 16384 < base + size || 2 ≤ ns.length ||
          ns.any (fun n => s.poolOverlap d c.colour n base size) then .fails 2 s
      else if !s.holdsPlot d c.colour then .fails 6 s
      else if ns.any fun n => poolInUse (s.pool (d * 16 + n)) then .fails 3 s
      else .done 0 (ns.foldl (fun t n => t.setPool (d * 16 + n)
        { Pool.reset with valid := true, colour := c.colour, base := base, size := size }) s)) s

def execSluiceClear (die ticket : Nat) (s : State) : Out :=
  command die ticket (fun c => c.code = 0x15 && c.fl % 2 = 1) (sluiceOk 1) (fun s c d =>
    let ns := s.poolTargets d c
    if ns.any (16 ≤ ·) then .fails 2 s
    else if !s.holdsPlot d c.colour then .fails 6 s
    else if ns.any fun n => poolInUse (s.pool (d * 16 + n)) then .fails 3 s
    else .done 0 (ns.foldl (fun t n => t.setPool (d * 16 + n) Pool.reset) s)) s

/-! ## PLOT.CLOCK, GEN.MARK, XLATE.ROOT (R396 to R398) -/

/-- The plots that a PLOT.CLOCK acts on. -/
def State.clockTargets (s : State) (d : Nat) (c : Cmd) : Targets :=
  let live (p : Nat) : Bool := s.liveRouter { die := d, plot := p }
  if c.tgt = allTargets then .places ((if c.colour = 0 then List.range 400 else s.regionPlots d c.colour).filter live)
  else if !live c.tgt then .bad 2
  else if c.colour ≠ 0 && (s.plot (d * 400 + c.tgt)).colour ≠ some c.colour then .bad 6
  else .places [c.tgt]

/-- The point that a PLOT.CLOCK asks for. -/
def clockMhz (c : Cmd) : Nat := c.opd % 2 ^ 11
def clockMv (c : Cmd) : Nat := c.opd / 2 ^ 16 % 2 ^ 10

def execPlotClock (die ticket : Nat) (s : State) : Out :=
  command die ticket (fun c => c.code = 0x17)
    (fun c => c.fl = 0 && c.arg = 0 && c.opd < 2 ^ 26 && c.opd / 2 ^ 11 % 32 = 0) (fun s c d =>
      let mhz := clockMhz c
      let mv := clockMv c
      match s.clockTargets d c with
      | .bad n => .fails n s
      | .places ps =>
        if mhz < 400 || 1400 < mhz || mv < 550 || 850 < mv then .fails 2 s
        else if ps.any fun p =>
            (s.plot (d * 400 + p)).binned < mhz || mv < Config.binMillivolts (d * 400 + p) mhz then .fails 3 s
        else .later mhz ps s) s

/-- Changing the holds of a generation. -/
def State.mapGen (s : State) (index gen : Nat) (f : Nat → Nat) : State :=
  { s with store := s.store.map fun r => if r.index = index && r.gen = gen then { r with holds := f r.holds } else r }

/-- Generations that are not the newest of their name and that nothing holds leave the store (R324). -/
def State.unloadOld (s : State) : State :=
  { s with store := s.store.filter fun r =>
      r.holds ≠ 0 || !(s.store.any fun q => q.name = r.name && r.gen < q.gen) }

/-- GEN.MARK; a release that leaves an older generation without a hold unloads it (12 R324). -/
def State.genMark (s : State) (c : Cmd) (ok : Nat → Bool) (f : Nat → Nat) : Result :=
  let index := c.opd % 2 ^ 32
  let gen := c.opd / 2 ^ 32
  match s.store.find? fun r => r.index = index && r.gen = gen with
  | none => .fails 2 s
  | some r =>
    if c.ldie ≠ 0 then .fails 2 s
    else if !ok r.holds then .fails 3 s
    else .done (f r.holds) (if f r.holds < r.holds then (s.mapGen index gen f).unloadOld else s.mapGen index gen f)

/-- Whether a command is GEN.MARK of an action. -/
def isMark (n : Nat) (c : Cmd) : Bool := c.code = 0x18 && c.fl % 4 = n
def markOk (c : Cmd) : Bool := c.fl < 4 && c.tgt = 0 && c.arg = 0

def execGenMarkHold (die ticket : Nat) (s : State) : Out :=
  command die ticket (isMark 0) markOk (fun s c _ => s.genMark c (fun _ => true) (· + 1)) s
def execGenMarkRelease (die ticket : Nat) (s : State) : Out :=
  command die ticket (isMark 1) markOk (fun s c _ => s.genMark c (fun n => n ≠ 0) (· - 1)) s
def execGenMarkQuery (die ticket : Nat) (s : State) : Out :=
  command die ticket (isMark 2) markOk (fun s c _ => s.genMark c (fun _ => true) id) s

/-- Setting a root drops the colour's entries in the die's micro-TLBs. A walk under way ends without result and begins again
under the new root. -/
def State.setRoot (s : State) (d colour : Nat) (root : Option Nat) : State :=
  { s with
    mas := s.mas.map fun x =>
      if x.1 / 64 = d then
        (x.1, { x.2 with tlb := x.2.tlb.filter fun t => t.colour ≠ colour
                         walking := if x.2.colour = colour then none else x.2.walking })
      else x
    roots := tabSet s.roots (d * 16 + colour) root }

def execXlateRoot (die ticket : Nat) (s : State) : Out :=
  command die ticket (fun c => c.code = 0x19)
    (fun c => c.fl < 2 && c.tgt = 0 && c.arg = 0 && c.opd % 2 ^ 16 = 0 && c.opd < 2 ^ 52) (fun s c d =>
      if paSpace c.opd ≠ 0 || !s.paExists c.opd then .fails 2 s
      else .later 0 [] (s.setRoot d c.colour (if c.fl = 0 then none else some c.opd))) s

end Sys2Proof.Machine
end

