-- ==== Sys2Proof/Machine/Graph.lean ====
section
/-! DEFINITION. The graph of an image: producers and consumers of a channel, chains of channels, loop entries and the
matching quotas (02 R37; 12 R309, R316, R317; 13 R343). -/

namespace Sys2Proof.Machine

/-- A party of a channel: an actor, a node or a memory actor by its index, a headgate, an outfall. -/
inductive Party where
  | actor (i : Nat)
  | node (i : Nat)
  | ma (i : Nat)
  | gate
  | outfall
deriving DecidableEq, Repr

/-- Input modes of an actor record (12 Table 12-3). -/
def inMatch : Nat := 1
def inStream : Nat := 2
def inRet : Nat := 3

/-- The positions of a number in a list. -/
def placesOf (l : List Nat) (c : Nat) : List Nat := (List.range l.length).filter fun n => l[n]? = some c

/-- Places of a memory actor record's channels in Table 5-5 order: inputs req, data, cmp, start, after; outputs resp,
done. -/
def maInPlaces : List Nat := [0, 2, 3, 4, 5]
def maOutPlaces : List Nat := [1, 6]

/-- Input channels of a party. An actor input without a mode is not bound. -/
def partyIns (b : List Byte) (p : Party) : List Nat :=
  match p with
  | .actor i =>
    let a := imgActor b i
    (((List.range 8).filter fun n => nth a.inmode n 0 ≠ 0).map fun n => nth a.inch n noChan).filter (· ≠ noChan)
  | .node i => (imgNode b i).ins.filter (· ≠ noChan)
  | .ma i => (maInPlaces.map fun n => nth (imgMa b i).chans n noChan).filter (· ≠ noChan)
  | .gate | .outfall => []

/-- Output channels of a party. -/
def partyOuts (b : List Byte) (p : Party) : List Nat :=
  match p with
  | .actor i => (imgActor b i).outch.filter (· ≠ noChan)
  | .node i => (imgNode b i).outs.filter (· ≠ noChan)
  | .ma i => (maOutPlaces.map fun n => nth (imgMa b i).chans n noChan).filter (· ≠ noChan)
  | .gate | .outfall => []

/-- Every actor, node and memory actor of an image. -/
def parties (b : List Byte) : List Party :=
  ((List.range (imgCount b 3)).map Party.actor) ++ ((List.range (imgCount b 5)).map Party.node) ++
    ((List.range (imgCount b 6)).map Party.ma)

/-- Producers of a channel, one for each port (R309). -/
def producersOf (b : List Byte) (c : Nat) : List Party :=
  (if (imgChan b c).hg ≠ 0xFF then [Party.gate] else []) ++
    (parties b).flatMap fun p => (placesOf (partyOuts b p) c).map fun _ => p

/-- Consumers of a channel, one for each port, with the mode of an actor's port. -/
def consumersOf (b : List Byte) (c : Nat) : List (Party × Nat) :=
  (parties b).flatMap (fun p =>
    match p with
    | .actor i =>
      let a := imgActor b i
      ((List.range 8).filter fun n => nth a.inmode n 0 ≠ 0 && nth a.inch n noChan = c).map fun n => (p, nth a.inmode n 0)
    | _ => (placesOf (partyIns b p) c).map fun _ => (p, inMatch)) ++
    (if (imgChan b c).outfall ≠ 0xFF then [(Party.outfall, inMatch)] else [])

/-- What a frontier adds to the channels seen. -/
def fresh (seen next : List Nat) : List Nat :=
  next.foldl (fun acc c => if seen.contains c || acc.contains c then acc else acc ++ [c]) []

/-- Channels that a chain from some channels runs through, the channels themselves included; each input of a party leads
to each of its outputs (R316). -/
def chainsFrom (b : List Byte) : Nat → List Nat → List Nat → List Nat
  | 0, seen, front => seen ++ front
  | fuel + 1, seen, front =>
    if front = [] then seen
    else
      let all := seen ++ front
      chainsFrom b fuel all (fresh all (front.flatMap fun c => (consumersOf b c).flatMap fun x => partyOuts b x.1))
def reachFrom (b : List Byte) (cs : List Nat) : List Nat := chainsFrom b (imgCount b 4 + 1) [] (fresh [] cs)

/-- Whether a party ends a chain backward: a headgate, or one without an input. -/
def isRoot (b : List Byte) (p : Party) : Bool := p = .gate || partyIns b p = []

/-- Channels that lead to some channels without passing through those of `stop`. -/
def chainsTo (b : List Byte) (stop : List Nat) : Nat → List Nat → List Nat → List Nat
  | 0, seen, front => seen ++ front
  | fuel + 1, seen, front =>
    if front = [] then seen
    else
      let all := seen ++ front
      let back := front.flatMap fun c => (producersOf b c).flatMap (partyIns b)
      chainsTo b stop fuel all (fresh all (back.filter fun c => !stop.contains c))

/-- Whether every chain that ends at one of some channels passes through an output of actor f (R317, 13 R343). -/
def boundedBy (b : List Byte) (f : Nat) (cs : List Nat) : Bool :=
  let stop := partyOuts b (.actor f)
  let back := chainsTo b stop (imgCount b 4 + 1) [] (fresh [] (cs.filter fun c => !stop.contains c))
  !(back.any fun c => (producersOf b c).any (isRoot b))

/-- Indices of the records of a kind that belong to a load. -/
def ofLoad (b : List Byte) (kind load : Nat) : List Nat :=
  (List.range (imgCount b kind)).filter fun i =>
    load = match kind with
      | 3 => (imgActor b i).load
      | 4 => (imgChan b i).load
      | 5 => (imgNode b i).load
      | 6 => (imgMa b i).load
      | _ => 0

/-- Loop entries of a load: actors with a window. -/
def loopEntries (b : List Byte) (load : Nat) : List Nat := (ofLoad b 3 load).filter fun i => (imgActor b i).w ≠ 0

/-- Match-mode inputs of an actor in port order: its required ports (02 R37, R145). -/
def matchPorts (a : ActorRec) : List Nat := (List.range 8).filter fun n => nth a.inmode n 0 = inMatch
def matchChans (a : ActorRec) : List Nat := (matchPorts a).map fun n => nth a.inch n noChan

/-- Whether an actor is ordered: all of its required ports are bound to ordered channels (02 R37). -/
def orderedActor (b : List Byte) (a : ActorRec) : Bool := (matchChans a).all fun c => (imgChan b c).kind = 0

/-- Whether actor i lies in the loop of loop entry f (13 R343). -/
def inLoop (b : List Byte) (f i : Nat) : Bool :=
  let a := imgActor b i
  let ret := nth (imgActor b f).inch (imgActor b f).retport noChan
  boundedBy b f (matchChans a) && (reachFrom b (partyOuts b (.actor i))).contains ret

/-- The quota of an actor that does not share an element's rest: ordered, or in a loop (13 R343). -/
def fixedQuota (b : List Byte) (i : Nat) : Option Nat :=
  let a := imgActor b i
  if orderedActor b a then some 4
  else
    ((loopEntries b a.load).find? fun f => inLoop b f i).map fun f =>
      let e := imgActor b f
      Nat.min 64 (e.e * e.replicas * ((e.w + a.replicas - 1) / a.replicas))

/-- The quotas of actors that stand on one element: the others share what is left, with at least 1 each. -/
def quotasOf (b : List Byte) (actors : List Nat) : List Nat :=
  let fixed := (actors.map fun i => (fixedQuota b i).getD 0).sum
  let others := (actors.filter fun i => (fixedQuota b i).isNone).length
  actors.map fun i => (fixedQuota b i).getD (Nat.max 1 ((64 - fixed) / Nat.max 1 others))

end Sys2Proof.Machine
end

