-- ==== Sys2Proof/Machine/ImageCheck.lean ====
section
/-! DEFINITION. The image checks of the loader (12 R306 to R317, R321, R322, R325; 04 R106, R126, R129; 18 R467), made in
the order of Table 12-6. -/

namespace Sys2Proof.Machine

/-- A refusal (R312): code of Table 12-6, object kind, index, second index. -/
structure Refused where
  code : Nat
  kind : Nat
  index : Nat
  second : Nat
deriving DecidableEq, Repr

/-- Codes of Table 12-6. -/
def lFormat : Nat := 0x0001
def lDigest : Nat := 0x0002
def lIsa : Nat := 0x0003
def lErratum : Nat := 0x0004
def lGeneration : Nat := 0x0005
def lBinding : Nat := 0x0006
def lMemActor : Nat := 0x0007
def lRate : Nat := 0x0008
def lRace : Nat := 0x0009
def lReloc : Nat := 0x000A
def lRegion : Nat := 0x000B
def lPort : Nat := 0x000C
def lPlace : Nat := 0x000D
def lBusy : Nat := 0x000E

/-- Object kinds of R312. -/
def oImage : Nat := 0
def oLoad : Nat := 1
def oActor : Nat := 2
def oChan : Nat := 3
def oNode : Nat := 4
def oMa : Nat := 5
def oPool : Nat := 6
def oSection : Nat := 7
def oRecord : Nat := 8

/-- The refusal record of 16 bytes: byte 0 in the low byte of the first word. -/
def Refused.words (r : Refused) : DWord × DWord :=
  (BitVec.ofNat 64 (r.code + r.kind * 2 ^ 16 + r.index % 2 ^ 32 * 2 ^ 32), BitVec.ofNat 64 (r.second % 2 ^ 32))

/-- A condition over objects: whether it holds of an object, and the refusal that names the object. -/
abbrev Conds := List (Bool × Refused)

/-- The first condition that holds. -/
def firstOf (l : Conds) : Option Refused := (l.find? fun x => x.1).map fun x => x.2

/-- A condition on one object. -/
def onOne (code kind index : Nat) (p : Bool) : Conds := [(p, { code := code, kind := kind, index := index, second := 0 })]

/-- A condition on each of n objects in ascending index. -/
def onEach (code kind n : Nat) (p : Nat → Bool) : Conds := (List.range n).flatMap fun i => onOne code kind i (p i)

/-- A condition on each pair i < j of n objects. -/
def onPairs (code kind n : Nat) (p : Nat → Nat → Bool) : Conds :=
  (List.range n).flatMap fun i => ((List.range n).filter (i < ·)).map fun j =>
    (p i j, { code := code, kind := kind, index := i, second := j })

/-! ## LOAD_FORMAT (R306 to R310, R321, R325) -/

/-- Whether bytes of an image are all zero. -/
def zeroAt (b : List Byte) (off n : Nat) : Bool := leAt b off n = 0

/-- Whether a field of a record is zero. -/
def zeroField (b : List Byte) (kind idx off n : Nat) : Bool := imgField b kind idx off n = 0

/-- Whether the kind of a section is known. -/
def knownSection (k : Nat) : Bool := 1 ≤ k && k ≤ 11

/-- Reserved fields and values of the header and of a section table entry. -/
def headerReserved (b : List Byte) : Bool :=
  !zeroAt b 36 28 || !zeroAt b 96 32 || imgGen b = 0 || imgNsec b = 0 || 64 < imgNsec b || imgLoads b = 0 ||
    64 < imgLoads b || 160 < imgRegW b || 160 < imgRegH b
def sectionReserved (b : List Byte) (n : Nat) : Bool :=
  let x := imgSection b n
  1 < leAt b (128 + 16 * n + 2) 2 || !zeroAt b (128 + 16 * n + 4) 4 || (!knownSection x.kind && !x.opt)

/-- Reserved fields and values of a record. -/
def loadReserved (b : List Byte) (i : Nat) : Bool := !zeroField b 2 i 4 12
def actorReserved (b : List Byte) (i : Nat) : Bool :=
  let a := imgActor b i
  7 < imgField b 3 i 2 2 || !zeroField b 3 i 47 1 || !zeroField b 3 i 98 30 || a.replicas = 0 || 65536 < a.replicas ||
    a.steps = 0 || 65536 < a.steps || a.deflimit = 0 || 2 ^ 20 < a.deflimit || a.bloblen % 4 ≠ 0 || 2 ^ 17 < a.w ||
    (if a.w = 0 then a.e ≠ 0 || a.retport ≠ 0xFF else a.e = 0 || 16 < a.e || 7 < a.retport) || a.balign < 2 || 9 < a.balign
def chanReserved (b : List Byte) (i : Nat) : Bool :=
  let c := imgChan b i
  2 < c.kind || 1 < imgField b 4 i 3 1 || c.depth = 0 || 65536 < c.depth || (15 < c.hg && c.hg ≠ 0xFF) ||
    (15 < c.outfall && c.outfall ≠ 0xFF) || !zeroField b 4 i 16 16
def nodeReserved (b : List Byte) (i : Nat) : Bool :=
  let n := imgNode b i
  3 < n.kind || (n.kind = 2 && (n.d = 0 || 64 < n.d)) || (n.kind < 2 && n.d ≠ 0) || !zeroField b 5 i 24 8
def maReserved (b : List Byte) (i : Nat) : Bool :=
  !blockReserved (blockMem (imgMa b i).operand) || !blockRanges (blockMem (imgMa b i).operand) || !zeroField b 6 i 82 46
def constReserved (b : List Byte) (i : Nat) : Bool := !zeroField b 7 i 3 1 || 240 ≤ (imgConst b i).word
def poolReserved (b : List Byte) (i : Nat) : Bool := !zeroField b 8 i 6 2 || !zeroField b 8 i 12 4 || (imgPool b i).size = 0
def relocReserved (b : List Byte) (i : Nat) : Bool := !zeroField b 10 i 2 1 || 1 < (imgReloc b i).kind

/-- Whether an offset starts a name that ends inside the string section. -/
def nameGood (b : List Byte) (off : Nat) : Bool :=
  let x := imgFind b 1
  off < x.len && ((b.drop (x.off + off)).take (x.len - off)).contains 0

/-- Whether two sections overlap. -/
def sectionsMeet (x y : Section) : Bool := x.off < y.off + y.len && y.off < x.off + x.len

/-- Bad placement of a section: alignment, extent, header, broken last record; of two, an overlap or one kind twice
(R307). -/
def sectionBad (b : List Byte) (n : Nat) : Bool :=
  let x := imgSection b n
  x.off % 8 ≠ 0 || b.length < x.off + x.len || x.off < 128 + 16 * imgNsec b || x.len % recordSize x.kind ≠ 0
def sectionsClash (b : List Byte) (m n : Nat) : Bool :=
  sectionsMeet (imgSection b m) (imgSection b n) || (imgSection b m).kind = (imgSection b n).kind

/-- Whether a channel index is that of a channel of a load, or unused. -/
def chanIndexGood (b : List Byte) (load c : Nat) : Bool :=
  c = noChan || (c < imgCount b 4 && (imgChan b c).load = load)

/-- Bad offsets and indices of the header and of records. -/
def headerBad (b : List Byte) : Bool :=
  b.length % 8 ≠ 0 || 2 ^ 30 < b.length || imgLength b ≠ b.length || !nameGood b (imgNameOff b) || imgCount b 2 ≠ imgLoads b
def loadBad (b : List Byte) (i : Nat) : Bool := !nameGood b (imgField b 2 i 0 4)
def actorBad (b : List Byte) (i : Nat) : Bool :=
  let a := imgActor b i
  imgLoads b ≤ a.load || !nameGood b (imgField b 3 i 8 4) || (imgFind b 9).len < a.blob + a.bloblen ||
    a.bloblen < a.codelen || a.codelen % 4 ≠ 0 || a.arm0 % 4 ≠ 0 || a.arm1 % 4 ≠ 0 || a.codelen ≤ a.arm0 ||
    a.codelen ≤ a.arm1 || !(a.inch ++ a.outch).all (chanIndexGood b a.load)
def chanBad (b : List Byte) (i : Nat) : Bool := imgLoads b ≤ (imgChan b i).load || !nameGood b (imgField b 4 i 8 4)
def nodeBad (b : List Byte) (i : Nat) : Bool :=
  let n := imgNode b i
  imgLoads b ≤ n.load || !(n.ins ++ n.outs).all (chanIndexGood b n.load)
def maBad (b : List Byte) (i : Nat) : Bool :=
  let m := imgMa b i
  imgLoads b ≤ m.load || !m.chans.all (chanIndexGood b m.load)
def constBad (b : List Byte) (i : Nat) : Bool := imgLoads b ≤ (imgConst b i).load
def poolBad (b : List Byte) (i : Nat) : Bool := !nameGood b (imgField b 8 i 8 4)
def relocBad (b : List Byte) (i : Nat) : Bool := imgCount b 3 ≤ (imgReloc b i).actor

/-- Sections that every image has. -/
def requiredSections : List Nat := [1, 2, 3, 4, 9, 10]

/-- Two constants of one load with one index. -/
def sameConst (b : List Byte) (i j : Nat) : Bool :=
  (imgConst b i).load = (imgConst b j).load && (imgConst b i).word = (imgConst b j).word

/-- The checks of LOAD_FORMAT, in the order of its row. -/
def checkFormat (b : List Byte) : Option Refused :=
  firstOf (onOne lFormat oImage 0 (leAt b 0 4 ≠ 0x47544C53) ++ onOne lFormat oImage 0 (leAt b 4 2 ≠ 1)) <|>
  firstOf (onOne lFormat oImage 0 (headerReserved b)) <|>
  firstOf (onEach lFormat oSection (imgNsec b) (sectionReserved b)) <|>
  firstOf (onEach lFormat oLoad (imgCount b 2) (loadReserved b) ++ onEach lFormat oActor (imgCount b 3) (actorReserved b) ++
    onEach lFormat oChan (imgCount b 4) (chanReserved b) ++ onEach lFormat oNode (imgCount b 5) (nodeReserved b) ++
    onEach lFormat oMa (imgCount b 6) (maReserved b) ++ onEach lFormat oPool (imgCount b 8) (poolReserved b) ++
    onEach lFormat oRecord (imgCount b 7) (constReserved b) ++ onEach lFormat oRecord (imgCount b 10) (relocReserved b)) <|>
  firstOf (onOne lFormat oImage 0 (!requiredSections.all fun k => (imgSections b).any fun x => x.kind = k)) <|>
  firstOf (onOne lFormat oImage 0 (headerBad b) ++ onEach lFormat oSection (imgNsec b) (sectionBad b) ++
    onPairs lFormat oSection (imgNsec b) (sectionsClash b)) <|>
  firstOf (onEach lFormat oLoad (imgCount b 2) (loadBad b) ++ onEach lFormat oActor (imgCount b 3) (actorBad b) ++
    onEach lFormat oChan (imgCount b 4) (chanBad b) ++ onEach lFormat oNode (imgCount b 5) (nodeBad b) ++
    onEach lFormat oMa (imgCount b 6) (maBad b) ++ onEach lFormat oPool (imgCount b 8) (poolBad b) ++
    onEach lFormat oRecord (imgCount b 7) (constBad b) ++ onEach lFormat oRecord (imgCount b 10) (relocBad b)) <|>
  firstOf (onPairs lFormat oRecord (imgCount b 7) (sameConst b))

/-! ## LOAD_DIGEST, LOAD_ISA, LOAD_ERRATUM, LOAD_GENERATION -/

/-- The digest that an image carries, and the one it should (Table 12-1). -/
def imgDigest (b : List Byte) : List Byte := (b.drop 64).take 32
def trueDigest (b : List Byte) : List Byte := shake256 (b.take 64 ++ List.replicate 32 0 ++ b.drop 96) 32

/-- Whether a part of a stepping refuses erratum i (18 Table 18-1, 12 Table 12-7). -/
def erratumRefused (stepping i : Nat) : Bool :=
  if stepping = 1 then 3 ≤ i else 2 ≤ i

/-- The name of the graph of an image. -/
def graphName (b : List Byte) : List Byte := imgName b (imgNameOff b)

/-- Whether the store refuses the generation of an image (R322). -/
def State.generationRefused (s : State) (b : List Byte) : Bool :=
  let same := s.store.filter fun r => r.name = graphName b
  !((same.all fun r => r.gen < imgGen b) || same.any fun r => r.gen = imgGen b && imgDigest r.bytes = imgDigest b)

/-- Checks of the image as a whole. -/
def State.checkWhole (s : State) (b : List Byte) : Option Refused :=
  firstOf (onOne lDigest oImage 0 (imgDigest b ≠ trueDigest b) ++ onOne lIsa oImage 0 (imgIsa b ≠ 1) ++
    ((List.range 64).flatMap fun i =>
      onOne lErratum oImage i (bitOf (imgErrata b) i && erratumRefused s.hw.part.stepping i)) ++
    onOne lGeneration oImage 0 (s.generationRefused b))

/-! ## LOAD_BINDING (R315) -/

/-- A kind of channel (Table 12-4). -/
def isOrdered (b : List Byte) (c : Nat) : Bool := (imgChan b c).kind = 0
def isTagged (b : List Byte) (c : Nat) : Bool := (imgChan b c).kind = 1
def isReturn (b : List Byte) (c : Nat) : Bool := (imgChan b c).kind = 2

/-- How many replicas a party has. -/
def replicasOf (b : List Byte) (p : Party) : Nat :=
  match p with
  | .actor i => (imgActor b i).replicas
  | _ => 1

/-- Whether a party is an actor, and a confluence. -/
def isActor (p : Party) : Bool :=
  match p with
  | .actor _ => true
  | _ => false
def isConfluence (b : List Byte) (p : Party) : Bool :=
  match p with
  | .node i => 2 ≤ (imgNode b i).kind
  | _ => false

/-- A channel without a producer or a consumer, or with two consumers. -/
def chanLoose (b : List Byte) (c : Nat) : Bool := producersOf b c = [] || (consumersOf b c).length ≠ 1

/-- Whether an ordered channel joins one replicated actor port to an actor (02 R29). -/
def joinsActors (b : List Byte) (c : Nat) : Bool :=
  (producersOf b c).length = 1 && (producersOf b c).all isActor && (consumersOf b c).all fun x => isActor x.1

/-- The producer ports of a channel, one for each replica, and the spillway units that a channel of a depth with so many needs
(15 R424). -/
def producerPorts (b : List Byte) (c : Nat) : Nat := ((producersOf b c).map (replicasOf b)).sum
def areaUnits (depth producers : Nat) : Nat := ((depth + 256 * (1 + producers)) * 16 + 65535) / 65536

/-- An ordered channel with two producers, but for the pairing of R29 and confluence outlets. -/
def twoProducers (b : List Byte) (c : Nat) : Bool :=
  let ps := producersOf b c
  isOrdered b c && 2 ≤ (ps.map (replicasOf b)).sum && !joinsActors b c && !ps.all (isConfluence b)

/-- An ordered channel between replicated parties of unequal counts. -/
def unequalReplicas (b : List Byte) (c : Nat) : Bool :=
  isOrdered b c && (consumersOf b c).any fun x => (producersOf b c).any fun p => replicasOf b p ≠ replicasOf b x.1

/-- A stream-mode input on a channel that is not ordered. -/
def streamUnordered (b : List Byte) (i : Nat) : Bool :=
  let a := imgActor b i
  (List.range 8).any fun n => nth a.inmode n 0 = inStream && !isOrdered b (nth a.inch n noChan)

/-- Whether a port is the one that ret= of its actor names. -/
def isRetPort (a : ActorRec) (n : Nat) : Bool := a.w ≠ 0 && a.retport = n && nth a.inmode n 0 = inRet

/-- A return channel that feeds something else; a return-mode port, or the port of ret=, that something else feeds. -/
def returnElsewhere (b : List Byte) (c : Nat) : Bool :=
  isReturn b c && !(consumersOf b c).all fun x =>
    match x.1 with
    | .actor i => let a := imgActor b i; (placesOf a.inch c).all (isRetPort a)
    | _ => false
def retPortElse (b : List Byte) (i : Nat) : Bool :=
  let a := imgActor b i
  (List.range 8).any fun n =>
    (nth a.inmode n 0 = inRet || (a.w ≠ 0 && a.retport = n)) && !(isRetPort a n && isReturn b (nth a.inch n noChan))

/-- A turnout with an input that is not ordered; an unordered confluence on a channel that is not tagged. -/
def nodeMiswired (b : List Byte) (i : Nat) : Bool :=
  let ins := partyIns b (.node i)
  if (imgNode b i).kind < 2 then !ins.all (isOrdered b)
  else (imgNode b i).kind = 3 && !(ins ++ partyOuts b (.node i)).all (isTagged b)

/-- Whether a memory actor is order-free (04 R126). -/
def orderFree (b : List Byte) (i : Nat) : Bool :=
  let m := imgMa b i
  let c := maCfg (blockMem m.operand)
  c.kind = .atomic && nth m.chans 1 noChan = noChan &&
    match c.op with
    | .add | .min | .max | .minz | .maxz | .fmin | .fmax => true
    | .fadd | .swap | .cas => false

/-- A tagged channel on an input of a memory actor that pairs by order. -/
def taggedToMa (b : List Byte) (c : Nat) : Bool :=
  isTagged b c && (List.range (imgCount b 6)).any fun i =>
    !orderFree b i && [0, 2, 3, 4].any fun n => nth (imgMa b i).chans n noChan = c

/-- Two channels of one load on one headgate, or one outfall, of one region die. -/
def sameGate (b : List Byte) (c d : Nat) : Bool :=
  let x := imgChan b c
  let y := imgChan b d
  x.load = y.load && x.die = y.die && ((x.hg ≠ 0xFF && x.hg = y.hg) || (x.outfall ≠ 0xFF && x.outfall = y.outfall))

/-- Two pools that overlap; a pool out of range (02 R58). -/
def poolsMeet (b : List Byte) (i j : Nat) : Bool :=
  let p := imgPool b i
  let q := imgPool b j
  p.base < q.base + q.size && q.base < p.base + p.size
def poolOut (b : List Byte) (i : Nat) : Bool := 16384 < (imgPool b i).base + (imgPool b i).size

/-- The checks of LOAD_BINDING, in the order of R315. -/
def checkBinding (b : List Byte) : Option Refused :=
  let nc := imgCount b 4
  let na := imgCount b 3
  firstOf (onEach lBinding oChan nc (chanLoose b) ++
    onEach lBinding oActor na (fun i => let n := (matchPorts (imgActor b i)).length; n = 0 || 4 < n) ++
    onEach lBinding oChan nc (twoProducers b) ++ onEach lBinding oChan nc (unequalReplicas b) ++
    onEach lBinding oActor na (streamUnordered b) ++ onEach lBinding oChan nc (returnElsewhere b) ++
    onEach lBinding oActor na (retPortElse b) ++ onEach lBinding oNode (imgCount b 5) (nodeMiswired b) ++
    onEach lBinding oChan nc (taggedToMa b) ++ onPairs lBinding oChan nc (sameGate b) ++
    onPairs lBinding oPool (imgCount b 8) (poolsMeet b) ++ onEach lBinding oPool (imgCount b 8) (poolOut b))

/-! ## LOAD_MEMACTOR (04 R106) -/

/-- The conditions of R106, in its order. -/
def badBase (c : MaCfg) : Bool := c.vbase % maAlign c ≠ 0
def badStride (c : MaCfg) : Bool := c.off % maAlign c ≠ 0 || c.str.any fun x => x % maAlign c ≠ 0
def badPattern (c : MaCfg) : Bool := !c.index && !(c.vbase ≤ patternLow c && patternHigh c + c.unit ≤ c.vbase + c.len)
def badRange (c : MaCfg) : Bool :=
  let last := c.vbase + c.len - 1
  !canonical c.vbase || !canonical last || c.vbase / 2 ^ 56 % 2 ≠ last / 2 ^ 56 % 2
def badCmp (c : MaCfg) (bound : Bool) : Bool := (c.kind = .atomic && c.op = .cas) ≠ bound

/-- The checks of LOAD_MEMACTOR. -/
def checkMas (b : List Byte) : Option Refused :=
  let n := imgCount b 6
  let cfg (i : Nat) : MaCfg := maCfg (blockMem (imgMa b i).operand)
  firstOf (onEach lMemActor oMa n (fun i => badBase (cfg i)) ++ onEach lMemActor oMa n (fun i => badStride (cfg i)) ++
    onEach lMemActor oMa n (fun i => badPattern (cfg i)) ++ onEach lMemActor oMa n (fun i => badRange (cfg i)) ++
    onEach lMemActor oMa n (fun i => (cfg i).port = .opt && (cfg i).kind = .atomic) ++
    onEach lMemActor oMa n (fun i => (cfg i).port = .opt && (cfg i).kind ≠ .read && (cfg i).scope < 4) ++
    onEach lMemActor oMa n fun i => badCmp (cfg i) (nth (imgMa b i).chans 3 noChan ≠ noChan))

/-! ## LOAD_RATE (R316, R317) -/

/-- The index of a party in its section. -/
def partyIndex (p : Party) : Nat :=
  match p with
  | .actor i | .node i | .ma i => i
  | .gate | .outfall => 0

/-- Whether a trigger path leads from an output of actor a to a party. -/
def triggers (b : List Byte) (a : Nat) (x : Party) : Bool :=
  (reachFrom b (partyOuts b (.actor a))).any fun c =>
    (consumersOf b c).any fun y => y.1 = x && (y.2 ≠ inStream || !isActor x)

/-- The producers that an actor's stream-mode inputs depend on, in port order. -/
def streamProducers (b : List Byte) (i : Nat) : List Party :=
  let a := imgActor b i
  ((List.range 8).filter fun n => nth a.inmode n 0 = inStream).flatMap fun n =>
    (producersOf b (nth a.inch n noChan)).filter (· ≠ .gate)

/-- Whether an ordered confluence breaks R317. -/
def confluenceUnbounded (b : List Byte) (i : Nat) : Bool :=
  let n := imgNode b i
  let ins := partyIns b (.node i)
  let entries := (loopEntries b n.load).filter fun f => boundedBy b f ins
  let tagged := ins.any fun c => !isOrdered b c
  let meets (f : Nat) : Bool :=
    let a := imgActor b f
    a.e * a.replicas ≤ 16 && (!tagged || a.w ≤ n.d)
  n.kind = 2 && (tagged || entries ≠ []) && !entries.any meets

/-- The checks of LOAD_RATE. -/
def checkRate (b : List Byte) : Option Refused :=
  firstOf (((List.range (imgCount b 3)).flatMap fun i => (streamProducers b i).map fun x =>
      (triggers b i x, { code := lRate, kind := oActor, index := i, second := partyIndex x })) ++
    onEach lRate oNode (imgCount b 5) (confluenceUnbounded b))

/-! ## LOAD_RACE (04 R129) -/

/-- Whether a chain leads from the done output of one memory actor to the after input of another. -/
def ordersMas (b : List Byte) (i j : Nat) : Bool :=
  let done := nth (imgMa b i).chans 6 noChan
  let after := nth (imgMa b j).chans 5 noChan
  done ≠ noChan && after ≠ noChan && (reachFrom b [done]).contains after

/-- Whether the declared ranges of two actors overlap where one of them may write. -/
def rangesRace (x y : MaCfg) : Bool :=
  (x.kind ≠ .read || y.kind ≠ .read) && x.vbase < y.vbase + y.len && y.vbase < x.vbase + x.len

/-- Whether the ranges of a pair of memory actors overlap against R129. -/
def maOverlap (b : List Byte) (i j : Nat) : Bool :=
  let x := maCfg (blockMem (imgMa b i).operand)
  let y := maCfg (blockMem (imgMa b j).operand)
  (imgMa b i).load = (imgMa b j).load && !ordersMas b i j && !ordersMas b j i && rangesRace x y &&
    !(orderFree b i && orderFree b j && x.op = y.op && x.unit = y.unit)

/-- Whether a pair of memory actors races: it overlaps and .allowrace does not name it. -/
def maRace (b : List Byte) (i j : Nat) : Bool := maOverlap b i j && !Config.allowRace b i j

/-! ## The debug map (02 R69; 04 R126, R129; R315) -/

/-- Whether an ordered channel has a tagged actor among its producers: its tokens come in dispatch order. -/
def dispatchOrdered (b : List Byte) (c : Nat) : Bool :=
  isOrdered b c && (producersOf b c).any fun p =>
    match p with
    | .actor i => !orderedActor b (imgActor b i)
    | _ => false

/-- The marks that the loader makes in the debug map of an image it accepts. -/
def debugMarks (b : List Byte) : List DebugMark :=
  let ms := List.range (imgCount b 6)
  (((List.range (imgCount b 5)).filter fun i => (imgNode b i).kind = 3).map DebugMark.confluence) ++
    ((ms.filter fun i => (maCfg (blockMem (imgMa b i).operand)).kind = .atomic && !orderFree b i).map DebugMark.atomic) ++
    (ms.flatMap fun i => (ms.filter fun j => i < j && maOverlap b i j && Config.allowRace b i j).map (DebugMark.overlap i)) ++
    ((List.range (imgCount b 4)).filter (dispatchOrdered b)).map DebugMark.dispatchOrdered

/-- The image checks, in the order of Table 12-6. -/
def State.checkImage (s : State) (b : List Byte) : Option Refused :=
  checkFormat b <|> s.checkWhole b <|> checkBinding b <|> checkMas b <|> checkRate b <|>
    firstOf (onPairs lRace oMa (imgCount b 6) (maRace b))

end Sys2Proof.Machine
end

