-- ==== Sys2Proof/Machine/Switch.lean ====
section
/-! DEFINITION. From one load to the next and the end of a launch (13 R336 to R342; 15 R403): selection, switch tokens,
the switch of elements, nodes and memory actors, drained notices, completion. -/

namespace Sys2Proof.Machine

/-! ## LOAD_SELECT (R336) -/

/-- What the payload of a control token selects among n loads. -/
def selectOf (n v : Nat) : Select := if v < n then .next v else if v = 0xFFFF then .none else .bad

/-- The next token of a control channel of a load that has been left: what is still to come there is discarded. Tokens of a
load that is being staged wait until it is active. -/
def State.discardControl (s : State) (colour : Nat) : State :=
  let staged (c : Chan) : Bool :=
    let g := s.staging c.dest.die colour
    (g.isOpen || g.closed || g.armed) && c.load = some g.load
  match s.chans.find? fun c => c.colour = colour && s.isControl c && !staged c && c.queue ≠ [] with
  | none => s
  | some c => (c.head.map (s.takeOut c)).getD s

/-- The next token of the control channel is taken at of15: the first data token selects, later ones are discarded. -/
def execLoadSelect (colour : Nat) (s : State) : Out :=
  match s.chans.find? fun c => c.colour = colour && c.load = some (s.activeLoad colour) && s.isControl c && c.queue ≠ [] with
  | none => .next (s.discardControl colour)
  | some c =>
    match c.head with
    | none => .next s
    | some t =>
      let key := c.dest.die * 16 + c.dest.pos
      let u := s.takeOut c t
      let o := u.out key
      if t.kind ≠ .data || o.selected.isSome then .next u
      else
        let v := t.payload.toNat % 65536
        .next ((u.setOut key { o with selected := some v }).mapLaunch colour fun l =>
          { l with select := selectOf (imgLoads (s.imageOf colour)) v })

/-! ## Switch tokens (R338) -/

/-- Whether the switch is armed for a colour on a die. -/
def State.armedAt (s : State) (d colour : Nat) : Bool := (s.staging d colour).armed

/-- Whether a binding has sent EOS, and owes its switch token. -/
def owesSwitch (b : Bind) : Bool := b.closed && !b.switched && !b.weired

/-- A switch token leaves on a binding that has sent EOS, against a credit (R350). -/
def State.sendSwitch (s : State) (x : Source) (load colour : Nat) : Option State :=
  match s.srcBind x colour load with
  | some b => if owesSwitch b && s.armedAt x.die colour then s.tryEmit x load (markerToken .switch colour) else none
  | none => none

/-- Whether an input has counted its switch tokens, or is not bound. -/
def State.inputSwitched (s : State) (d : Dest) (colour load : Nat) : Bool :=
  match s.chanAt d colour (some load) with
  | none => true
  | some c => s.chanProducers c ≤ c.switches

/-- Whether an output has sent its switch token, or is not bound. -/
def State.outputSwitched (s : State) (x : Source) (colour load : Nat) : Bool :=
  match s.srcBind x colour load with
  | none => true
  | some b => b.switched

/-- The endpoints of a consumer for a load, gone. -/
def State.dropChans (s : State) (colour load : Nat) (p : Dest → Bool) : State :=
  { s with chans := s.chans.filter fun c => !(c.colour = colour && c.load = some load && p c.dest) }

/-- Once the last consumer of a load has switched, and its outfalls have ended, nothing is left of its channels. -/
def State.retireEnds (s : State) (colour load : Nat) : State :=
  let cs := s.chans.filter fun c => c.colour = colour && c.load = some load
  if cs.all fun c => c.dest.kind = .outfall && s.chanEnded c then
    { s with
      binds := s.binds.filter fun b => !(b.colour = colour && b.load = some load)
      chans := s.chans.filter fun c => !(c.colour = colour && c.load = some load)
      depths := s.depths.filter fun x => !(x.colour = colour && x.load = some load) }
  else s

/-- A memory actor that has ended, sent its switch tokens and counted those of its inputs takes its staged bank, and so
does a slot that the old load does not use; it issues nothing before the drained notice (R340). -/
def State.switchMa (s : State) (d slot : Nat) : State :=
  let m := s.ma (maKey d slot)
  let g := s.staging d m.colour
  let idle := m.st = .unconfigured && m.stagedValid
  let ready := g.armed && !m.saved &&
    (idle || (m.st = .ended && !g.weir && m.load ≠ g.load &&
      (List.range 2).all (fun o => s.outputSwitched (maSource d slot o) m.colour m.load) &&
      (List.range 5).all (fun i => s.inputSwitched (maDest d slot i) m.colour m.load)))
  if ready then
    let s := if idle then s else
      (s.dropChans m.colour m.load fun x => x.die = d && x.kind = .memActor && x.pos = slot).retireEnds m.colour m.load
    s.setMa (maKey d slot)
      (if m.stagedValid then
        { MemActor.reset with active := m.staged, colour := m.colour, load := g.load, st := .running, tlb := m.tlb }
      else { MemActor.reset with active := m.active, colour := m.colour })
  else s

/-- A node that has closed its outlets, sent its switch tokens and counted those of its inputs takes its staged bank, and
so does a unit that the old load does not use. -/
def State.switchNode (s : State) (d node : Nat) : State :=
  let n := s.node (nodeKey d node)
  let g := s.staging d n.colour
  let idle := !n.configured && n.stagedValid
  let ready := g.armed && !n.saved &&
    (idle || (n.configured && !g.weir && n.load ≠ g.load &&
      (List.range 2).all (fun o => s.outputSwitched (nodeSource d node o) n.colour n.load) &&
      (List.range 10).all (fun i => s.inputSwitched (nodeDest d node i) n.colour n.load)))
  if ready then
    let s := if idle then s else
      (s.dropChans n.colour n.load fun x => x.die = d && x.kind = .node && x.pos = node).retireEnds n.colour n.load
    s.setNode (nodeKey d node)
      (if n.stagedValid then { Node.reset with active := n.staged, configured := true, colour := n.colour, load := g.load }
      else { Node.reset with active := n.active, colour := n.colour })
  else s

/-- Switch and weir tokens at the head of an input of a memory actor, taken. -/
def State.eatMarks (s : State) (d slot i : Nat) : Nat → State
  | 0 => s
  | n + 1 =>
    match s.maHead d slot i with
    | some t => if t.kind = .switch || t.kind = .weir then State.eatMarks (s.maPop d slot i) d slot i n else s
    | none => s

/-- A memory actor that has ended counts the switch tokens of its inputs. -/
def State.countMaSwitches (s : State) (d slot : Nat) : State :=
  let m := s.ma (maKey d slot)
  if m.st = .ended && !m.saved then
    (List.range 5).foldl (fun t i =>
      match t.maIn d slot i with
      | some c => t.eatMarks d slot i (c.queue.length + c.rear.length)
      | none => t) s
  else s

/-- Whether an element runs no firing and every actor of its bank has ended. -/
def bankEnded (e : Element) : Bool :=
  e.configured && e.fir.status = .idle && (validSlots e.active).all fun n => nth e.ends.toList n .active = .ended

/-- A load of a colour that an element has switched out of with a switch token still to send on an output. -/
def State.lateSwitch (s : State) (x : Source) (colour : Nat) : Option Nat :=
  let e := s.elem (elemKey x.die x.pos)
  (s.binds.find? fun b => b.source = x && b.colour = colour && owesSwitch b && b.load.any fun k =>
    !(e.configured && e.colour = colour && e.load = k) && loadBank k ≠ loadBank e.load).bind Bind.load

/-- The sources that a consumer endpoint counts, through at most n channels: an unordered confluence stands for the producers
of its inputs (02 R33). -/
def State.sourcesWithin (s : State) (colour load : Nat) : Nat → Dest → List Source
  | 0, _ => []
  | n + 1, dest =>
    (s.binds.filter fun b => b.colour = colour && b.load = some load && b.dests.contains dest).flatMap fun b =>
      if b.merges then
        (List.range 8).flatMap fun i =>
          s.sourcesWithin colour load n { die := b.source.die, kind := .node, pos := b.source.pos, din := i }
      else [b.source]

/-- The elements of a load that feed the inputs of an element and have not switched: it waits for their switch tokens. -/
def State.feeders (s : State) (colour load k : Nat) : List Nat :=
  ((List.range 8).flatMap fun i => s.sourcesWithin colour load (s.binds.length + 1) (elemDest k i)).filterMap fun x =>
    let n := elemKey x.die x.pos
    if x.kind = .element && (s.elem n).configured && (s.elem n).colour = colour && (s.elem n).load = load then some n else none

/-- The elements that feed those of a list, directly or through one another. -/
def State.feedersOf (s : State) (colour load : Nat) : Nat → List Nat → List Nat
  | 0, l => l
  | n + 1, l =>
    let more := ((l.flatMap (s.feeders colour load)).filter fun k => !l.contains k).eraseDups
    if more = [] then l else State.feedersOf s colour load n (l ++ more)

/-- Whether an element waits for its own switch tokens of an output: the output feeds it, or an element that feeds it, directly
or through elements and unordered confluences (L40). -/
def State.feedsItself (s : State) (k o : Nat) : Bool :=
  let e := s.elem k
  let from' := k :: s.feedersOf e.colour e.load s.elems.length (s.feeders e.colour e.load k)
  from'.any fun n => (List.range 8).any fun i =>
    (s.sourcesWithin e.colour e.load (s.binds.length + 1) (elemDest n i)).contains (elemSource k o)

/-- A producer appends a switch token behind its EOS; after its last one a memory actor or a node may switch. An
unordered confluence forwards the switch tokens it receives instead (R33). An element appends its own when it switches
(R338, R339); on an output that feeds the element itself it would wait for its token for ever, and appends that one once its
actors have all ended, as 14 R383 has every producer do (L40). -/
def execSwitchToken (src : Source) (colour : Nat) (s : State) : Out :=
  match src.kind with
  | .element =>
    let e := s.elem (elemKey src.die src.pos)
    match s.lateSwitch src colour with
    | some k => .next ((s.tryEmit src k (markerToken .switch colour)).getD s)
    | none =>
      if e.colour = colour && e.cut = .open && bankEnded e && s.feedsItself (elemKey src.die src.pos) src.out then
        .next ((s.sendSwitch src e.load colour).getD s)
      else .next s
  | .headgate => .next ((s.sendSwitch src (s.sourceLoad src colour) colour).getD s)
  | .memActor =>
    let m := s.ma (maKey src.die src.pos)
    if m.colour ≠ colour then .next s
    else .next ((((s.sendSwitch src m.load colour).getD s).countMaSwitches src.die src.pos).switchMa src.die src.pos)
  | .node =>
    let n := s.node (nodeKey src.die src.pos)
    if n.colour ≠ colour then .next s
    else if nodeKind n.active = .unorderedConf then .next (s.switchNode src.die src.pos)
    else .next (((s.sendSwitch src n.load colour).getD s).switchNode src.die src.pos)

/-! ## ELEMENT_SWITCH (R339) -/

/-- The colour that an element switches for: its own, or that of its plot where it has no active bank. -/
def State.switchColour (s : State) (k : Nat) : Nat :=
  let e := s.elem k
  if e.configured then e.colour else ((s.plot (k / 6400 * 400 + k % 6400 / 16)).colour).getD 0

/-- Whether the element may switch: its inputs have counted their switch tokens and its actors have ended, its matrix
queue is empty and its pushes are written (08 R255, 09 R281); one without an old bank has only the last to wait for. -/
def State.mayElementSwitch (s : State) (k : Nat) : Bool :=
  let e := s.elem k
  e.armed && s.armedAt (k / 6400) (s.switchColour k) && e.cut = .open && unitsQuiet e &&
    (!e.configured ||
      (bankEnded e &&
        (List.range 8).all fun i => portMode e i = .unbound || s.portProducers k i ≤ nth e.portSwitch.toList i 0))

/-- Whether a copy of n bytes from a staging-area offset meets an uncorrectable granule. -/
def State.copyBad (s : State) (d off n : Nat) : Bool :=
  let pa := s.control d off
  s.bad.any fun g => pa < 8 * g + 8 && 8 * g < pa + n

/-- Bytes of the staging area. -/
def State.stagedBytes (s : State) (d off n : Nat) : List Byte := Memory.readBytes s.phys (s.control d off) n

/-- The copies of the staged bank's element data (14 R379): the element, and whether one met an error. -/
def State.copyStaged (s : State) (k : Nat) (e : Element) : Element × Bool :=
  let d := k / 6400
  let img := e.imgDesc
  let e1 := match img with
    | some (off, n) => cfgMemory constEnd (s.stagedBytes d off n) e
    | none => e
  let e2 := match e.constDesc with
    | some off => { e1 with mem := Memory.writeBytes e1.mem 0 (s.stagedBytes d off 960) }
    | none => e1
  let bad := (match img with
      | some (off, n) => s.copyBad d off n
      | none => false) ||
    (match e.constDesc with
      | some off => s.copyBad d off 960
      | none => false)
  (e2, bad)

/-- The element's bank after the switch: the staged one, or none where it has no valid slot. Its constants are copied either
way (07 R220). -/
def State.takeStaged (s : State) (k load : Nat) : State :=
  let e := { s.elem k with colour := s.switchColour k }
  let r := s.copyStaged k e
  let bank := if validSlots e.staged = [] then unconfigure r.1
    else activate { r.1 with active := e.staged, staged := invalidBlock e.staged } e.colour load
  let e' := { bank with armed := false, imgDesc := none, constDesc := none, copyFault := r.2 }
  if r.2 then
    ((s.countUe (k / 6400)).setElem k e').report (k / 6400) e.colour load .nothing
      cHbm .element (k % 6400) 0 0 (noDetail cHbm)
  else s.setElem k e'

/-- The switch: the staged bank becomes active, then switch tokens leave on each output of the old bank that has sent
EOS and none yet. -/
def execElementSwitch (die pos : Nat) (s : State) : Out :=
  let k := elemKey die pos
  let e := s.elem k
  if s.mayElementSwitch k then
    let s := s.takeStaged k (s.staging die (s.switchColour k)).load
    if !e.configured then
      let x := s.elem k
      .next (s.setElem k { x with cut := if (s.staging die x.colour).weir then .closed else .open })
    else
    let s := (List.range 16).foldl (fun t o => (t.sendSwitch (elemSource k o) e.load e.colour).getD t) s
    let s := s.dropChans e.colour e.load fun x => x.die = die && x.kind = .element && x.pos = pos
    .next (s.retireEnds e.colour e.load)
  else .next s

/-! ## DRAINED_NOTICE (R340) -/

/-- The key under which a memory actor of a cut colour is kept; the layout of what is saved of it is not given (L18). -/
def savedMa (colour key : Nat) : Nat := 4096 * (colour + 1) + key

/-- Slots of a colour on a die that a switch has brought in and no notice has released. -/
def State.waitingSlots (s : State) (d colour : Nat) : List Nat :=
  (s.colourSlots d colour).filter fun n => (s.ma (maKey d n)).st = .running && !(s.ma (maKey d n)).drained

/-- Whether every memory actor of the old load in the region has ended with nothing outstanding. -/
def State.drainedAll (s : State) (l : Launch) (next : Nat) : Bool :=
  l.dies.all fun d => (s.colourSlots d l.colour).all fun n =>
    let m := s.ma (maKey d n)
    let x := if m.saved then (tabGet s.mas (savedMa l.colour (maKey d n))).getD m else m
    (x.st = .unconfigured && !x.saved) || x.load = next || (x.st = .ended && outstanding x = 0)

/-- The load that waits for a notice on a die. -/
def State.noticeLoad (s : State) (d colour : Nat) : Option Nat :=
  match s.waitingSlots d colour with
  | n :: _ => some (s.ma (maKey d n)).load
  | [] => if s.armedAt d colour then some (s.staging d colour).load else none

/-- Whether a packet is the drained notice of a colour for a die. -/
def isNotice (die colour : Nat) (p : Packet) : Bool := p.cargo = .drained die colour

/-- What a drained notice does as it arrives: event 7, and the slots of the next load may issue; a pattern actor without a
start input runs its pattern. -/
def State.takeNotice (s : State) (die colour next : Nat) : State :=
  let s : State := { s with packets := s.packets.filter fun p => !isNotice die colour p }
  let t := (s.waitingSlots die colour).foldl (fun t n => t.runMa die n) s
  let g := t.staging die colour
  (t.setStaging die colour { g with drained := insertNat g.drained next }).latch die 7

/-- Once every memory actor of the old load has drained, outside a cut, the notice for a die leaves on class 0 from the
launch's first die; when it has arrived it takes effect. -/
def execDrainedNotice (die colour : Nat) (s : State) : Out :=
  match s.launch colour, s.noticeLoad die colour with
  | some l, some next =>
    match s.packets.find? (isNotice die colour) with
    | some p => if p.atTarget then .next (s.takeNotice die colour next) else .next s
    | none =>
      let waits := !(s.staging die colour).drained.contains next || s.waitingSlots die colour ≠ []
      if s.drainedAll l next && waits && !(l.dies.any fun d => (s.staging d colour).weir) &&
          s.firmwareRuns (l.dies.headD l.die0) then
        .next (s.manage 0 (.drained die colour) (s.attach (l.dies.headD l.die0)) (s.attach die))
      else .next s
  | _, _ => .next s

/-! ## LOAD_COMPLETE (R341, 15 R403) -/

/-- Whether every actor but the consumer of the fault channel has ended, and every memory actor. -/
def State.othersEnded (s : State) (l : Launch) (b : Bind) : Bool :=
  l.dies.all fun d => s.masEnded d l.colour l.load && (s.activeElems d l.colour l.load).all fun p =>
    let e := s.elem (elemKey d p)
    (validSlots e.active).all fun n =>
      nth e.ends.toList n .active = .ended ||
        b.dests.any fun y => y.die = d && y.kind = .element && y.pos = p && portSlot e y.din = n

/-- EOS into the fault channel, when it is due. -/
def State.closeFaultChannel (s : State) (l : Launch) : Option State :=
  match s.faultChannel l.colour l.load with
  | none => none
  | some b =>
    if !b.closed && s.othersEnded l b && !(s.levee.any fun x => x.colour = l.colour && x.load = l.load && x.toChannel) then
      s.tryEmit b.source l.load (eosToken l.colour)
    else none

/-- The load that follows (R336); the outer none says that the launch ends with status 3. -/
def nextLoad (l : Launch) (nloads : Nat) : Option (Option Nat) :=
  match l.select with
  | .default => some (if loadNumber l.load + 1 < nloads then some (loadNumber l.load + 1) else none)
  | .next k => some (some k)
  | .none => some none
  | .bad => none

/-- The key of a load that follows in a launch. -/
def nextKey (l : Launch) (n : Nat) : Nat := loadNumber n + 64 * (1 - loadBank l.load)

/-- Whether the switch into a load, by its key, has begun. -/
def State.switching (s : State) (l : Launch) (n : Nat) : Bool :=
  l.dies.any fun d => (s.armedAt d l.colour && (s.staging d l.colour).load = n) || s.activeElems d l.colour n ≠ []

/-- A launch goes on to a load, by its key. -/
def State.goOn (s : State) (l : Launch) (n : Nat) : State :=
  let key := l.dies.headD l.die0 * 16 + 15
  (s.setOut key { s.out key with selected := none }).mapLaunch l.colour fun l =>
    { l with load := n, select := .default, plan := l.nextPlan, absent := false }

/-- Whether a fault of a colour that holds nothing is in force: until its launch is aborted (15 R400). -/
def State.faultInForce (s : State) (colour : Nat) : Bool :=
  (s.levee.any fun x => x.colour = colour && !x.past && recHolds x.record = 0) ||
    s.hw.faultsOpen.any fun x => x.colour = colour && !x.past && recHolds x.record = 0

/-- A complete load: the launch goes on to its successor, or ends unless a fault in force holds it open. -/
def State.endLoad (s : State) (l : Launch) : State :=
  match nextLoad l (imgLoads (s.imageOf l.colour)) with
  | none => if s.faultInForce l.colour then s else s.mapLaunch l.colour (finishing 3 (0, 0))
  | some none => if s.faultInForce l.colour then s else s.mapLaunch l.colour (finishing 0 (0, 0))
  | some (some n) => if s.switching l (nextKey l n) then s.goOn l (nextKey l n) else s

/-- The load, by its key, that an element of a launch has switched into ahead of it. -/
def State.switchedIn (s : State) (l : Launch) : Option Nat :=
  (s.elems.find? fun x =>
    l.dies.contains (x.1 / 6400) && x.2.configured && x.2.colour = l.colour && x.2.load ≠ l.load).map (·.2.load)

/-- The end of a load. One that LOAD.ABORT has made absent is not complete, and the launch goes on to the load that its elements
have switched into, if they have. -/
def execLoadComplete (colour : Nat) (s : State) : Out :=
  match s.launch colour with
  | none => .next s
  | some l =>
    if l.st ≠ .active || !s.loaderRuns then .next s
    else if l.absent then .next (((s.switchedIn l).map (s.goOn l)).getD s)
    else
      match s.closeFaultChannel l with
      | some t => .next t
      | none => if s.loadDone l then .next (s.endLoad l) else .next s

/-! ## COMPLETION_MESSAGE (R342; 12 R323, R324) -/

/-- The body of the completion message. -/
def completionBody (l : Launch) : Rec :=
  { w0 := l.detail.1, w1 := l.detail.2
    w2 := BitVec.ofNat 64 (l.colour * 2 ^ 60 + l.load % 64 * 2 ^ 54 + l.status % 256 * 2 ^ 40)
    w3 := BitVec.ofNat 64 (l.lid.toNat * 2 ^ 32 + l.gen) }

/-- The outfall that sends it: of region die cdie, or, where no region was granted, of the die whose headgate has woken the
loader (R341). -/
def completionOutfall (l : Launch) : Nat := nth l.dies l.cdie (l.woke.getD l.die0) * 16 + l.cof

/-- Whether every token of a colour has left its outfalls. -/
def State.outfallsEmpty (s : State) (colour : Nat) : Bool :=
  (s.chans.filter fun c => c.colour = colour && c.dest.kind = .outfall).all Chan.empty

/-- A launch's hold on its generation is removed. -/
def State.dropHold (s : State) (l : Launch) : State := (s.mapGen l.image l.gen (· - 1)).unloadOld

/-- What a colour holds on a die is given back. -/
def State.clearColour (s : State) (d : Nat) (l : Launch) : State :=
  let s := ((s.abortLoad d l.colour (s.staging d l.colour).load).abortLoad d l.colour l.load).freeRegion d l.colour
  (List.range 16).foldl (fun t n =>
    if (t.pool (d * 16 + n)).colour = l.colour then t.setPool (d * 16 + n) Pool.reset else t) s

/-- Every endpoint of a colour, gone. -/
def State.dropColour (s : State) (colour : Nat) : State :=
  { s with
    binds := s.binds.filter fun b => b.colour ≠ colour
    chans := s.chans.filter fun c => c.colour ≠ colour
    depths := s.depths.filter fun x => x.colour ≠ colour }

/-- The faults of a colour whose launch ends: those told are gone, the others are in force no longer (15 R400). -/
def State.endFaults (s : State) (colour : Nat) : State :=
  { s with
    levee := s.levee.map fun x => if x.colour = colour then { x with past := true } else x
    hw := { s.hw with
      faultsOpen := (s.hw.faultsOpen.filter fun x => x.colour ≠ colour || !(x.told || x.channel)).map fun x =>
        if x.colour = colour then { x with past := true } else x } }

/-- The saves of a colour, discarded. -/
def State.dropSaves (s : State) (colour : Nat) : State :=
  { s with
    mas := s.mas.filter fun x => x.1 / 4096 ≠ colour + 1
    nodes := s.nodes.filter fun x => x.1 / 102400 ≠ colour + 1
    heads := s.heads.filter fun x => x.1 / 1024 ≠ colour + 1
    outs := s.outs.filter fun x => x.1 / 1024 ≠ colour + 1
    elems := (s.elems.filter fun x => x.1 / 409600 ≠ colour + 1).map fun x =>
      if x.2.cut = .saved && x.2.colour = colour then (x.1, { unconfigure x.2 with cut := .open }) else x }

/-- The end of a launch whose message its outfall sends. -/
def State.closeLaunch (s : State) (l : Launch) : State :=
  let s := s.idleGates l.colour
  let s := l.dies.foldl (fun t d => t.clearColour d l) (s.dropSaves l.colour)
  let s := ((List.range 1024).filter fun n => (s.head n).colour = some l.colour).foldl
    (fun t n => t.setHead n { t.head n with colour := none }) s
  let o := s.out (completionOutfall l)
  let s := s.setOut (completionOutfall l) { o with message := some (completionBody l) }
  let s := s.endFaults l.colour
  ((s.dropColour l.colour).dropHold l).mapLaunch l.colour fun l => { l with st := .ended }

/-- The end of a launch: a load that still stands after a configuration fetch fault is aborted first (R337, R408), then the
message leaves. -/
def execCompletionMessage (colour : Nat) (s : State) : Out :=
  match s.launch colour with
  | none => .next s
  | some l =>
    let quiet := if l.status = 2 then s.inFlight colour = 0 else s.outfallsEmpty colour
    if l.st = .finishing && l.status = 2 && s.loadStands l then .next (s.abortLoads l)
    else if l.st = .finishing && quiet && (s.out (completionOutfall l)).message.isNone then .next (s.closeLaunch l)
    else .next s

end Sys2Proof.Machine
end

