-- ==== Sys2Proof/Machine/Save.lean ====
section
/-! DEFINITION. Pre-emption (15 R419 to R429): freezing, the save areas of elements (Table 15-5), memory actors and nodes,
the end of a cut. -/

namespace Sys2Proof.Machine

/-! ## ELEMENT_FREEZE (R421) -/

/-- A weir behind the last commit on every bound output of an element, if all have the credit (13 R350); none on an output whose
switch token has left (R429). -/
def State.weirElement (s : State) (k : Nat) : Option State :=
  let e := s.elem k
  s.tryEmits (markerToken .weir e.colour)
    (((List.range 16).filter fun o => outBound e o && !(s.outputSwitched (elemSource k o) e.colour e.load)).map fun o =>
      (elemSource k o, e.load))

/-- A closed element without a firing freezes as its weirs leave; it waits for their credits (L49). -/
def execElementFreeze (die pos : Nat) (s : State) : Out :=
  let k := elemKey die pos
  let e := s.elem k
  if e.configured && e.cut = .closed && e.fir.status = .idle then
    match s.weirElement k with
    | some t => .next (t.setElem k { t.elem k with cut := .frozen })
    | none => .next s
  else .next s

/-! ## Codes of the save area (Table 15-5) -/

/-- States of an end. A code that Table 15-5 reserves is read as one that it does not: chapter 15 gives an area with it no fate
(L79). -/
def endCode : EndState → Nat
  | .active => 0
  | .ending => 1
  | .ready _ | .parked _ _ => 2
  | .faulted => 3
  | .ended => 4
def endOf (n : Nat) (retry : Bool) : EndState :=
  match n with
  | 1 => .ending
  | 2 => .ready retry
  | 3 => .faulted
  | 4 => .ended
  | _ => .active

/-- States of an entry; none runs at a save (L79 of a reserved code). -/
def entryCode : EntryState → Nat
  | .part => 0
  | .ready => 1
  | .queued => 2
  | .parked => 3
  | .faulted => 4
  | .running => 1
def entryOf (n : Nat) : EntryState :=
  match n with
  | 1 => .ready
  | 2 => .queued
  | 3 => .parked
  | 4 => .faulted
  | _ => .part

/-- States of a generator (L79 of a reserved code). -/
def genCode : GenState → Nat
  | .idle => 0
  | .read => 1
  | .write => 2
  | .drain => 3
  | .error => 4
def genOf (n : Nat) : GenState :=
  match n with
  | 1 => .read
  | 2 => .write
  | 3 => .drain
  | 4 => .error
  | _ => .idle

/-- Bindings of a stream register. -/
def qCode : QBind → Nat
  | .unbound => 0
  | .gen g => 0x10 + g.val
  | .inPort i => 0x20 + i.toNat
  | .outPort o => 0x30 + o.toNat
def qOf (n : Nat) : QBind :=
  match n / 16 with
  | 1 => .gen (Fin.ofNat 3 n)
  | 2 => .inPort (BitVec.ofNat 3 n)
  | 3 => .outPort (BitVec.ofNat 4 n)
  | _ => .unbound

/-! ## What an area holds: (offset, value, bytes) -/

/-- One field of an area. -/
abbrev Fields := List (Nat × Nat × Nat)

/-- A flag as a number. -/
def flag (b : Bool) : Nat := if b then 1 else 0

/-- Bit n of a mask from a predicate on numbers below 64. -/
def maskOf (n : Nat) (p : Nat → Bool) : Nat := ((List.range n).map fun i => if p i then 2 ^ i else 0).sum

/-- The mark of a save area. -/
def saveMagic : Nat := 0x57454952

/-- Bytes 0x0000 to 0x043F. The run queue's empty places are 0xFF. -/
def headerFields (e : Element) (staged : Nat) : Fields :=
  [(0, saveMagic, 4), (4, e.colour, 1), (5, loadBank e.load, 1), (6, loadNumber e.load, 1), (7, staged, 1),
   (8, e.dirty.length, 4), (12, flag e.armed, 1)] ++
    ((List.range 16).map fun i => (16 + i, nth e.runq i 0xFF, 1)) ++
    [(32, ((List.range 8).map fun n => endCode (nth e.ends.toList n .active) * 8 ^ n).sum, 3),
     (0x40, Memory.read e.active 0 512, 512), (0x240, Memory.read e.staged 0 512, 512)]

/-- A matching entry. -/
def entryFields (e : Element) (i : Nat) : Fields :=
  let o := 0x440 + 48 * i
  match tabGet e.store i with
  | none => [(o + 38, 0xFF, 1)]
  | some en =>
    ((List.range 4).map fun n => (o + 8 * n, (nth en.payloads.toList n 0).toNat, 8)) ++
      [(o + 32, en.tag.toNat, 4), (o + 36, en.slot, 1), (o + 37, en.present.toNat, 1), (o + 38, entryCode en.st, 1),
       (o + 39, flag en.arm, 1),
       (o + 40, ((List.range 4).map fun n =>
          let l := (nth en.levels.toList n 0).toNat
          (if l = 0 then 0 else 8 + l) * 16 ^ n).sum, 2),
       (o + 44, en.defcnt, 4)]

/-- Port queues, windows, accumulators, tiles, sequence numbers and the dirty bitmap. The bits of a window entry and the
places of a generator's fields are this model's (L18). -/
def portFields (e : Element) : Fields :=
  (List.range 8).flatMap fun i => (List.range 4).map fun j =>
    (0x1040 + 64 * i + 16 * j, (((portQueue e i)[j]?).map tokenNat).getD 0, 16)
def winFields (e : Element) : Fields :=
  (List.range 8).flatMap fun a => (List.range 16).map fun j =>
    let o := 0x1240 + 192 * a + 12 * j
    match tabGet e.wins (winKey a j) with
    | none => (o, 0, 12)
    | some w => (o, w.ctx.toNat + w.n.toNat * 2 ^ 14 + w.o.toNat * 2 ^ 32 + flag w.final * 2 ^ 50 + 2 ^ 51, 12)
def genFields (e : Element) (g : Fin 3) : Fields :=
  let o := 0x1840 + 80 * g.val
  let x := e.gens[g]
  [(o, x.base.toNat, 8)] ++ ((List.range 4).map fun i => (o + 8 + 4 * i, nth x.cnt.toList i 0, 4)) ++
    ((List.range 4).map fun i => (o + 24 + 4 * i, (BitVec.ofInt 32 (nth x.str.toList i 0)).toNat, 4)) ++
    [(o + 40, x.drain.toNat, 2), (o + 42, genCode x.st, 1), (o + 43, flag x.ahead + 2 * flag x.stopping, 1),
     (o + 44, (BitVec.ofInt 64 x.org).toNat, 8), (o + 52, x.popped, 8), (o + 60, x.pushed, 8), (o + 68, x.t, 2),
     (o + 70, x.f, 2), (o + 72, x.left, 4), (o + 76, if x.ahead then x.held.length else 0, 1)] ++
    (if x.ahead then (List.range 32).map fun j => (0x1E20 + 128 * g.val + 4 * j, (nth x.held j 0).toNat, 4) else [])
def unitFields (e : Element) : Fields :=
  ((List.finRange 3).map fun q => (0x1840 + 240 + q.val, qCode e.q[q], 1)) ++
    ((List.range 256).map fun i => (0x1940 + 4 * i, (nth e.acc.toList i 0).toNat, 4)) ++
    [(0x1D40, maskOf 16 fun n => nth e.tiles.toList n .empty = .full, 2),
     (0x1D42, maskOf 16 fun n => nth e.tiles.toList n .empty = .filling, 2),
     (0x1D50, bytesToNat ((e.mprog.getD []).take 16), 16)]
def seqFields (s : State) (k : Nat) : Fields :=
  let e := s.elem k
  ((List.range 8).map fun i =>
    (0x1D60 + 4 * i, ((s.chanAt (elemDest k i) e.colour (some e.load)).map fun c => c.next.toNat).getD 0, 4)) ++
  ((List.range 16).map fun o => (0x1D80 + 4 * o, ((s.srcBind (elemSource k o) e.colour e.load).map fun b => b.seq.toNat).getD 0, 4))
def lineFields (e : Element) : Fields :=
  (0x1DC0, (e.dirty.map fun l => 2 ^ l).sum, 96) ::
    (List.zipIdx e.dirty).map fun x => (0x2000 + 64 * x.2, Memory.read e.mem (constEnd + 64 * x.1) 64, 64)

/-- The new number of a place once the entries are numbered by age; an end firing keeps its own. -/
def agedPlace (order : List Nat) (p : Nat) : Nat := if p < 64 then order.idxOf p else p

/-- An element with its entries numbered by age: the order of a save area. -/
def byAges (e : Element) : Element :=
  let order := byAge e
  { e with
    store := (List.zipIdx order).filterMap fun x => (tabGet e.store x.1).map fun en => (x.2, { en with age := x.2 })
    births := order.length, ready := e.ready.map (agedPlace order), runq := e.runq.map (agedPlace order) }

/-- Bytes of one save area. -/
def areaSize : Nat := 65536

/-- The area of element k. -/
def State.saveFields (s : State) (k : Nat) : Fields :=
  let e := byAges (s.elem k)
  let g := s.staging (k / 6400) e.colour
  headerFields e (if (g.isOpen || g.closed) && validSlots e.staged ≠ [] then loadNumber g.load else 0xFF) ++ ((List.range 64).flatMap (entryFields e)) ++
    portFields e ++ winFields e ++ ((List.finRange 3).flatMap (genFields e)) ++ unitFields e ++ seqFields s k ++
    lineFields e

/-- Fields written to a memory that is zero. -/
def fieldsMem (l : Fields) : Mem := l.foldl (fun m x => Memory.write m x.1 x.2.1 x.2.2) []

/-- An area written to physical memory, whole. -/
def State.writeArea (s : State) (pa : Nat) (m : Mem) : State := s.physWrite pa (Memory.readBytes m 0 areaSize)

/-! ## Saving -/

/-- The offset of a target's area. -/
def elemArea (off pos : Nat) : Nat := off + areaSize * pos
def maArea (off slot : Nat) : Nat := off + areaSize * (6400 + slot)

/-- The newest token of a flume queue saved ahead of the spilled ones, or the oldest behind them saved last. -/
def Chan.saveNext (c : Chan) (pa : Nat) : Chan :=
  if c.queue = [] then { c with spilled := c.spilled ++ [pa], rear := c.rear.tail }
  else { c with spilled := pa :: c.spilled, queue := c.queue.dropLast }

/-- Where a saved token goes: a free place of its channel's area, or, where spilled tokens fill that, of the die's last area, which
runs to the end of the spillway (R424) (L36). -/
def State.savePlace (s : State) (x : Depth) : Option Nat :=
  let last := (s.depths.filter fun y => y.die = x.die).foldl (fun a y => if a.offset < y.offset then y else a) x
  s.spillPlace x (s.areaBytes x / tokenSize) <|> s.spillPlace last (s.areaBytes last / tokenSize)

/-- Up to n tokens of a flume queue written to the channel's spillway area (R424). -/
def State.saveQueue (s : State) (d : Dest) (colour : Nat) (load : Option Nat) : Nat → State
  | 0 => s
  | n + 1 =>
    match s.chanAt d colour load with
    | none => s
    | some c =>
      match s.savePlace (s.depthOf d.die colour c.chan load), c.queue.getLast?.or c.rear.head? with
      | some off, some t =>
        let pa := s.spillAddr d.die off
        ((s.spillWrite pa t).mapChan d colour load (·.saveNext pa)).saveQueue d colour load n
      | _, _ => s

/-- Tokens of flume queues saved to the channels' spillway areas (R424). -/
def State.spillAll (s : State) (colour : Nat) (p : Dest → Bool) : State :=
  (s.chans.filter fun c => c.colour = colour && p c.dest).foldl
    (fun t c => t.saveQueue c.dest colour c.load (c.queue.length + c.rear.length)) s

/-- Whether the channels of an input, in the loads of either bank, have counted their weirs. -/
def State.inputWeired (s : State) (d : Dest) (colour : Nat) : Bool :=
  s.chans.all fun c => !(c.dest = d && c.colour = colour && c.load.isSome) || s.weirsCounted c

/-- The keys of what is kept of saved elements and nodes of a colour: of an element what Table 15-5 gives no place; of nodes
all, since it gives them none (L18). -/
def savedElem (colour key : Nat) : Nat := 409600 * (colour + 1) + key
def savedNode (colour key : Nat) : Nat := 102400 * (colour + 1) + key

/-- Configured nodes of a plot. -/
def State.plotNodes (s : State) (d plot colour : Nat) : List Nat :=
  ((List.range 4).map (4 * plot + ·)).filter fun n =>
    let x := s.node (nodeKey d n)
    x.configured && !x.saved && x.colour = colour

/-- Whether a position is the lowest live one of its plot: the nodes of the plot are saved with it (R423). -/
def State.lowestOfPlot (s : State) (d pos : Nat) : Bool :=
  (((List.range 16).map (pos / 16 * 16 + ·)).find? (s.liveElem d)) = some pos

/-- Whether a node is at its weir. -/
def State.nodeAtWeir (s : State) (d n : Nat) : Bool :=
  let x := s.node (nodeKey d n)
  if nodeKind x.active = .unorderedConf then
    s.nodeWeirs d n && (s.nodeInputs d n).all fun i => (s.nodeHead d n i).isNone
  else x.weired

/-- Whether an element may be saved. -/
def State.maySave (s : State) (d pos : Nat) : Bool :=
  let k := elemKey d pos
  let e := s.elem k
  e.configured && e.cut = .frozen && e.mq = [] && (e.gens.toList.all fun g => g.waiting = []) &&
    ((List.range 8).all fun i => s.inputWeired (elemDest k i) e.colour) &&
    (!s.lowestOfPlot d pos || (s.plotNodes d (pos / 16) e.colour).all (s.nodeAtWeir d))

/-- A node saved. -/
def State.saveNode (s : State) (d colour n : Nat) : State :=
  let x := s.node (nodeKey d n)
  let s := s.setNode (savedNode colour (nodeKey d n)) { x with saved := true }
  (s.setNode (nodeKey d n) { Node.reset with colour := colour, load := x.load, saved := true }).spillAll colour
    fun y => y.die = d && y.kind = .node && y.pos = n

/-- An element after its save: unconfigured; what R428 and the next STATE.LOAD may still ask of it is kept, and a fault that waits
for the next firing dispatched there (09 R280). -/
def savedElement (e : Element) : Element :=
  { Element.reset with
    mem := e.mem, active := e.active, staged := e.staged, imgDesc := e.imgDesc, constDesc := e.constDesc
    colour := e.colour, load := e.load, ends := e.ends, portEos := e.portEos, pend := e.pend, cut := .saved }

/-- The EOS and switch tokens that the ports of an element have counted, kept with their channels. -/
def State.keepCounts (s : State) (k : Nat) : State :=
  let e := s.elem k
  (List.range 8).foldl (fun t i => t.mapChan (elemDest k i) e.colour (some e.load) fun c =>
    { c with eos := nth e.portEos.toList i 0, switches := nth e.portSwitch.toList i 0 }) s

/-- Saving an element. -/
def State.saveElement (s : State) (d off pos : Nat) : State :=
  let k := elemKey d pos
  let e := s.elem k
  let s := if s.lowestOfPlot d pos then (s.plotNodes d (pos / 16) e.colour).foldl (fun t n => t.saveNode d e.colour n) s else s
  let s := (s.writeArea (s.control d (elemArea off pos)) (fieldsMem (s.saveFields k))).keepCounts k
  let s := s.setElem (savedElem e.colour k) { byAges e with configured := false, pend := none, cut := .saved }
  (s.setElem k (savedElement e)).spillAll e.colour fun y => y.die = d && y.kind = .element && y.pos = pos

/-! ## Memory actors (R426) -/

/-- Codes of a stall, 0 for none; the layout of a memory actor's area is this model's (L18). -/
def stallCode : StallKind → Nat
  | .request => 1
  | .memory _ => 2
  | .surplusUnit => 3
  | .missingUnit => 4
  | .badUnit => 5
  | .afterEnded => 6
def stallOf (n index : Nat) : Option StallKind :=
  match n with
  | 1 => some .request
  | 2 => some (.memory index)
  | 3 => some .surplusUnit
  | 4 => some .missingUnit
  | 5 => some .badUnit
  | 6 => some .afterEnded
  | _ => none

/-- Codes of a slot's state. -/
def maCode : MaState → Nat
  | .unconfigured | .configured => 0
  | .running => 1
  | .halted => 2
  | .stalled => 3
  | .ended => 4
def maStateOf (n : Nat) : MaState :=
  match n with
  | 1 => .running
  | 2 => .halted
  | 3 => .stalled
  | 4 => .ended
  | _ => .configured

/-- The area of a memory actor: its MA.SET block, next request index, open completion segment, after tokens consumed, its stall
with the seq of its record; and the mark of a save, with colour, bank, load and state. -/
def maFields (m : MemActor) : Fields :=
  [(0, Memory.read m.active 0 64, 64), (64, issuedCount m, 8), (72, (openSeg m).units, 8), (80, m.after, 8), (112, saveMagic, 4),
   (116, m.colour, 1), (117, loadBank m.load, 1), (118, loadNumber m.load, 1), (119, maCode m.st, 1)] ++
    match m.stall with
    | none => []
    | some x =>
      [(88, stallCode x.kind, 1), (89, x.code, 1), (90, flag x.halted, 1), (92, x.seq, 4), (96, x.tag.toNat, 4),
       (104, x.index, 8)]

/-- The bits of an MA.SET block that Table 14-9 does not reserve, by byte: len has 49, off 48 and control 22 of them. -/
def maMask (i : Nat) : Byte :=
  if i = 14 then 1 else if i = 58 then 0x3F else if i = 15 || i = 22 || i = 23 || 59 ≤ i then 0 else 0xFF

/-- The MA.SET block of an area: a reserved bit reads as zero (00 R3), and a reserved code is taken as maCfg reads it (L79). -/
def areaBlock (a : Mem) : Mem :=
  Memory.writeBytes [] 0 ((List.zipIdx (Memory.readBytes a 0 64)).map fun x => x.1 &&& maMask x.2)

/-- A memory actor of which only its area is left: its run, where it has no start input, stands at the next request. -/
def maOfNothing (a : Mem) (started : Bool) : MemActor :=
  let n (o k : Nat) : Nat := Memory.read a o k
  let m := { MemActor.reset with
    active := areaBlock a, colour := n 116 1, load := loadNumber (n 118 1) + 64 * (n 117 1 % 2)
    st := maStateOf (n 119 1), drained := true }
  let auto := !(maCfg m.active).index && !started
  { m with ran := auto, run := if auto && n 64 8 < runTotal (maCfg m.active) then some (0, 0, n 64 8) else none }

/-- A saved memory actor with what its area holds (L18); a reserved code is read as one that is not (L79). -/
def maOfArea (a : Mem) (m : MemActor) : MemActor :=
  let n (o k : Nat) : Nat := Memory.read a o k
  let index := match m.stall with
    | some { kind := .memory i, .. } => i
    | _ => n 104 8
  { putSeg m { openSeg m with units := n 72 8 } with
    active := areaBlock a, nextIdx := n 64 8 + (if m.cur.isSome then 1 else 0), after := n 80 8
    st := maStateOf (n 119 1)
    stall := (stallOf (n 88 1) index).map fun k =>
      { kind := k, code := n 89 1, seq := n 92 4, tag := BitVec.ofNat 32 (n 96 4), index := n 104 8, halted := n 90 1 = 1 } }

/-- Whether a memory actor may be saved. -/
def State.maySaveMa (s : State) (d slot : Nat) : Bool :=
  let m := s.ma (maKey d slot)
  m.st ≠ .unconfigured && !m.saved && m.weir = .sent &&
    (List.range 5).all fun i => s.inputWeired (maDest d slot i) m.colour

/-- Saving a memory actor: its area, and what the area holds no place for under its colour (L18). The micro-TLB is not
saved. -/
def State.saveMa (s : State) (d off slot : Nat) : State :=
  let m := s.ma (maKey d slot)
  let s := s.writeArea (s.control d (maArea off slot)) (fieldsMem (maFields m))
  let s := s.setMa (savedMa m.colour (maKey d slot)) { m with saved := true, tlb := [] }
  (s.setMa (maKey d slot) { MemActor.reset with colour := m.colour, load := m.load, saved := true }).spillAll m.colour
    fun y => y.die = d && y.kind = .memActor && y.pos = slot

/-! ## Headgates (R424) -/

/-- Whether the flume queues that a token of a headgate goes to can take it into their spillway areas: everything that left
the headgate before it is there. -/
def State.holdsRoom (s : State) (b : Bind) (t : Token) : Bool :=
  (b.weired || b.switched) && (pickDests b t).all fun d =>
    match s.chanAt d b.colour b.load with
    | none => false
    | some c =>
      c.rear = [] && c.early = [] && s.underWay d b.colour b.load = 0 &&
        (s.savePlace (s.depthOf d.die b.colour c.chan b.load)).isSome

/-- A token that a headgate holds, saved behind those of a channel's flume queue; it takes no sequence number. -/
def State.saveHeld (s : State) (b : Bind) (t : Token) : State :=
  let s := (pickDests b t).foldl (fun u d =>
    match u.savePlace (u.depthOf d.die b.colour b.chan b.load) with
    | none => u
    | some off =>
      let pa := u.spillAddr d.die off
      (u.spillWrite pa t).mapChan d b.colour b.load fun c => { c with spilled := c.spilled ++ [pa] }) s
  s.mapBind b.source b.colour (b.load.getD 0) fun x => { sentOn x t with seq := x.seq }

/-- The tokens of a headgate saved, as far as there is room for them. -/
def State.saveGate (s : State) (colour key : Nat) : List Token → State
  | [] => s
  | t :: rest =>
    match s.srcBind (headSource key) colour (s.sourceLoad (headSource key) colour) with
    | none => s
    | some b =>
      if strayStop b t then (s.setHead key { s.head key with held := rest }).saveGate colour key rest
      else if s.holdsRoom b t then
        ((s.saveHeld b t).setHead key { s.head key with held := rest }).saveGate colour key rest
      else s

/-- The headgates of a colour on a die, in a cut. -/
def State.saveGates (s : State) (d colour : Nat) : State :=
  (s.gatesOf d colour).foldl (fun t n =>
    if (t.staging d colour).weir then (t.payWeir d colour n).saveGate colour (d * 16 + n) (t.head (d * 16 + n)).held else t) s

/-- Whether a consumer takes tokens from its flume queue in a cut before it is saved: an unordered confluence forwards what
arrives, weirs included (R423), and a firing that still runs may read its stream ports. -/
def State.takesInCut (s : State) (y : Dest) : Bool :=
  match y.kind with
  | .node => let n := s.node (nodeKey y.die y.pos); nodeLive n && nodeKind n.active = .unorderedConf
  | .element => (s.elem (elemKey y.die y.pos)).fir.status ≠ .idle
  | .memActor | .outfall => false

/-- The flume-queue tokens of a colour on a die, written to their channels' spillway areas at a save in a cut (R424): their
credits are free again. -/
def State.spillDie (s : State) (d colour : Nat) : State :=
  if (s.staging d colour).weir then
    s.spillAll colour fun y => y.die = d && y.kind ≠ .outfall && !s.takesInCut y
  else s

/-- Configured elements of a colour on a die that a command names, and slots. -/
def State.saveElems (s : State) (d : Nat) (c : Cmd) : Targets :=
  match s.elemTargets d c with
  | .bad n => .bad n
  | .places ps =>
    if c.tgt = allTargets then .places (ps.filter fun p => (s.elem (elemKey d p)).configured)
    else if (s.elem (elemKey d c.tgt)).configured then .places ps else .bad 3
def State.saveSlots (s : State) (d : Nat) (c : Cmd) : Targets :=
  match s.slotTargets d c with
  | .bad n => .bad n
  | .places ns =>
    if c.tgt = allTargets then
      .places (ns.filter fun n => (s.ma (maKey d n)).st ≠ .unconfigured && !(s.ma (maKey d n)).saved)
    else if (s.ma (maKey d c.tgt)).st ≠ .unconfigured then .places ns else .bad 3

/-- Nodes of a colour on a die whose plot's lowest live element has no active bank: they are saved with that position all
the same (R423). -/
def State.loneNodes (s : State) (d colour : Nat) : List Nat :=
  (s.regionPlots d colour).flatMap fun p =>
    match ((List.range 16).map (16 * p + ·)).find? (s.liveElem d) with
    | some pos => if (s.elem (elemKey d pos)).configured then [] else s.plotNodes d p colour
    | none => s.plotNodes d p colour

/-- Saving those of them that are at their weir. -/
def State.saveLone (s : State) (d colour : Nat) : State :=
  (s.loneNodes d colour).foldl (fun t n => if t.nodeAtWeir d n then t.saveNode d colour n else t) s

/-- Saving those of a list of elements, or of memory actors, that are ready. -/
def State.saveElemsAt (s : State) (d off : Nat) (l : List Nat) : State :=
  l.foldl (fun t p => if t.maySave d p then t.saveElement d off p else t) s
def State.saveMasAt (s : State) (d off : Nat) (l : List Nat) : State :=
  l.foldl (fun t n => if t.maySaveMa d n then t.saveMa d off n else t) s

/-- The targets of a STATE.SAVE, and saving those that are ready. -/
def State.saveTargets (s : State) (d : Nat) (c : Cmd) : Targets := if c.fl % 2 = 1 then s.saveSlots d c else s.saveElems d c
def State.saveReady (s : State) (d : Nat) (c : Cmd) (l : List Nat) : State :=
  let s := (s.spillDie d c.colour).saveGates d c.colour
  if c.fl % 2 = 1 then s.saveMasAt d c.opd l
  else if c.tgt = allTargets then (s.saveElemsAt d c.opd l).saveLone d c.colour
  else s.saveElemsAt d c.opd l

/-- STATE.SAVE is accepted; targets that are ready are saved at once, the others as the command completes. -/
def execStateSave (die ticket : Nat) (s : State) : Out :=
  command die ticket (fun c => c.code = 0x13) (fun c => c.fl < 2 && c.arg = 0 && c.opd < 2 ^ 36) (fun s c d =>
    match s.saveTargets d c with
    | .bad n => .fails n s
    | .places l =>
      if c.opd % 4096 ≠ 0 then .fails 2 s
      else
        let t := s.setStaging d c.colour { s.staging d c.colour with area := c.opd }
        .later (areaSize * l.length) l (t.saveReady d c l)) s

/-! ## Loading -/

/-- A number in a memory. -/
abbrev fieldAt (m : Mem) (o n : Nat) : Nat := Memory.read m o n

/-- An entry of an area, with its retry mark and what it waits for from what is kept beside the area (L18); an arm other than 1 is
read as 0 (L79). -/
def loadEntry (m : Mem) (kept : Tab Entry) (i : Nat) : Option Entry :=
  let o := 0x440 + 48 * i
  if fieldAt m (o + 38) 1 = 0xFF then none
  else
    some {
      slot := fieldAt m (o + 36) 1, tag := BitVec.ofNat 32 (fieldAt m (o + 32) 4)
      present := BitVec.ofNat 4 (fieldAt m (o + 37) 1)
      payloads := Vector.ofFn fun n : Fin 4 => BitVec.ofNat 64 (fieldAt m (o + 8 * n) 8)
      levels := Vector.ofFn fun n : Fin 4 => BitVec.ofNat 3 (fieldAt m (o + 40) 2 / 16 ^ n.val)
      arm := fieldAt m (o + 39) 1 = 1, defcnt := fieldAt m (o + 44) 4 % 2 ^ 21, st := entryOf (fieldAt m (o + 38) 1)
      retry := ((tabGet kept i).map Entry.retry).getD false, park := ((tabGet kept i).map Entry.park).getD .none, age := i }

/-- A generator of an area. -/
def loadGen (m : Mem) (g : Fin 3) : Gen :=
  let o := 0x1840 + 80 * g.val
  { base := BitVec.ofNat 64 (fieldAt m o 8), cnt := Vector.ofFn fun i : Fin 4 => fieldAt m (o + 8 + 4 * i) 4
    str := Vector.ofFn fun i : Fin 4 => (BitVec.ofNat 32 (fieldAt m (o + 24 + 4 * i) 4)).toInt
    drain := BitVec.ofNat 11 (fieldAt m (o + 40) 2), st := genOf (fieldAt m (o + 42) 1)
    org := (BitVec.ofNat 64 (fieldAt m (o + 44) 8)).toInt, popped := fieldAt m (o + 52) 8
    held := (List.range (fieldAt m (o + 76) 1)).map fun j => BitVec.ofNat 32 (fieldAt m (0x1E20 + 128 * g.val + 4 * j) 4)
    ahead := bitOf (fieldAt m (o + 43) 1) 0, pushed := fieldAt m (o + 60) 8, waiting := [], t := fieldAt m (o + 68) 2
    f := fieldAt m (o + 70) 2, left := fieldAt m (o + 72) 4, stopping := bitOf (fieldAt m (o + 43) 1) 1 }

/-- The places of a list of bytes that are not 0xFF. -/
def placesAt (m : Mem) (o n : Nat) : List Nat := ((List.range n).map fun i => fieldAt m (o + i) 1).filter (· ≠ 0xFF)

/-- The memory of a loaded element: the dirty lines over what the loader has written there (R427). -/
def loadMemory (m : Mem) (lines : List Nat) (old : Mem) : Mem :=
  (List.zipIdx lines).foldl (fun t x => Memory.write t (constEnd + 64 * x.1) (fieldAt m (0x2000 + 64 * x.2) 64) 64) old

/-- Window entries of an area. -/
def loadWins (m : Mem) : Tab Win :=
  (List.range 128).foldl (fun t i =>
    let v := fieldAt m (0x1240 + 12 * i) 12
    if bitOf v 51 then
      tabSet t i { ctx := BitVec.ofNat 14 v, n := BitVec.ofNat 18 (v / 2 ^ 14), o := BitVec.ofNat 18 (v / 2 ^ 32), final := bitOf v 50 }
    else t) []

/-- The store of an area: as dispatch reopens every PARKED entry is READY (Table 15-4). -/
def loadStore (m : Mem) (kept : Tab Entry) (reopen : Bool) : Tab Entry :=
  (List.range 64).foldl (fun t i =>
    match loadEntry m kept i with
    | some en => tabSet t i (if en.st = .parked && reopen then { en with st := .ready, park := .none } else en)
    | none => t) []

/-- The places of an area that are READY: in the order kept beside it, then the others by age, then the PARKED ones as
dispatch reopens. -/
def loadReady (m : Mem) (kept : List Nat) (reopen : Bool) : List Nat :=
  let queue := placesAt m 16 16
  let ready (p : Nat) : Bool :=
    if p < 64 then fieldAt m (0x440 + 48 * p + 38) 1 = 1
    else fieldAt m 32 3 / 8 ^ (p - 64) % 8 = 2 && !queue.contains p
  ((kept ++ List.range 72).eraseDups.filter ready) ++
    if reopen then (List.range 64).filter fun p => fieldAt m (0x440 + 48 * p + 38) 1 = 3 else []

/-- The element of an area, at a place whose old element is given, with what is kept of it beside the area. With fl[1] = 0
it is configured and frozen: Tables 2-6 and 15-4 give its cut state none, and no event but a new STATE.SAVE follows (L80). -/
def loadElement (m : Mem) (old kept : Element) (reopen : Bool) : Element :=
  let lines := (List.range 752).filter fun l => bitOf (fieldAt m 0x1DC0 96) l
  { Element.reset with
    mem := loadMemory m lines old.mem, active := writeBlock [] 0 (Memory.readBytes m 0x40 512)
    staged := writeBlock [] 0 (Memory.readBytes m 0x240 512), imgDesc := old.imgDesc, constDesc := old.constDesc
    configured := true, colour := fieldAt m 4 1, load := loadNumber (fieldAt m 6 1) + 64 * (fieldAt m 5 1 % 2)
    armed := bitOf (fieldAt m 12 1) 0
    store := loadStore m kept.store reopen, births := 64, ready := loadReady m kept.ready reopen, runq := placesAt m 16 16
    lastNormal := kept.lastNormal, lastUrgent := kept.lastUrgent, rr := kept.rr, waits := kept.waits
    ends := Vector.ofFn fun n : Fin 8 =>
      endOf (fieldAt m 32 3 / 8 ^ n.val % 8) (match kept.ends[n] with
        | .ready r => r
        | .parked _ r => r
        | _ => false)
    matchFull := kept.matchFull, slotFull := kept.slotFull
    wins := loadWins m
    ports := Vector.ofFn fun i : Fin 8 =>
      ((List.range 4).map fun j => fieldAt m (0x1040 + 64 * i + 16 * j) 16).filter (· ≠ 0) |>.map natToken
    q := Vector.ofFn fun i : Fin 3 => qOf (fieldAt m (0x1840 + 240 + i) 1), gens := Vector.ofFn (loadGen m)
    acc := Vector.ofFn fun i : Fin 256 => BitVec.ofNat 32 (fieldAt m (0x1940 + 4 * i) 4)
    tiles := Vector.ofFn fun i : Fin 16 =>
      if bitOf (fieldAt m 0x1D40 2) i then .full else if bitOf (fieldAt m 0x1D42 2) i then .filling else .empty
    mprog := if fieldAt m 0x1D50 16 = 0 && kept.mprog.isNone then none else some (Memory.readBytes m 0x1D50 16)
    pend := old.pend
    cut := if reopen then .open else .frozen, dirty := lines, copyFault := kept.copyFault }

/-- An area in physical memory. -/
def State.areaMem (s : State) (d off : Nat) : Mem := Memory.writeBytes [] 0 (Memory.readBytes s.phys (s.control d off) areaSize)

/-- The EOS and switch tokens that its ports have counted, from their channels. -/
def State.loadCounts (s : State) (k : Nat) : State :=
  let e := s.elem k
  let count (f : Chan → Nat) (i : Nat) : Nat := ((s.chanAt (elemDest k i) e.colour (some e.load)).map f).getD 0
  s.setElem k { e with
    portEos := Vector.ofFn fun i : Fin 8 => count Chan.eos i, portSwitch := Vector.ofFn fun i : Fin 8 => count Chan.switches i }

/-- Sequence numbers of an element's endpoints as its area gives them. -/
def State.loadSeqs (s : State) (k : Nat) (m : Mem) : State :=
  let e := s.elem k
  let s := (List.range 8).foldl (fun t i =>
    t.mapChan (elemDest k i) e.colour (some e.load) fun c => { c with next := BitVec.ofNat 20 (fieldAt m (0x1D60 + 4 * i) 4) }) s
  (List.range 16).foldl (fun t o =>
    t.mapBind (elemSource k o) e.colour e.load fun b => { b with seq := BitVec.ofNat 20 (fieldAt m (0x1D80 + 4 * o) 4) }) s

/-- A saved node back in place. -/
def State.loadNode (s : State) (colour key : Nat) : State :=
  match tabGet s.nodes (savedNode colour key) with
  | none => s
  | some x =>
    let t := s.setNode key { x with saved := false, weired := false }
    { t with nodes := tabDel t.nodes (savedNode colour key) }

/-- Loading an element with the nodes that are saved with it. -/
def State.loadElem (s : State) (d off pos : Nat) (reopen : Bool) : State :=
  let k := elemKey d pos
  let m := s.areaMem d (elemArea off pos)
  let colour := fieldAt m 4 1
  let kept := (tabGet s.elems (savedElem colour k)).getD Element.reset
  let s := ((s.setElem k (loadElement m (s.elem k) kept reopen)).loadSeqs k m).loadCounts k
  let s := { s with elems := tabDel s.elems (savedElem colour k) }
  if s.lowestOfPlot d pos then
    ((List.range 4).map (4 * (pos / 16) + ·)).foldl (fun t n => t.loadNode colour (nodeKey d n)) s
  else s

/-- Whether an area of a memory actor holds a save of a colour. -/
def maSaved (a : Mem) (colour : Nat) : Bool := fieldAt a 112 4 = saveMagic && fieldAt a 116 1 = colour

/-- Loading a memory actor from its area, with what is kept of it beside the area, if anything is. -/
def State.loadMa (s : State) (colour d off slot : Nat) : State :=
  let a := s.areaMem d (maArea off slot)
  let key := maKey d slot
  let fresh := maOfNothing a
    (s.chanAt (maDest d slot inStart) colour (some (loadNumber (fieldAt a 118 1) + 64 * (fieldAt a 117 1 % 2)))).isSome
  let old := s.ma key
  let m := (tabGet s.mas (savedMa colour key)).getD { fresh with staged := old.staged, stagedValid := old.stagedValid }
  let t := s.setMa key { maOfArea a m with saved := false, weir := .none, tlb := [], walking := none }
  { t with mas := tabDel t.mas (savedMa colour key) }

/-- The memory actors of a colour that are kept in their saves on a die. -/
def State.keptMas (s : State) (d colour : Nat) : List Nat :=
  (List.range 64).filter fun n => (tabGet s.mas (savedMa colour (maKey d n))).isSome

/-- Reopening a colour on a die: saved tokens enter their flume queues ahead of every later one, and weirs are counted from
nothing again; its headgates hold until their load is resident (R327). -/
def State.reopen (s : State) (d colour : Nat) : State :=
  let mine (key : Nat) (c : Option Nat) : Bool := key / 16 = d && c = some colour
  let t : State := { s with
    chans := s.chans.map fun (c : Chan) => if c.colour = colour && c.dest.die = d then { c with weirs := 0 } else c
    binds := s.binds.map fun (b : Bind) =>
      if b.colour = colour && b.source.die = d then { b with weired := false } else b
    nodes := s.nodes.map fun (x : Nat × Node) =>
      if x.1 / 1600 = d && x.2.colour = colour then (x.1, { x.2 with weired := false }) else x
    outs := s.outs.map fun (x : Nat × Outfall) =>
      if mine x.1 x.2.colour then (x.1, { x.2 with weired := false }) else x }
  let t := (t.chans.filter fun c => c.colour = colour && c.dest.die = d).foldl (fun u c => u.askSpilled c.dest colour c.load) t
  t.setStaging d colour { t.staging d colour with weir := false }

/-- Saved nodes of a colour on a die that are still in their saves, back in place. -/
def State.loadLone (s : State) (d colour : Nat) : State :=
  ((s.nodes.filter fun x => x.1 / 102400 = colour + 1 && x.1 % 102400 / 1600 = d).map fun x => x.1 % 102400).foldl
    (fun t key => t.loadNode colour key) s

/-- Targets of a STATE.LOAD. -/
def State.loadTargets (s : State) (d : Nat) (c : Cmd) : Targets :=
  if c.fl % 2 = 1 then
    match s.slotTargets d { c with tgt := if c.tgt = allTargets then 0 else c.tgt } with
    | .bad n => .bad n
    | .places l =>
      let held := (if c.tgt = allTargets then List.range 64 else l).filter fun n => maSaved (s.areaMem d (maArea c.opd n)) c.colour
      if c.tgt ≠ allTargets && held = [] then .bad 3 else .places held
  else
    match s.elemTargets d c with
    | .bad n => .bad n
    | .places ps =>
      if c.tgt = allTargets then
        .places (ps.filter fun p => (s.areaMem d (elemArea c.opd p) |> fun m => fieldAt m 0 4 = saveMagic && fieldAt m 4 1 = c.colour))
      else .places ps

/-- Whether a granule of an area cannot be read. -/
def State.areaBad (s : State) (d off : Nat) : Bool :=
  let pa := s.control d off
  s.bad.any fun g => pa ≤ 8 * g && 8 * g < pa + areaSize

/-- Whether a colour has nothing left in its saves. -/
def State.allLoaded (s : State) (colour : Nat) : Bool :=
  !(s.elems.any fun x => x.1 / 409600 = colour + 1) && !(s.mas.any fun x => x.1 / 4096 = colour + 1)

/-- Headgates and outfalls as the cut left them. -/
def State.restoreGates (s : State) (colour : Nat) : State :=
  (List.range 1024).foldl (fun t n =>
    let t := match tabGet t.heads (savedHead colour n) with
      | none => t
      | some h =>
        let u := if (t.head n).st = .idle then t.setHead n { h with colour := some colour } else t
        { u with heads := tabDel u.heads (savedHead colour n) }
    match tabGet t.outs (savedHead colour n) with
    | none => t
    | some o =>
      let u := t.setOut n { t.out n with subst := o.subst, peer := (t.out n).peer <|> o.peer }
      { u with outs := tabDel u.outs (savedHead colour n) }) s

/-- A saved launch whose state is loaded is active again (02 Table 2-7), in the region that it holds, and its gates stream on. -/
def State.loadedAgain (s : State) (colour : Nat) : State :=
  if s.allLoaded colour && ((s.launch colour).any fun l => l.st = .saved) then
    (s.restoreGates colour).mapLaunch colour fun l =>
      if l.st = .saved then
        { l with st := .active, saves := [], rect := l.rect <|> tabGet s.grants (l.die0 * 16 + colour) }
      else l
  else s

/-- Whether a target may be loaded: an element without an active bank, whose area holds a save. -/
def State.mayLoad (s : State) (d : Nat) (c : Cmd) (p : Nat) : Bool :=
  if c.fl % 2 = 1 then (s.ma (maKey d p)).st = .unconfigured
  else !(s.elem (elemKey d p)).configured && fieldAt (s.areaMem d (elemArea c.opd p)) 0 4 = saveMagic

/-- STATE.LOAD: each target is loaded as the request is accepted, once what an earlier bank has queued in its units has run; the
completion follows. -/
def execStateLoad (die ticket : Nat) (s : State) : Out :=
  command die ticket (fun c => c.code = 0x14) (fun c => c.fl < 4 && c.arg = 0 && c.opd < 2 ^ 36) (fun s c d =>
    match s.loadTargets d c with
    | .bad n => .fails n s
    | .places l =>
      let open' := bitOf c.fl 1
      if c.opd % 4096 ≠ 0 then .fails 2 s
      else if !l.all (s.mayLoad d c) then .fails 3 s
      else if l.any (fun p => s.areaBad d (if c.fl % 2 = 1 then maArea c.opd p else elemArea c.opd p)) then
        .fails 5 (s.countUe d)
      else if c.fl % 2 = 0 && !l.all (fun p => unitsQuiet (s.elem (elemKey d p))) then .wait
      else
        let t := if c.fl % 2 = 1 then l.foldl (fun t n => t.loadMa c.colour d c.opd n) s
          else
            let u := l.foldl (fun t p => t.loadElem d c.opd p open') s
            if c.tgt = allTargets then u.loadLone d c.colour else u
        .later (areaSize * l.length) l ((if open' then t.reopen d c.colour else t).loadedAgain c.colour)) s

/-! ## The end of a cut (R425, R428) -/

/-- Whether every element and memory actor of a launch is saved. -/
def State.allSaved (s : State) (l : Launch) : Bool :=
  l.dies.all fun d =>
    !(s.elems.any fun x => x.1 / 6400 = d && x.2.configured && x.2.colour = l.colour) &&
      !(s.nodes.any fun x => x.1 / 1600 = d && x.2.configured && x.2.colour = l.colour) &&
      (s.colourSlots d l.colour).all fun n => let m := s.ma (maKey d n); m.saved || m.st = .unconfigured

/-- Whether a part of the region without an old bank still has to switch at once, in an armed switch (R339, R429). -/
def State.switchDue (s : State) (l : Launch) : Bool :=
  l.dies.any fun d => s.armedAt d l.colour &&
    ((s.regionElems d l.colour).any (fun p => s.mayElementSwitch (elemKey d p)) ||
      (s.regionNodes d l.colour).any (fun n =>
        let x := s.node (nodeKey d n); !x.configured && x.stagedValid && x.colour = l.colour) ||
      (s.colourSlots d l.colour).any (fun n => let m := s.ma (maKey d n); m.st = .unconfigured && m.stagedValid))

/-- The save areas of a colour on a die: where STATE.SAVE has put them, or where the shipped firmware does (L36). -/
def State.saveArea (s : State) (d colour : Nat) : Nat :=
  if (s.staging d colour).area = 0 then 0x20000000 * (colour + 1) else (s.staging d colour).area

/-- The firmware's STATE.SAVE of elements and of memory actors on a die: those that are ready are saved (R425). -/
def State.firmwareSave (s : State) (colour d : Nat) : State :=
  let off := s.saveArea d colour
  let s := ((s.setStaging d colour { s.staging d colour with area := off }).spillDie d colour).saveGates d colour
  let s := ((s.saveElemsAt d off (s.regionElems d colour)).saveLone d colour)
  s.saveMasAt d off (s.colourSlots d colour)

/-- Whether every outfall with a channel of the colour has counted its weirs. -/
def State.outfallsWeired (s : State) (colour : Nat) : Bool :=
  s.chans.all fun c => c.colour ≠ colour || c.dest.kind ≠ .outfall || c.load.isNone || s.weirsCounted c

/-- The report of the outfalls that owe one still: switch tokens have stood for their weirs. -/
def State.reportWeirs (s : State) (colour : Nat) : State :=
  s.chans.foldl (fun t c =>
    let key := c.dest.die * 16 + c.dest.pos
    if c.colour = colour && c.dest.kind = .outfall && c.load.isSome && !(t.out key).weired then
      (t.setOut key { t.out key with weired := true }).latch c.dest.die 8
    else t) s

/-- A staging that is still open, given up at a cut: it is not staged yet (L36). -/
def State.dropUnstaged (s : State) (l : Launch) : State := l.dies.foldl (fun t d => t.dropOpen d l.colour) s

/-- The elements of a launch that are saved. -/
def State.savedKeys (s : State) (colour : Nat) : List Nat :=
  (s.elems.filter fun x => x.1 / 409600 = colour + 1).map fun x => x.1 % 409600

/-- Whether a launch has no part left to save, and the cut is complete (R425). -/
def State.cutDone (s : State) (l : Launch) : Bool :=
  s.allSaved l && !s.switchDue l && s.outfallsWeired l.colour && s.inFlight l.colour = 0

/-- The load of an active launch that stream commands have cut is saved (02 Table 2-7): every die's dispatch is closed, and
something is saved. REGION.FREE, which is theirs too, follows. -/
def State.cutByCommands (s : State) (l : Launch) : Bool :=
  l.st = .active && (l.dies.all fun d => (s.staging d l.colour).weir) && !s.allLoaded l.colour && s.cutDone l
def State.markSaved (s : State) (l : Launch) : State :=
  { s.mapLaunch l.colour (fun l => { l with st := .saved, saves := s.savedKeys l.colour, arrival := s.arrivals }) with
    arrivals := s.arrivals + 1 }

/-- A launch whose cut is complete: saved, its region free, waiting again from this instant (R333, R425). A load that is staged
goes with it, its switch armed or not. -/
def State.completeCut (s : State) (l : Launch) : State :=
  let s := (s.dropUnstaged l).reportWeirs l.colour
  let staging := l.dies.map fun d => s.staging d l.colour
  let staged := staging.find? (fun g => g.armed) <|> staging.find? fun g => g.closed
  let saved := s.savedKeys l.colour
  let s := s.saveGatesOf l.colour (List.range 1024)
  let s := l.dies.foldl (fun t d => t.freeRegion d l.colour) s
  { s.mapLaunch l.colour (fun l => { l with
      st := .saved, rect := none, saves := saved, arrival := s.arrivals, stagedLoad := staged.map Staging.load,
      armed := (staged.map Staging.armed).getD false }) with arrivals := s.arrivals + 1 }

/-- Whether no load follows. -/
def State.lastLoad (s : State) (l : Launch) : Bool :=
  match nextLoad l (imgLoads (s.imageOf l.colour)) with
  | some (some _) => false
  | _ => true

/-- Whether the conditions of R341 hold for a launch in a cut, saved targets counted as they are saved. -/
def State.completesInCut (s : State) (l : Launch) : Bool :=
  s.loadDone l && s.lastLoad l && !s.faultInForce l.colour

/-- Completion wins over a cut that is not complete: its saves are discarded. -/
def State.winCut (s : State) (l : Launch) : State := (s.dropSaves l.colour).endLoad l

def execCutCompletionWins (colour : Nat) (s : State) : Out :=
  match s.launch colour with
  | none => .next s
  | some l => if l.st = .cutting && s.loaderRuns && s.completesInCut l then .next (s.winCut l) else .next s

/-- A cut goes on, by stream commands or by the firmware: what is ready is saved, and the launch is saved once the cut is complete;
but it completes where the conditions of R341 hold before (R428). -/
def execCutComplete (colour : Nat) (s : State) : Out :=
  match s.launch colour with
  | none => .next s
  | some l =>
    if s.cutByCommands l then .next (s.markSaved l)
    else if l.st ≠ .cutting || !s.loaderRuns then .next s
    else if s.completesInCut l then .next (s.winCut l)
    else
      let t := (l.dies.filter s.firmwareRuns).foldl (fun t d => t.firmwareSave colour d) s
      if t.completesInCut l then .next (t.winCut l)
      else if t.cutDone l then .next (t.completeCut l)
      else .next t

end Sys2Proof.Machine
end

