-- ==== Sys2Proof/Machine/Complete.lean ====
section
/-! DEFINITION. REBAL.MOVE (13 R346, R347; 14 R395) and the completion of stream commands whose work takes time
(14 R373, R376). -/

namespace Sys2Proof.Machine

/-! ## REBAL.MOVE -/

/-- The replica that a plan places on a slot. -/
def replicaAt (p : Plan) (die pos slot : Nat) : Option PlacedReplica :=
  p.replicas.find? fun r => r.die = die && r.pos = pos && r.slot = slot

/-- Whether an actor may be moved: stateless, no window, no stream register, no ordered channel (R346). -/
def movableActor (b : List Byte) (a : ActorRec) : Bool :=
  a.stateless && a.w = 0 && !a.streams &&
    (a.inch ++ a.outch).all fun c => c = noChan || (imgChan b c).kind ≠ 0

/-- Element memory that a replica of a plan takes. -/
def replicaSpan (b : List Byte) (r : PlacedReplica) : Nat × Nat := (r.addr, r.addr + (imgActor b r.actor).bloblen)

/-- Whether a die is neither cut nor switching for a colour. -/
def State.calm (s : State) (d colour : Nat) : Bool := !(s.staging d colour).weir && !(s.staging d colour).armed

/-- Whether two slots may stand on one element: ports apart. -/
def slotsApart (a : Element) (x : Nat) (b : Element) (y : Nat) : Bool :=
  (slotIns a x).all (fun i => !(slotIns b y).contains i) && (slotOuts a x).all fun o => !(slotOuts b y).contains o

/-- Ranges of element memory that a move would bring to an element while others are on their way there. -/
def State.spanOf (s : State) (l : Launch) (m : Move) : Option (Nat × Nat) :=
  (replicaAt l.plan (m.src / 6400) (m.src % 6400) m.slot).map (replicaSpan (s.imageOf l.colour))

/-- Whether a move agrees with one that has begun: not of the same slot, and where it goes to the same element with ports
and memory apart. -/
def State.movesAgree (s : State) (l : Launch) (m q : Move) : Bool :=
  !(m.src = q.src && m.slot = q.slot) &&
    (m.dst ≠ q.dst ||
      (slotsApart (s.elem m.src) m.slot (s.elem q.src) q.slot &&
        match s.spanOf l m, s.spanOf l q with
        | some a, some b => a.2 ≤ b.1 || b.2 ≤ a.1
        | _, _ => false))

/-- Quotas of an element's slots, with those of the slots that moves bring there. -/
def State.quotaSum (s : State) (colour k : Nat) : Nat :=
  let t := s.elem k
  (if t.configured then ((validSlots t.active).map (quotaOf t)).sum else 0) +
    ((s.moves.filter fun x => x.2.1 = colour && x.1.dst = k).map fun x => quotaOf (s.elem x.1.src) x.1.slot).sum

/-- Element memory that the blobs of a plan take on an element, and that the retire bitmaps of its windows take (02 R57). -/
def takenSpans (b : List Byte) (p : Plan) (die pos : Nat) : List (Nat × Nat) :=
  (p.replicas.filter fun q => q.die = die && q.pos = pos).map (replicaSpan b)
def bitmapSpans (e : Element) : List (Nat × Nat) :=
  if e.configured then
    (validSlots e.active).map fun n => (bitmapBase e n, bitmapBase e n + winEntries e n * bitmapBytes e n)
  else []

/-- Bytes of flume space on a die, and what a channel of a depth takes (R318). -/
def flumeBytes : Nat := 40 * 2 ^ 20
def flumeOf (depth : Nat) : Nat := (depth + extraPlaces) * 16

/-- The channels of a moved slot that have no flume queue on the target's die yet, with their depths at the source. -/
def State.comingDepths (s : State) (colour : Nat) (m : Move) : List Depth :=
  let e := s.elem m.src
  let td := m.dst / 6400
  ((s.portChans m.src colour e.load (slotIns e m.slot)).filter fun n =>
    !s.depths.any fun x => x.die = td && x.colour = colour && x.chan = n && x.load = some e.load).map fun n =>
      s.depthOf (m.src / 6400) colour n (some e.load)

/-- Whether the flume space of the target's die takes the channels of a moved slot beside those that stand there. -/
def State.moveFlumes (s : State) (colour : Nat) (m : Move) : Bool :=
  ((s.depths.filter fun x => x.die = m.dst / 6400).map fun x => flumeOf x.depth).sum +
    ((s.comingDepths colour m).map fun x => flumeOf x.depth).sum ≤ flumeBytes

/-- Spillway units that a channel of a depth needs (15 R424), and the first unit of a die behind the areas that channels have
there (L36). -/
def State.areaNeed (s : State) (x : Depth) : Nat := areaUnits x.depth (producerPorts (s.imageOf x.colour) x.chan)
def State.spillFree (s : State) (die : Nat) : Nat :=
  (s.depths.filter fun x => x.die = die).foldl (fun n x => Nat.max n (x.offset + s.areaNeed x)) 0

/-- Whether the target's die has spillway areas for those channels. -/
def State.moveAreasFit (s : State) (colour : Nat) (m : Move) : Bool :=
  let td := m.dst / 6400
  (s.spillFree td + ((s.comingDepths colour m).map s.areaNeed).sum) * 65536 ≤ (s.ctrl td).spsize.toNat

/-- Depths, spill attributes and areas of those channels on the target's die. -/
def State.bringDepths (s : State) (colour : Nat) (m : Move) : State :=
  let td := m.dst / 6400
  (s.comingDepths colour m).foldl (fun t x => t.setDepth { x with die := td, offset := t.spillFree td }) s

/-- Whether the target element has room for the slot (R318): its slot is free, ports, quotas, memory and flume space agree. -/
def State.moveFits (s : State) (l : Launch) (m : Move) (r : PlacedReplica) : Bool :=
  let b := s.imageOf l.colour
  let e := s.elem m.src
  let t := s.elem m.dst
  let span := replicaSpan b r
  let td := m.dst / 6400
  let tp := m.dst % 6400
  m.src ≠ m.dst && s.liveElem td tp && (s.plot (td * 400 + tp / 16)).colour = some l.colour &&
    (!t.configured || (t.load = l.load && !slotValid t m.dslot && (validSlots t.active).all (slotsApart e m.slot t ·))) &&
    ((s.moves.filter fun x => x.2.1 = l.colour).all fun x => s.movesAgree l m x.1) &&
    s.quotaSum l.colour m.dst + quotaOf e m.slot ≤ 64 &&
    ((takenSpans b l.plan td tp ++ bitmapSpans t).all fun x => x.2 ≤ span.1 || span.2 ≤ x.1) && s.moveFlumes l.colour m &&
    s.moveAreasFit l.colour m

/-- Whether the slot holds a FAULTED entry. -/
def slotFaulted (e : Element) (slot : Nat) : Bool :=
  ((slotEntries e slot).any fun x => x.2.st = .faulted) || nth e.ends.toList slot .active = .faulted

/-- Whether a move may begin (R346, R347). -/
def State.moveAllowed (s : State) (l : Launch) (m : Move) : Bool :=
  let e := s.elem m.src
  match replicaAt l.plan (m.src / 6400) (m.src % 6400) m.slot with
  | none => false
  | some r =>
    let b := s.imageOf l.colour
    l.st = .active && e.configured && e.load = l.load && slotValid e m.slot && movableActor b (imgActor b r.actor) &&
      s.calm (m.src / 6400) l.colour && s.calm (m.dst / 6400) l.colour && !slotFaulted e m.slot && s.moveFits l m r

/-- An element that a move gives a slot: configured, for the load, if it was not. -/
def moveTarget (t : Element) (colour load : Nat) : Element :=
  if t.configured then t else { activate t colour load with active := [] }

/-- Steps 1 and 2: the target's slot has the actor's record with an empty quota, the input ports name it without a mode yet, its
channels have their depths on the target's die, and what goes to the replica goes to the target. -/
def State.beginMove (s : State) (colour : Nat) (m : Move) : State :=
  let e := s.elem m.src
  let t := moveTarget (s.elem m.dst) colour e.load
  let a := Memory.set (Memory.write t.active (32 * m.dslot) (Memory.read e.active (32 * m.slot) 32) 32) (32 * m.dslot + 24) 0
  let a := (slotIns e m.slot).foldl (fun a i => Memory.write a (256 + 4 * i) m.dslot 4) a
  ((s.bringDepths colour m).setElem m.dst { t with active := a }).retarget colour (slotIns e m.slot) m.src m.dst

/-- REBAL.MOVE names one element: with every target named, the region must hold just one there (L77). -/
def execRebalMove (die ticket : Nat) (s : State) : Out :=
  command die ticket (fun c => c.code = 0x16) (fun c => c.fl = 0 && c.arg < 8 && c.opd < 2 ^ 22) (fun s c d =>
    match s.elemTargets d c with
    | .bad n => .fails n s
    | .places [p] =>
      match s.moveOf c d p, s.launch c.colour with
      | some m, some l =>
        if !(s.elem m.dst).configured && !unitsQuiet (s.elem m.dst) then .wait
        else if c.opd % 2 ^ 13 < 6400 && s.moveAllowed l m then .later 0 [p] (s.beginMove c.colour m) else .fails 3 s
      | _, _ => .fails 3 s
    | .places _ => .fails 3 s) s

/-- Entries of the slot placed on the target as they are, oldest first; and the place that each of its places has become. -/
def placeMoved (m : Move) : List (Nat × Entry) → Element → Element × Tab Nat
  | [], t => (t, [])
  | (q, en) :: rest, t =>
    match freePlace t with
    | none => (t, [])
    | some p =>
      let r := placeMoved m rest { setEntry t p { en with slot := m.dslot, age := t.births } with births := t.births + 1 }
      (r.1, (q, p) :: r.2)

/-- Entries of a slot by age, with their places. -/
def agedEntries (e : Element) (slot : Nat) : List (Nat × Entry) :=
  (byAge e).filterMap fun p =>
    match tabGet e.store p with
    | some en => if en.slot = slot then some (p, en) else none
    | none => none

/-- The places of a slot in a list of the source, as places of the target: those of its entries, and that of its end firing. -/
def movedPlaces (m : Move) (t : Tab Nat) (l : List Nat) : List Nat :=
  l.filterMap fun p => if p = endPlace m.slot then some (endPlace m.dslot) else if p < 64 then tabGet t p else none

/-- The configuration of a slot, with its ports, copied between blocks. -/
def copySlot (e t : Element) (m : Move) : Mem :=
  let a := Memory.write t.active (32 * m.dslot) (Memory.read e.active (32 * m.slot) 32) 32
  let a := (slotIns e m.slot).foldl (fun a i =>
    Memory.write a (256 + 4 * i) (Memory.read e.active (256 + 4 * i) 4 / 8 * 8 + m.dslot) 4) a
  let a := (slotOuts e m.slot).foldl (fun a o => Memory.write a (288 + 4 * o) (8 + m.dslot) 4) a
  Memory.write a (352 + 4 * m.dslot) (Memory.read e.active (352 + 4 * m.slot) 4) 4

/-- The target element after step 3. -/
def movedTo (e t : Element) (m : Move) (colour load lo hi : Nat) : Element :=
  let t := moveTarget t colour load
  let ins := slotIns e m.slot
  let final' := nth e.ends.toList m.slot .active
  let t := { t with
    active := copySlot e t m
    mem := Memory.writeBytes t.mem lo (Memory.readBytes e.mem lo (hi - lo))
    dirty := markDirty t.dirty lo (hi - lo)
    ports := ins.foldl (fun v i => v.setIfInBounds i (portQueue e i)) t.ports
    portEos := ins.foldl (fun v i => v.setIfInBounds i (nth e.portEos.toList i 0)) t.portEos
    ends := t.ends.setIfInBounds m.dslot final' }
  let r := placeMoved m (agedEntries e m.slot) t
  { r.1 with ready := r.1.ready ++ movedPlaces m r.2 e.ready, runq := r.1.runq ++ movedPlaces m r.2 e.runq }

/-- Whether the slot's entries find places on the target, and those that are QUEUED find places in its run queue. -/
def moveRoom (e t : Element) (m : Move) : Bool :=
  t.store.length + (slotEntries e m.slot).length ≤ 64 &&
    t.runq.length + (e.runq.filter fun p => placeSlot e p = m.slot).length ≤ runqSize

/-- The source element after step 3: the slot is free. -/
def movedFrom (e : Element) (m : Move) : Element :=
  let gone (p : Nat) : Bool := placeSlot e p = m.slot
  let ins := slotIns e m.slot
  let a := Memory.set e.active (32 * m.slot + 25) 0
  let a := ins.foldl (fun a i => Memory.write a (256 + 4 * i) 0 4) a
  let a := (slotOuts e m.slot).foldl (fun a o => Memory.write a (288 + 4 * o) 0 4) a
  { e with
    active := a, store := e.store.filter (fun x => x.2.slot ≠ m.slot), ready := e.ready.filter (!gone ·)
    runq := e.runq.filter (!gone ·), ports := ins.foldl (fun v i => v.setIfInBounds i []) e.ports
    portEos := ins.foldl (fun v i => v.setIfInBounds i 0) e.portEos, ends := e.ends.setIfInBounds m.slot .active }

/-- What the PARKED firings of a slot wait for: its entries and its end firing. -/
def slotParks (e : Element) (slot : Nat) : List Park :=
  ((slotEntries e slot).map fun x => x.2.park) ++
    match nth e.ends.toList slot .active with
    | .parked why _ => [why]
    | _ => []

/-- Waiters of the moved slot hear of free values at the target too. -/
def State.moveWaiters (s : State) (m : Move) : State :=
  (slotParks (s.elem m.src) m.slot).foldl (fun t x =>
    match x with
    | .context pk v => let p := t.pool pk; t.setPool pk { p with waiters := p.waiters ++ [(v, m.dst)] }
    | _ => t) s

/-- Whether a free notice that a PARKED firing of the slot waits for is on its way to the source: it wakes the firing there
(02 R53), before the slot goes. -/
def State.noticeComes (s : State) (m : Move) : Bool :=
  s.notices.any fun n => n.elem = m.src && (slotParks (s.elem m.src) m.slot).contains (.context n.pool n.value)

/-- Step 3, once no firing of the slot runs: state and data go to the target, and the outputs leave from there. -/
def State.finishMove (s : State) (colour : Nat) (m : Move) : State :=
  match s.launch colour with
  | none => s
  | some l =>
    match replicaAt l.plan (m.src / 6400) (m.src % 6400) m.slot with
    | none => s
    | some r =>
      let e := s.elem m.src
      let span := replicaSpan (s.imageOf colour) r
      let outs := (slotOuts e m.slot).map (elemSource m.src)
      let s := s.moveWaiters m
      let s := s.setElem m.dst (movedTo e (s.elem m.dst) m colour e.load span.1 span.2)
      let s := s.setElem m.src (movedFrom e m)
      let r' := { r with die := m.dst / 6400, pos := m.dst % 6400, slot := m.dslot }
      let s : State := { s with
        binds := s.binds.map fun (b : Bind) =>
          if outs.contains b.source && b.colour = colour && b.load = some e.load then
            { b with source := elemSource m.dst b.source.out } else b }
      let t := s.trimDepths (m.src / 6400) colour e.load (s.portChans m.dst colour e.load (slotIns e m.slot))
      t.mapLaunch colour fun l => { l with plan := { l.plan with
        replicas := l.plan.replicas.map fun q => if q = r then r' else q } }

/-! ## STREAM_COMMAND_COMPLETE -/

/-- Whether a command has an encoding that no command has. -/
def reservedCmd (c : Cmd) : Bool :=
  c.code = 0 || 0x19 < c.code || (c.code = 0x01 && 6 ≤ cfgDest c) || (c.code = 0x10 && 4 ≤ c.arg / 8 % 8) ||
    (c.code = 0x18 && c.fl % 4 = 3)

/-- Whether every element, node and slot of a colour on a die runs the load of a switch; an element that the load gives only its
constants has taken them (07 R220). -/
def State.allSwitched (s : State) (d colour load : Nat) : Bool :=
  (s.elems.all fun x => !(x.1 < 409600 && x.1 / 6400 = d && s.switchColour x.1 = colour) ||
      (if x.2.configured then x.2.load = load
       else validSlots x.2.staged = [] && !(x.2.armed && x.2.constDesc.isSome && x.2.cut = .open))) &&
    (s.nodes.all fun x => !(x.1 / 1600 = d && x.2.colour = colour) ||
      (if x.2.configured then x.2.load = load else !x.2.stagedValid)) &&
    (s.colourSlots d colour).all fun n =>
      let m := s.ma (maKey d n)
      if m.st = .unconfigured then !m.stagedValid else m.load = load

/-- Whether a halted slot has no request outstanding and has delivered every earlier response: what resp still owes is the
answer of a request that is formed and not issued. -/
def quietMa (m : MemActor) : Bool :=
  m.flight = [] && m.out = [] && m.resp.head?.all fun x =>
    match x with
    | .req i => m.cur.any fun r => r.index = i
    | .tok _ => false

/-- Targets of a STATE.SAVE that are not saved yet. -/
def State.unsaved (s : State) (d : Nat) (c : Cmd) : List Nat :=
  match s.saveTargets d c with
  | .bad _ => []
  | .places l =>
    l.filter fun p => if c.fl % 2 = 1 then !(s.ma (maKey d p)).saved && (s.ma (maKey d p)).st ≠ .unconfigured else (s.elem (elemKey d p)).configured

/-- The frequency that a plot reaches: a thermal limit that applies wins (14 R396, 18 R471). -/
def clockReached (p : Plot) (mhz : Nat) : Nat :=
  match p.limit with
  | some n => Nat.min mhz n
  | none => mhz

/-- Plots at the point that a PLOT.CLOCK asks for, and the frequency reached. -/
def State.setClocks (s : State) (d : Nat) (c : Cmd) (ps : List Nat) : State × Nat :=
  (ps.foldl (fun t p =>
    let x := t.plot (d * 400 + p)
    t.setPlot (d * 400 + p) { x with mhz := clockReached x (clockMhz c), asked := clockMhz c, mv := clockMv c }) s,
   ps.foldl (fun n p => Nat.min n (clockReached (s.plot (d * 400 + p)) (clockMhz c))) (clockMhz c))

/-- The copy of a moved slot (13 Table 13-4). -/
def isMoved (m : Move) (c : Cargo) : Bool := c = .moved (8 * m.src + m.slot) (8 * m.dst + m.dslot)

/-- Step 3 of a move, once no firing of the slot runs, outside a cut or a switch, with no FAULTED entry and no free notice on its
way to it, and once nothing of an earlier bank runs in a target without a bank: the copy travels on class 0, and as it arrives,
with room there, the move is complete. -/
def State.goMove (s : State) (colour : Nat) (m : Move) : Option State :=
  let e := s.elem m.src
  let ready := !(e.fir.status ≠ .idle && e.fir.slot = m.slot) && !slotFaulted e m.slot &&
    s.calm (m.src / 6400) colour && s.calm (m.dst / 6400) colour && moveRoom e (s.elem m.dst) m &&
    !s.noticeComes m && ((s.elem m.dst).configured || unitsQuiet (s.elem m.dst))
  if !ready then none
  else
    match s.packets.find? fun p => isMoved m p.cargo with
    | none => some (s.manage colour (.moved (8 * m.src + m.slot) (8 * m.dst + m.dslot)) (elemLoc m.src) (elemLoc m.dst))
    | some p => if p.atTarget then some ((s.consume (isMoved m)).finishMove colour m) else none

/-- What a performed command comes to on its die: its value and the state, or not complete yet. -/
def State.completes (s : State) (c : Cmd) (d value : Nat) (ps : List Nat) : Option Nat × State :=
  match c.code with
  | 0x06 =>
    let g := s.staging d c.colour
    if !g.armed then (some (s.elemsOfLoad d c.colour c.arg).length, s)
    else if s.allSwitched d c.colour g.load then
      (some (s.activeElems d c.colour g.load).length,
       s.setStaging d c.colour { Staging.reset with weir := g.weir, drained := g.drained, area := g.area })
    else (none, s)
  | 0x0C => (if ps.all fun n => quietMa (s.ma (maKey d n)) then some value else none, s)
  | 0x13 =>
    let t := s.saveReady d c (s.unsaved d c)
    (if t.unsaved d c = [] && (c.fl % 2 = 1 || c.tgt ≠ allTargets || t.loneNodes d c.colour = []) then some value else none, t)
  | 0x16 =>
    match ps with
    | [] => (some value, s)
    | p :: _ =>
      match s.moveOf c d p with
      | none => (some value, s)
      | some m =>
        if !(s.elem m.src).configured || (s.elem m.src).colour ≠ c.colour then (some value, s)
        else
        match s.goMove c.colour m with
        | none => (none, s)
        | some t => (if s.packets.any fun q => isMoved m q.cargo then some value else none, t)
  | 0x17 =>
    let r := s.setClocks d c ps
    (some r.2, r.1)
  | _ => (some value, s)

/-- A stream command whose work took time posts its completion word; a command of a reserved code is answered here. -/
def execStreamCommandComplete (die ticket : Nat) (s : State) : Out :=
  match s.ticket die ticket with
  | none => .next s
  | some t =>
    let c := cmdOf die t
    match t.phase with
    | .issued =>
      if reservedCmd c && !s.heldUp die t c && s.arrived (isCommand die ticket) then
        .next ((s.consume (isCommand die ticket)).finish die ticket c.code 1 0)
      else .next s
    | .performed v ps =>
      match s.dieOf c.ldie with
      | none => .next s
      | some d =>
        match s.completes c d v ps with
        | (some n, u) => .next (u.finish die ticket c.code 0 n)
        | (none, u) => .next u
    | .done _ => .next s

end Sys2Proof.Machine
end

