-- ==== Sys2Proof/Machine/Place.lean ====
section
/-! DEFINITION. Regions and placement (12 R310, R318, R319; 13 R331, R332; 01 R17): the compute dies of a rectangle, the
rectangles a launch may have, and whether a plan meets the rules. -/

namespace Sys2Proof.Machine

/-! ## Rectangles (R331, R332) -/

/-- Positions of the logical dies in rising logical order. -/
def State.dieOrder (s : State) : List Nat := (List.range 64).filterMap s.dieOf

/-- Compute dies of a rectangle in region order: die 0 first, then the others in rising logical order. -/
def State.rectDies (s : State) (r : Rect) (die0 : Nat) : List Nat :=
  die0 :: s.dieOrder.filter fun d => d ≠ die0 && s.isCompute d && rectMeets r d

/-- Dies of which a launch's rectangle holds a plot. -/
def wantedDies (l : Launch) : List Nat := l.die0 :: l.asked

/-- Whether a rectangle may be a launch's region; a saved launch keeps its compute dies (15 R427). -/
def State.rectSuits (s : State) (l : Launch) (r : Rect) : Bool :=
  rectWithin r && (wantedDies l).all (fun d => s.isCompute d && rectMeets r d) &&
    (l.st ≠ .saved || s.rectDies r l.die0 = l.dies)

/-- Whether an image leaves the size of its region to the scheduler. -/
def freeSize (b : List Byte) : Bool := imgRegW b = 0 || imgRegH b = 0

/-- Rectangles of one size, everywhere on the panel. -/
def rectsOfSize (w h : Nat) : List Rect :=
  (List.range 160).flatMap fun y => (List.range 160).map fun x => { x0 := x, y0 := y, w := w, h := h }

/-- Rectangles of whole die footprints of an area in dies. -/
def rectsOfDies (area : Nat) : List Rect :=
  (List.range 9).flatMap fun k => (List.range 9).flatMap fun m =>
    if k * m = area then
      (List.range 8).flatMap fun y => (List.range 8).map fun x => { x0 := 20 * x, y0 := 20 * y, w := 20 * k, h := 20 * m }
    else []

/-- The rectangles that a launch may have, smaller areas first where the scheduler chooses. -/
def State.candidates (s : State) (l : Launch) : List Rect :=
  let b := s.imageOf l.colour
  (if freeSize b then (List.range 65).flatMap rectsOfDies else rectsOfSize (imgRegW b) (imgRegH b)).filter (s.rectSuits l)

/-! ## Die indices and entry ports (R319, R17) -/

/-- The first channel, memory actor or pool of a load that names a die index beyond n region dies. -/
def dieIndexRefused (b : List Byte) (load n : Nat) : Option Refused :=
  firstOf (((ofLoad b 4 load).flatMap fun c =>
      let x := imgChan b c
      onOne lRegion oChan c ((x.hg ≠ 0xFF || x.outfall ≠ 0xFF) && n ≤ x.die)) ++
    ((ofLoad b 6 load).flatMap fun i => onOne lRegion oMa i (n ≤ (imgMa b i).die)) ++
    onEach lRegion oPool (imgCount b 8) fun i => n ≤ (imgPool b i).die)

/-- Whether an entry port of a die can be bound: a culvert to a die that is not dead, a configured window. The W culvert of
P(0,3) and P(0,4) leads to the headworks, and R17 does not say whether cw may be bound there: it is refused as a culvert
without a die at its other end (L81). -/
def State.portOpen (s : State) (d : Nat) (p : Port) : Bool :=
  let culvert (l : Nat) : Bool := s.link d l ≠ .absent &&
    match linkPeer d l with
    | some (q, _) => (s.dieMap q).cls ≠ .dead
    | none => false
  match p with
  | .hbm => true
  | .cn => culvert 0
  | .ce => culvert 1
  | .cs => culvert 2
  | .cw => culvert 3
  | .opt => (List.range 16).any fun n => ((tabGet s.windows (d * 16 + n)).getD Window.reset).valid

/-- The first memory actor of a load whose entry port cannot be bound. -/
def State.portRefused (s : State) (b : List Byte) (load : Nat) (dies : List Nat) : Option Refused :=
  firstOf ((ofLoad b 6 load).flatMap fun i =>
    let m := imgMa b i
    onOne lPort oMa i (!s.portOpen (nth dies m.die 0) (maCfg (blockMem m.operand)).port))

/-! ## A placement (R318) -/

/-- Element memory that a replica takes: its blob and its retire bitmaps, as ranges. -/
def winBytes (a : ActorRec) : Nat := a.e * ((a.w + 63) / 64 * 8)
def spansOf (b : List Byte) (r : PlacedReplica) : List (Nat × Nat) :=
  let a := imgActor b r.actor
  [(r.addr, r.addr + a.bloblen)] ++ (if a.w = 0 then [] else [(r.bitmap, r.bitmap + winBytes a)])

/-- Where blobs and bitmaps may lie. -/
def blobStart : Nat := 0x400
def blobEnd : Nat := 0x9F00

/-- Whether one replica's own conditions hold: a live element of the region, a slot, memory. -/
def State.replicaGood (s : State) (b : List Byte) (rect : Rect) (dies : List Nat) (r : PlacedReplica) : Bool :=
  let a := imgActor b r.actor
  dies.contains r.die && rectHolds rect r.die (r.pos / 16) && s.liveElem r.die r.pos && r.slot < 8 &&
    r.addr % 2 ^ a.balign = 0 && (a.w = 0 || r.bitmap % 8 = 0) &&
    ((spansOf b r).all fun x => blobStart ≤ x.1 && x.2 ≤ blobEnd) &&
    (a.w = 0 || blobEnd ≤ r.addr || r.addr + a.bloblen ≤ r.bitmap || r.bitmap + winBytes a ≤ r.addr)

/-- Ports of an actor record. -/
def actorIns (a : ActorRec) : List Nat := (List.range 8).filter fun n => nth a.inmode n 0 ≠ 0 && nth a.inch n noChan ≠ noChan
def actorOuts (a : ActorRec) : List Nat := (List.range 16).filter fun n => nth a.outch n noChan ≠ noChan

/-- Whether two replicas may stand as they do: on different elements, or with slots, ports, streams and memory apart. -/
def replicasAgree (b : List Byte) (x y : PlacedReplica) : Bool :=
  let p := imgActor b x.actor
  let q := imgActor b y.actor
  x.die ≠ y.die || x.pos ≠ y.pos ||
    (x.slot ≠ y.slot && (actorIns p).all (fun n => !(actorIns q).contains n) &&
      (actorOuts p).all (fun n => !(actorOuts q).contains n) && !(p.streams && q.streams) &&
      (spansOf b x).all fun u => (spansOf b y).all fun v => u.2 ≤ v.1 || v.2 ≤ u.1)

/-- Whether a relation holds between all elements of a list, earlier to later. -/
def pairwiseAll {α : Type} (f : α → α → Bool) : List α → Bool
  | [] => true
  | x :: t => t.all (f x) && pairwiseAll f t

/-- The actors on an element of a plan, in the plan's order. -/
def actorsOn (p : Plan) (die pos : Nat) : List Nat :=
  (p.replicas.filter fun r => r.die = die && r.pos = pos).map PlacedReplica.actor

/-- The quota of a replica of a plan (13 R343). -/
def quotaIn (b : List Byte) (p : Plan) (r : PlacedReplica) : Nat :=
  let as := actorsOn p r.die r.pos
  nth (quotasOf b as) (as.idxOf r.actor) 0

/-- Whether the quotas on every element fit in its 64 entries. -/
def quotasFit (b : List Byte) (p : Plan) : Bool :=
  p.replicas.all fun r => (quotasOf b (actorsOn p r.die r.pos)).sum ≤ 64

/-- Whether a plan places every replica, node and memory actor of a load once, and nothing else. -/
def planWhole (b : List Byte) (load : Nat) (p : Plan) : Bool :=
  let want := (ofLoad b 3 load).flatMap fun i => (List.range (imgActor b i).replicas).map fun r => (i, r)
  want.length = p.replicas.length && (want.all fun x => p.replicas.any fun r => r.actor = x.1 && r.replica = x.2) &&
    (ofLoad b 5 load).length = p.nodes.length && ((ofLoad b 5 load).all fun i => p.nodes.any fun n => n.node = i) &&
    (ofLoad b 6 load).length = p.mas.length && (ofLoad b 6 load).all fun i => p.mas.any fun m => m.ma = i

/-- Whether a node, and a memory actor, stand where they may. -/
def State.nodeGood (s : State) (rect : Rect) (dies : List Nat) (n : PlacedNode) : Bool :=
  dies.contains n.die && n.unit < 1600 && rectHolds rect n.die (n.unit / 4) && s.liveRouter { die := n.die, plot := n.unit / 4 }
def maSuits (b : List Byte) (dies : List Nat) (m : PlacedMa) : Bool :=
  dies[(imgMa b m.ma).die]? = some m.die && m.slot < 64

/-- Whether no other colour has the slot of a memory actor now. -/
def State.slotFree (s : State) (colour : Nat) (m : PlacedMa) : Bool :=
  let x := s.ma (maKey m.die m.slot)
  x.colour = colour || (x.st = .unconfigured && !x.stagedValid && !x.saved)

/-! ## Endpoints of channels under a plan -/

/-- Region die of a channel's headgate or outfall. -/
def chanDie (b : List Byte) (dies : List Nat) (c : Nat) : Nat := nth dies (imgChan b c).die 0

/-- Replicas of an actor in replica order. -/
def replicasIn (p : Plan) (actor count : Nat) : List PlacedReplica :=
  (List.range count).filterMap fun r => p.replicas.find? fun x => x.actor = actor && x.replica = r

/-- Sources of a channel, with the replica index of an actor's. -/
def chanSources (b : List Byte) (dies : List Nat) (p : Plan) (c : Nat) : List (Source × Nat) :=
  let x := imgChan b c
  (if x.hg = 0xFF then [] else [({ die := chanDie b dies c, kind := .headgate, pos := x.hg, out := 0 }, 0)]) ++
  ((ofLoad b 3 x.load).flatMap fun i =>
    let a := imgActor b i
    (placesOf a.outch c).flatMap fun o => (replicasIn p i a.replicas).map fun r =>
      ({ die := r.die, kind := .element, pos := r.pos, out := o }, r.replica)) ++
  (p.nodes.flatMap fun n => (placesOf (imgNode b n.node).outs c).map fun o =>
    ({ die := n.die, kind := .node, pos := n.unit, out := o }, 0)) ++
  (p.mas.flatMap fun m => ((List.range 2).filter fun o => nth (imgMa b m.ma).chans (nth maOutPlaces o 0) noChan = c).map fun o =>
    ({ die := m.die, kind := .memActor, pos := m.slot, out := o }, 0))

/-- Input numbers of a memory actor (14 R387), by the places of its record. -/
def maInputOf (place : Nat) : Nat :=
  match place with
  | 0 => 0
  | 2 => 1
  | 3 => 2
  | 4 => 3
  | _ => 4

/-- Consumers of a channel in replica order. -/
def chanDests (b : List Byte) (dies : List Nat) (p : Plan) (c : Nat) : List Dest :=
  let x := imgChan b c
  ((ofLoad b 3 x.load).flatMap fun i =>
    let a := imgActor b i
    ((actorIns a).filter fun n => nth a.inch n noChan = c).flatMap fun n => (replicasIn p i a.replicas).map fun r =>
      { die := r.die, kind := .element, pos := r.pos, din := n }) ++
  (p.nodes.flatMap fun n => (placesOf (imgNode b n.node).ins c).map fun i =>
    { die := n.die, kind := .node, pos := n.unit, din := i }) ++
  (p.mas.flatMap fun m => (maInPlaces.filter fun n => nth (imgMa b m.ma).chans n noChan = c).map fun n =>
    { die := m.die, kind := .memActor, pos := m.slot, din := maInputOf n }) ++
  (if x.outfall = 0xFF then [] else [{ die := chanDie b dies c, kind := .outfall, pos := x.outfall, din := 0 }])

/-- Flume space on a die of the channels that stand there already, among those that count. -/
def State.flumeUsed (s : State) (d : Nat) (counts : Depth → Bool) : Nat :=
  ((s.depths.filter fun x => x.die = d && counts x).map fun x => flumeOf x.depth).sum

/-- Whether the flume space of the channels with a consumer on a die fits there, beside that of those that count. -/
def State.flumesFit (s : State) (b : List Byte) (load : Nat) (dies : List Nat) (p : Plan) (counts : Depth → Bool) : Bool :=
  dies.all fun d =>
    s.flumeUsed d counts +
      (((ofLoad b 4 load).filter fun c => (chanDests b dies p c).any fun x => x.die = d).map fun c =>
        flumeOf (imgChan b c).depth).sum ≤ flumeBytes

/-- Whether the depth of a channel is one of another load of the colour; and whether it is one of another launch that holds
its region, whose tokens stand in the flume (a saved launch's stand in the spillway). -/
def ownOther (colour load : Nat) (x : Depth) : Bool := x.colour = colour && x.load.any fun k => loadNumber k ≠ load
def State.ofOthers (s : State) (colour : Nat) (x : Depth) : Bool :=
  x.colour ≠ colour && !(s.launches.any fun l => l.colour = x.colour && l.st = .saved)

/-- A sluice holds 16 pools (Table 14-6). -/
def poolSlots : Nat := 16

/-- Whether each region die has slots for the pools that the image names there. -/
def poolsFit (b : List Byte) (dies : List Nat) : Bool :=
  (List.range dies.length).all fun d => (imgPools b).countP (fun x => x.die = d) ≤ poolSlots

/-- Whether a plan meets every condition of R318 and R319 for a load in a rectangle, what other launches hold apart. -/
def State.planRules (s : State) (b : List Byte) (colour load : Nat) (rect : Rect) (dies : List Nat) (p : Plan) : Bool :=
  planWhole b load p && p.replicas.all (s.replicaGood b rect dies) && pairwiseAll (replicasAgree b) p.replicas &&
    quotasFit b p && (dieIndexRefused b load dies.length).isNone && p.nodes.all (s.nodeGood rect dies) &&
    pairwiseAll (fun (x y : PlacedNode) => x.die ≠ y.die || x.unit ≠ y.unit) p.nodes &&
    p.mas.all (maSuits b dies) && pairwiseAll (fun (x y : PlacedMa) => x.die ≠ y.die || x.slot ≠ y.slot) p.mas &&
    poolsFit b dies && s.flumesFit b load dies p (ownOther colour load)

/-- Whether a plan can be had now: the slots of its memory actors and the flume space are free of other launches. -/
def State.planGood (s : State) (b : List Byte) (colour load : Nat) (rect : Rect) (dies : List Nat) (p : Plan) : Bool :=
  s.planRules b colour load rect dies p && p.mas.all (s.slotFree colour) &&
    s.flumesFit b load dies p fun x => ownOther colour load x || s.ofOthers colour x

/-! ## Whether any placement exists -/

/-- Addresses and bitmap addresses that a replica of an actor may have. -/
def blobAddrs (a : ActorRec) : List Nat := (List.range (2 ^ 16 / 2 ^ a.balign)).map fun n => n * 2 ^ a.balign
def bitmapAddrs (a : ActorRec) : List Nat := if a.w = 0 then [0] else (List.range 8192).map (8 * ·)

/-- The least free slot of an element under the replicas placed so far. -/
def leastSlot (l : List PlacedReplica) (die pos : Nat) : Nat :=
  (((List.range 8).find? fun n => !(l.any fun r => r.die = die && r.pos = pos && r.slot = n))).getD 8

/-- Whether the nodes left can be placed and the whole plan be good. -/
def State.placeNodes (s : State) (good : Plan → Bool) (rect : Rect) (dies : List Nat) (p : Plan) : List Nat → Bool
  | [] => good p
  | i :: t =>
    dies.any fun d => (List.range 1600).any fun u =>
      let n : PlacedNode := { node := i, die := d, unit := u }
      s.nodeGood rect dies n && s.placeNodes good rect dies { p with nodes := p.nodes ++ [n] } t

/-- Whether the replicas left can be placed, with what follows. -/
def State.placeReplicas (s : State) (b : List Byte) (rect : Rect) (dies : List Nat) (rest : Plan → Bool) (p : Plan) :
    List (Nat × Nat) → Bool
  | [] => rest p
  | (i, r) :: t =>
    let a := imgActor b i
    dies.any fun d => (List.range 6400).any fun pos => s.liveElem d pos && rectHolds rect d (pos / 16) &&
      (blobAddrs a).any fun addr => (bitmapAddrs a).any fun bm =>
        let x : PlacedReplica :=
          { actor := i, replica := r, die := d, pos := pos, slot := leastSlot p.replicas d pos, addr := addr, bitmap := bm }
        s.replicaGood b rect dies x && p.replicas.all (replicasAgree b x) &&
          s.placeReplicas b rect dies rest { p with replicas := p.replicas ++ [x] } t

/-- Slots for the memory actors of a load, in rising order on each die, among those that may be had; none where a die has
too few. -/
def placeMas (b : List Byte) (dies : List Nat) (may : PlacedMa → Bool) : List Nat → List PlacedMa → Option (List PlacedMa)
  | [], acc => some acc
  | i :: t, acc =>
    let d := nth dies (imgMa b i).die 64
    match (List.range 64).find? fun n =>
        maSuits b dies { ma := i, die := d, slot := n } && may { ma := i, die := d, slot := n } &&
          !(acc.any fun m => m.die = d && m.slot = n) with
    | none => none
    | some n => placeMas b dies may t (acc ++ [{ ma := i, die := d, slot := n }])

/-- Whether some plan is good, with slots for its memory actors among those that may be had. -/
def State.somePlan (s : State) (b : List Byte) (load : Nat) (rect : Rect) (dies : List Nat) (may : PlacedMa → Bool)
    (good : Plan → Bool) : Bool :=
  match placeMas b dies may (ofLoad b 6 load) [] with
  | none => false
  | some mas =>
    let want := (ofLoad b 3 load).flatMap fun i => (List.range (imgActor b i).replicas).map fun r => (i, r)
    s.placeReplicas b rect dies (fun p => s.placeNodes good rect dies p (ofLoad b 5 load))
      { replicas := [], nodes := [], mas := mas } want

/-- Whether some plan meets the rules of placement, and whether one can be had now (13 R332: a launch that only others keep
from its place waits). -/
def State.canPlace (s : State) (b : List Byte) (colour load : Nat) (rect : Rect) (dies : List Nat) : Bool :=
  s.somePlan b load rect dies (fun _ => true) (s.planRules b colour load rect dies)
def State.canPlaceNow (s : State) (b : List Byte) (colour load : Nat) (rect : Rect) (dies : List Nat) : Bool :=
  s.somePlan b load rect dies (s.slotFree colour) (s.planGood b colour load rect dies)

/-! ## LOAD_RELOC (R310, 05 R150) -/

/-- The offset of an actor's blob in the image. -/
def blobOffset (b : List Byte) (a : ActorRec) : Nat := (imgFind b 9).off + a.blob

/-- The immediate of the LIX at an offset of an image (06 R166). -/
def lixImm (b : List Byte) (off : Nat) : Nat := leAt b off 2 * 2 ^ 28 + leAt b (off + 4) 4 % 2 ^ 28

/-- Whether an I-form instruction reads its imm16 as an unsigned number: ANDI, ORI and XORI (06 R161, Table 6-2). -/
def unsignedImm (w : Nat) : Bool := let major := w / 2 ^ 26 % 64; major = 0x02 || major = 0x03 || major = 0x04

/-- The field of a relocation at an offset of an image, as the instruction reads it (06 R161, R166): imm16, or the signed
immediate of LIX. -/
def relocField (b : List Byte) (kind off : Nat) : Int :=
  if kind = 0 then
    if unsignedImm (leAt b off 4) then (leAt b off 2 : Nat) else (BitVec.ofNat 16 (leAt b off 2)).toInt
  else (BitVec.ofNat 44 (lixImm b off)).toInt

/-- Whether a number fits the field of a relocation: an address of imm16 lies below 2^15 (Table 5-6), and a negative sum fits as
the field is signed (L60). -/
def relocFits (kind : Nat) (v : Int) : Bool :=
  let n := if kind = 0 then 15 else 43
  v < 2 ^ n && -(2 ^ n) ≤ v

/-- Whether a relocation lies outside its actor's code, or its result does not fit. -/
def relocRefused (b : List Byte) (p : Plan) (n : Nat) : Bool :=
  let r := imgReloc b n
  let a := imgActor b r.actor
  a.codelen < r.off + (if r.kind = 0 then 4 else 8) ||
    p.replicas.any fun x => x.actor = r.actor && !relocFits r.kind (x.addr + relocField b r.kind (blobOffset b a + r.off))

/-- The first relocation of a load that a plan cannot satisfy. -/
def checkRelocs (b : List Byte) (load : Nat) (p : Plan) : Option Refused :=
  firstOf ((List.range (imgCount b 10)).flatMap fun n =>
    onOne lReloc oRecord n ((imgActor b (imgReloc b n).actor).load = load && relocRefused b p n))

end Sys2Proof.Machine
end

