-- ==== Sys2Proof/Machine/Loader.lean ====
section
/-! DEFINITION. The loader (12 R310, R311, R321; 13 R330, R334 to R338, R341, R343; 14 R378; 15 R420, R424): what it writes
for a load, into the active bank at a launch and into the staged bank for the load that follows, and LOADER_WAKE. -/

namespace Sys2Proof.Machine

/-! ## Code and data (R310, R321) -/

/-- Bytes put into a list at an offset. -/
def replaceAt (l : List Byte) (off : Nat) (v : List Byte) : List Byte := l.take off ++ v ++ l.drop (off + v.length)

/-- A blob with one relocation written for its placement address. -/
def relocate (addr : Nat) (l : List Byte) (r : RelocRec) : List Byte :=
  let sum : Int := addr + relocField l r.kind r.off
  if r.kind = 0 then replaceAt l r.off (natToBytes (BitVec.ofInt 16 sum).toNat 2)
  else
    let v := (BitVec.ofInt 44 sum).toNat
    replaceAt (replaceAt l r.off (natToBytes (v / 2 ^ 28) 2)) (r.off + 4)
      (natToBytes (leAt l (r.off + 4) 4 / 2 ^ 28 * 2 ^ 28 + v % 2 ^ 28) 4)

/-- The blob of an actor as placed at an address. -/
def placedBlob (b : List Byte) (actor addr : Nat) : List Byte :=
  let a := imgActor b actor
  ((imgRelocs b).filter fun r => r.actor = actor).foldl (relocate addr) ((b.drop (blobOffset b a)).take a.bloblen)

/-- Constant words 0 to 239 of a load, 960 bytes. -/
def constBytes (b : List Byte) (load : Nat) : List Byte :=
  (List.range 240).flatMap fun k =>
    natToBytes ((((imgConsts b).find? fun x => x.load = load && x.word = k).map ConstRec.value).getD 0) 4

/-! ## Configuration blocks (14 Table 14-8, 13 R343) -/

/-- Fields of a replica's slot and ports. -/
def replicaFields (b : List Byte) (p : Plan) (r : PlacedReplica) : Fields :=
  let a := imgActor b r.actor
  let o := 32 * r.slot
  [(o, r.addr + a.arm0, 2), (o + 2, r.addr + a.arm1, 2), (o + 4, r.addr, 2), (o + 6, r.addr + a.codelen - 1, 2),
   (o + 8, a.steps, 4), (o + 12, a.deflimit, 4), (o + 16, r.replica, 4), (o + 20, a.replicas, 4),
   (o + 24, quotaIn b p r, 1), (o + 25, 1 + 2 * flag a.urgent + 4 * flag (orderedActor b a), 1), (o + 26, a.e, 1),
   (o + 27, a.retport, 1), (o + 28, a.w, 4), (352 + 4 * r.slot, if a.w = 0 then 0 else r.bitmap, 4)] ++
  ((actorIns a).map fun n => (256 + 4 * n, r.slot + 8 * nth a.inmode n 0 +
      (if nth a.inmode n 0 = inMatch then 32 * ((matchPorts a).idxOf n % 4) else 0), 4)) ++
  ((actorOuts a).map fun n => (288 + 4 * n, r.slot + 8, 4))

/-- Replicas of a plan on an element, and the elements of a plan. -/
def replicasOn (p : Plan) (die pos : Nat) : List PlacedReplica := p.replicas.filter fun r => r.die = die && r.pos = pos
def planElems (p : Plan) : List (Nat × Nat) :=
  p.replicas.foldl (fun l r => if l.contains (r.die, r.pos) then l else l ++ [(r.die, r.pos)]) []

/-- The configuration block of an element. -/
def planBlock (b : List Byte) (p : Plan) (die pos : Nat) : Mem :=
  fieldsMem ((replicasOn p die pos).flatMap (replicaFields b p))

/-- A node configuration. -/
def nodeConfig (n : NodeRec) : DWord := BitVec.ofNat 64 (n.kind + 4 * n.d)

/-! ## Channels and spillway areas (14 R387, R388; 15 R424) -/

/-- Spillway units that a channel of an image needs (R424). -/
def chanUnits (b : List Byte) (c : Nat) : Nat := areaUnits (imgChan b c).depth (producerPorts b c)

/-- Channels of a load with a consumer on a die. -/
def chansOn (b : List Byte) (load : Nat) (dies : List Nat) (p : Plan) (die : Nat) : List Nat :=
  (ofLoad b 4 load).filter fun c => (chanDests b dies p c).any fun x => x.die = die

/-- Whether the spillways have the room that a load needs. -/
def State.spillRoom (s : State) (b : List Byte) (load : Nat) (dies : List Nat) (p : Plan) : Bool :=
  dies.all fun d =>
    (s.spillFree d + ((chansOn b load dies p d).map (chanUnits b)).sum) * 65536 ≤ (s.ctrl d).spsize.toNat

/-- Setting the depths of a load's channels on a die, one area after another. -/
def State.setDepths (s : State) (b : List Byte) (colour : Nat) (load : Option Nat) (die off : Nat) : List Nat → State
  | [] => s
  | c :: t =>
    let x := imgChan b c
    let s := s.setDepth
      { die := die, colour := colour, chan := c, load := load, depth := x.depth, spillable := x.spillable, offset := off }
    s.setDepths b colour load die (off + chanUnits b c) t

/-- The destinations of a source: under the pairing of 02 R29 the replica of its own index, otherwise all. -/
def destsFor (b : List Byte) (dies : List Nat) (p : Plan) (c : Nat) (x : Source × Nat) : List Dest :=
  let ds := chanDests b dies p c
  if isOrdered b c && 1 < ds.length then (ds.drop x.2).take 1 else ds

/-- Binding every channel of a load. -/
def State.bindLoad (s : State) (b : List Byte) (colour : Nat) (load : Option Nat) (dies : List Nat) (p : Plan)
    (cs : List Nat) : State :=
  cs.foldl (fun t c => (chanSources b dies p c).foldl (fun t x =>
    (destsFor b dies p c x).foldl (fun t d =>
      t.bindChan x.1 load colour c ((chanKind (imgChan b c).kind).getD .tagged) d) t) t) s

/-- Bindings, depths and areas of a load. -/
def State.writeChans (s : State) (b : List Byte) (colour load : Nat) (bank : Option Nat) (dies : List Nat) (p : Plan) : State :=
  let t := s.bindLoad b colour bank dies p (ofLoad b 4 load)
  dies.foldl (fun t d => t.setDepths b colour bank d (s.spillFree d) (chansOn b load dies p d)) t

/-! ## The first load of a launch (R335, 15 R420) -/

/-- Element memory at a launch: constants, zero, and the blobs. -/
def launchMemory (b : List Byte) (load : Nat) (p : Plan) (die pos : Nat) : Mem :=
  (replicasOn p die pos).foldl (fun m r => Memory.writeBytes m r.addr (placedBlob b r.actor r.addr))
    (Memory.writeBytes [] 0 (constBytes b load))
def launchDirty (b : List Byte) (p : Plan) (die pos : Nat) : List Nat :=
  (replicasOn p die pos).foldl (fun l r => markDirty l r.addr (imgActor b r.actor).bloblen) []

/-- Every element of the region as a launch finds it: zero, with the constants of the load (R220), and the blobs of the actors
that it takes. -/
def launchElement (b : List Byte) (colour load : Nat) (p : Plan) (die pos : Nat) (e : Element) : Element :=
  { Element.reset with
    mem := launchMemory b load p die pos, active := planBlock b p die pos, colour := colour
    dirty := launchDirty b p die pos, pend := e.pend }

/-- Writing the elements, nodes, memory actors and pools of a launch. -/
def State.writeElems (s : State) (b : List Byte) (colour load : Nat) (dies : List Nat) (p : Plan) : State :=
  dies.foldl (fun t d => (t.regionElems d colour).foldl (fun u pos =>
    u.setElem (elemKey d pos) (launchElement b colour load p d pos (u.elem (elemKey d pos)))) t) s
def State.writeNodes (s : State) (b : List Byte) (colour : Nat) (p : Plan) : State :=
  p.nodes.foldl (fun t n =>
    t.setNode (nodeKey n.die n.unit) { Node.reset with active := nodeConfig (imgNode b n.node), colour := colour }) s
def State.writeMas (s : State) (b : List Byte) (colour : Nat) (staged : Bool) (p : Plan) : State :=
  p.mas.foldl (fun t m => t.mapMa m.die m.slot (setBlock staged (blockMem (imgMa b m.ma).operand) colour)) s

/-- The slots of a die's sluice that hold no pool, saved colours' pools included among those that do (15 R425). -/
def State.freePools (s : State) (d : Nat) : List Nat := ((List.range poolSlots).map (d * 16 + ·)).filter fun k => !(s.pool k).valid

/-- Whether the sluices have slots for the pools of an image. -/
def State.poolsRoom (s : State) (b : List Byte) (dies : List Nat) : Bool :=
  dies.all fun d => ((imgPools b).countP fun x => nth dies x.die 64 = d) ≤ (s.freePools d).length

/-- Each pool takes the least free slot of its die's sluice. -/
def State.writePools (s : State) (b : List Byte) (colour : Nat) (dies : List Nat) : State :=
  (imgPools b).foldl (fun t x =>
    match (t.freePools (nth dies x.die 64)).head? with
    | none => t
    | some k => t.setPool k { Pool.reset with valid := true, colour := colour, base := x.base, size := x.size }) s

/-- Whether a granule of an image cannot be read from the configuration store. -/
def State.imageBad (s : State) (l : Launch) : Bool :=
  s.storeBad (Config.storeBase l.image l.gen) (s.imageOf l.colour).length

/-- The first load written and committed; its memory actors start. -/
def State.writeLaunch (s : State) (l : Launch) (b : List Byte) (p : Plan) : State :=
  let s := ((s.writeElems b l.colour l.load l.dies p).writeNodes b l.colour p).writeMas b l.colour false p
  let s := (s.writePools b l.colour l.dies).writeChans b l.colour l.load none l.dies p
  let s := l.dies.foldl (fun t d => t.commitLoad d l.colour l.load (t.regionElems d l.colour) false) s
  let s := p.mas.foldl (fun t m => t.runMa m.die m.slot) s
  s.mapLaunch l.colour fun l => { l with st := .active, plan := p, absent := false }

/-! ## The load that follows (R337, R338; 14 R379) -/

/-- Where the firmware stages an element's image, and the constants of a load of a colour (L36). -/
def stageOffset (pos : Nat) : Nat := 40960 * pos
def constOffset (colour : Nat) : Nat := 262144000 + 1024 * colour

/-- The image of an element from the end of the constant window on, to a multiple of 8 bytes. -/
def stagedImage (b : List Byte) (p : Plan) (die pos : Nat) : List Byte :=
  let rs := replicasOn p die pos
  let last := rs.foldl (fun n r => Nat.max n (r.addr + (imgActor b r.actor).bloblen)) constEnd
  let m := rs.foldl (fun m r => Memory.writeBytes m r.addr (placedBlob b r.actor r.addr)) []
  Memory.readBytes m constEnd ((last - constEnd + 7) / 8 * 8)

/-- The image of one element in the staging area, and where it waits. -/
def State.stageImage (s : State) (b : List Byte) (p : Plan) (die pos : Nat) : State :=
  let img := stagedImage b p die pos
  let s := s.physWrite (s.control die (stageOffset pos)) img
  s.setElem (elemKey die pos) { s.elem (elemKey die pos) with imgDesc := some (stageOffset pos, img.length) }

/-- Staging one element. -/
def State.stageElem (s : State) (b : List Byte) (p : Plan) (die pos : Nat) : State :=
  let s := s.stageImage b p die pos
  s.setElem (elemKey die pos) { s.elem (elemKey die pos) with staged := planBlock b p die pos }

/-- The constants of a load in the staging area of a die, for every element of the region (07 R220). -/
def State.stageConsts (s : State) (b : List Byte) (colour load d : Nat) : State :=
  (s.physWrite (s.control d (constOffset colour)) (constBytes b load)).mapElems d
    (fun e => { e with constDesc := some (constOffset colour) }) (s.regionElems d colour)

/-- The staged banks of a load, written: elements with their images, nodes and memory actors. -/
def State.stageBanks (s : State) (l : Launch) (b : List Byte) (p : Plan) : State :=
  let s := (planElems p).foldl (fun t x => t.stageElem b p x.1 x.2) s
  let s := p.nodes.foldl (fun t n =>
    t.setNode (nodeKey n.die n.unit) { t.node (nodeKey n.die n.unit) with
      staged := nodeConfig (imgNode b n.node), stagedValid := true, colour := l.colour }) s
  s.writeMas b l.colour true p

/-- Staging a load on every compute die of the region, and closing the staging. An image that cannot be read is a
configuration fetch fault (R337). -/
def State.stageLoad (s : State) (l : Launch) (b : List Byte) (load : Nat) (p : Plan) : State :=
  if s.imageBad l then s.countStore.fetchFault l.die0 l.colour
  else
  let s := l.dies.foldl (fun t d => (t.openStaging d l.colour load).stageConsts b l.colour load d) s
  let s := (s.stageBanks l b p).writeChans b l.colour load (some (nextKey l load)) l.dies p
  let s := l.dies.foldl (fun t d => t.setStaging d l.colour { t.staging d l.colour with isOpen := false, closed := true }) s
  s.mapLaunch l.colour fun l => { l with nextPlan := p }

/-- Whether the load that follows is known: selected, or no control channel of the present load can still select. -/
def State.successorKnown (s : State) (l : Launch) : Bool :=
  l.select ≠ .default ||
    !(s.chans.any fun c => c.colour = l.colour && c.load = some l.load && s.isControl c && !s.chanEnded c)

/-- Whether a load, by its key, is staged whole on every die of a region. -/
def State.stagedAll (s : State) (l : Launch) (load : Nat) : Bool :=
  l.dies.all fun d => let g := s.staging d l.colour; g.closed && !g.isOpen && g.load = load

/-- The region checks of a load on a region, but for the relocations (R311). -/
def State.regionRefused (s : State) (l : Launch) (b : List Byte) (load : Nat) : Option Refused :=
  dieIndexRefused b load l.dies.length <|> s.portRefused b load l.dies

/-- A launch refused: its headgates discard what they hold (R341). -/
def State.refuse (s : State) (colour : Nat) (r : Refused) : State :=
  (s.idleGates colour).mapLaunch colour (finishing 1 r.words)

/-- The refusal that a launch ends with when no placement meets R318. -/
def placeRefused (load : Nat) : Refused := { code := lPlace, kind := oLoad, index := load, second := 0 }

/-- Why a load cannot be placed under a plan: none where it can; `wait` where another plan could. -/
inductive Fit where
  | good
  | wait
  | refused (r : Refused)
deriving DecidableEq, Repr

/-- Whether anything of an earlier load of the bank and number that a load is staged under is still under way (L54). -/
def State.leftOver (s : State) (l : Launch) (load : Nat) : Bool :=
  let key := some (nextKey l load)
  l.st = .active && ((s.packets.any fun p => p.colour = l.colour && p.load = key) ||
    s.chans.any fun c => c.colour = l.colour && c.load = key && !c.empty)

/-- Whether a load fits in a granted region under a plan (R311, R318, R310). -/
def State.fit (s : State) (l : Launch) (b : List Byte) (load : Nat) (p : Plan) : Fit :=
  match l.rect, s.regionRefused l b load with
  | none, _ => .wait
  | some _, some r => .refused r
  | some rect, none =>
    if s.leftOver l load then .wait
    else if s.planGood b l.colour load rect l.dies p then
      match checkRelocs b load p with
      | some r => .refused r
      | none => if s.spillRoom b load l.dies p then .good else .wait
    else if s.canPlace b l.colour load rect l.dies then .wait
    else .refused (placeRefused load)

/-- The loader at work for an active launch: it ends a switch that is done once the launch has gone on to its load, arms one
that is due, stages the load that follows, or gives up a staging that no load follows. A load that cannot be staged ends the
launch once its turn comes. -/
def State.wakeActive (s : State) (l : Launch) (b : List Byte) (p : Plan) : State :=
  if l.dies.any fun d => s.armedAt d l.colour then
    if l.dies.all fun d => (s.staging d l.colour).load = l.load && s.allSwitched d l.colour l.load then
      l.dies.foldl (fun t d =>
        let g := t.staging d l.colour
        t.setStaging d l.colour { Staging.reset with weir := g.weir, drained := g.drained, area := g.area }) s
    else s
  else
    match nextLoad l (imgLoads b) with
    | some (some n) =>
      if s.stagedAll l (nextKey l n) then
        if s.successorKnown l then l.dies.foldl (fun t d => t.armSwitch d l.colour) s else s
      else if s.switching l (nextKey l n) then s
      else
        match s.fit l b n p with
        | .good => s.stageLoad l b n p
        | .wait => s
        | .refused r => if s.successorKnown l && s.loadDone l then s.refuse l.colour r else s
    | _ =>
      l.dies.foldl (fun t d =>
        let g := t.staging d l.colour
        if g.isOpen || g.closed then t.dropStaging d l.colour g.load else t) s

/-! ## LOADER_WAKE (R330) -/

/-- The refusal of a launch whose region cannot exist (R319, R332): no rectangle holds its dies, or none with enough
compute dies, or none on which its first load can be placed. -/
def State.regionImpossible (s : State) (l : Launch) (b : List Byte) : Option Refused :=
  let rs := s.candidates l
  let most := rs.foldl (fun n r => Nat.max n (s.rectDies r l.die0).length) 0
  let image : Refused := { code := lRegion, kind := oImage, index := 0, second := 0 }
  if rs = [] then some image
  else
    match dieIndexRefused b (loadNumber l.load) most with
    | some r => some r
    | none =>
      if rs.any fun r => s.canPlace b l.colour (loadNumber l.load) r (s.rectDies r l.die0) then none
      else some (if freeSize b then image else placeRefused l.load)

/-- Whether the counts of the colours that last held the region's plots read zero (R334). -/
def State.regionQuiet (s : State) (l : Launch) : Bool :=
  l.dies.all fun d => (s.regionPlots d l.colour).all fun p =>
    match (s.plot (d * 400 + p)).lastColour with
    | none => true
    | some c => c = l.colour || s.inFlight c = 0

/-- Whether nothing of an earlier launch is still under way in the region's elements. -/
def State.regionStill (s : State) (l : Launch) : Bool :=
  l.dies.all fun d => (s.regionElems d l.colour).all fun p => unitsQuiet (s.elem (elemKey d p))

/-- The loader at work for a waiting launch. -/
def State.wakeWaiting (s : State) (l : Launch) (b : List Byte) (p : Plan) : State :=
  match l.rect with
  | none =>
    match s.regionImpossible l b with
    | some r => s.refuse l.colour r
    | none => s
  | some _ =>
    match s.fit l b (loadNumber l.load) p with
    | .refused r => s.refuse l.colour r
    | .wait => s
    | .good =>
      if !(s.regionQuiet l && s.regionStill l && s.poolsRoom b l.dies) then s
      else if s.imageBad l then s.countStore.fetchFault l.die0 l.colour
      else s.writeLaunch l b p

def execLoaderWake (colour : Nat) (plan : Plan) (s : State) : Out :=
  match s.launch colour with
  | none => .next s
  | some l =>
    if !s.loaderRuns then .next s
    else
    match l.st with
    | .waiting => .next (s.wakeWaiting l (s.imageOf colour) plan)
    | .active => .next (s.wakeActive l (s.imageOf colour) plan)
    | .cutting | .saved | .finishing | .ended => .next s

end Sys2Proof.Machine
end

