-- ==== Sys2Proof/Machine/Eolo.lean ====
section
/-! DEFINITION. The Eolo transport (16 R431 to R439, R445, R446): which frames the headworks discards, sequence and
acknowledgement, replies and events, the journal, and the shape that every request shares. -/

namespace Sys2Proof.Machine

/-! ## Sessions -/

/-- An open session. -/
def State.session (s : State) (num : Nat) : Option Session := s.hw.sessions.find? fun x => x.num = num

/-- Changing a session. -/
def State.mapSession (s : State) (num : Nat) (f : Session → Session) : State :=
  { s with hw := { s.hw with sessions := s.hw.sessions.map fun x => if x.num = num then f x else x } }

/-- Closing a session; it ends no launch (R436). -/
def State.closeSession (s : State) (num : Nat) : State :=
  { s with hw := { s.hw with sessions := s.hw.sessions.filter fun x => x.num ≠ num } }

/-- Whether a session may act for a colour. -/
def Session.may (x : Session) (colour : Nat) : Bool := x.mask.getLsbD colour

/-- The lowest-numbered open session whose mask holds a colour. -/
def State.lowestSession (s : State) (colour : Nat) : Option Nat :=
  (s.hw.sessions.filter (Session.may · colour)).foldl
    (fun m x => match m with
      | some n => some (Nat.min n x.num)
      | none => some x.num) none

/-! ## Frames (R431, R432) -/

/-- Words and fields of a body. -/
def bodyWord (f : Frame) (n : Nat) : Nat := leAt f.body (8 * n) 8
def bodyBytes (n : Nat) (v : Nat) : List Byte := natToBytes v n
def wordBytes (v : Nat) : List Byte := natToBytes v 8

/-- Largest body of a frame, and the window that the headworks advertises. -/
def maxBody : Nat := 8192
def hostWindow : Nat := 256

/-- Bytes of a frame from the destination MAC through the FCS; an Ethernet frame has at least 64. -/
def frameBytes (c : Carrier) (n : Nat) : Nat :=
  Nat.max 64 (14 + 32 + n + 4 +
    match c with
    | .ethernet _ tags => 4 * tags
    | .udp4 _ _ _ => 28
    | .udp6 _ _ => 48)

/-- The carrier of a frame that the headworks sends: no fragment, with the IPv4 DF bit (R431). -/
def leaving : Carrier → Carrier
  | .ethernet ty tags => .ethernet ty tags
  | .udp4 port _ _ => .udp4 port false true
  | .udp6 port _ => .udp6 port false

/-- A frame that the headworks sends; its acknowledgement is stamped as it leaves. -/
def outFrame (c : Carrier) (type code session : Nat) (rid : DWord) (more dup : Bool) (body : List Byte) : Frame :=
  { carrier := leaving c, size := frameBytes c body.length, source := 0, ver := 1, type := BitVec.ofNat 8 type
    flags := BitVec.ofNat 16 ((if more then 1 else 0) + (if dup then 2 else 0)), session := BitVec.ofNat 32 session
    seq := 0, ack := 0, window := BitVec.ofNat 16 hostWindow, code := BitVec.ofNat 16 code
    length := BitVec.ofNat 32 body.length, rid := rid, body := body }

/-- Whether a carrier is one of R431. -/
def State.carrierGood (s : State) (c : Carrier) : Bool :=
  match c with
  | .ethernet ty tags => ty = 0x88B6 && tags ≤ 1
  | .udp4 port frag _ => port = s.hw.udpPort && !frag
  | .udp6 port frag => port = s.hw.udpPort && !frag

/-! ## Bytes on the wire (00 R2, R431, R432) -/

/-- The 32 bytes of the Eolo header (Table 16-1), little-endian. -/
def headerBytes (f : Frame) : List Byte :=
  [f.ver, f.type] ++ natToBytes f.flags.toNat 2 ++ natToBytes f.session.toNat 4 ++ natToBytes f.seq.toNat 4 ++
    natToBytes f.ack.toNat 4 ++ natToBytes f.window.toNat 2 ++ natToBytes f.code.toNat 2 ++ natToBytes f.length.toNat 4 ++
    natToBytes f.rid.toNat 8

/-- A number in n bytes in network byte order. -/
def netBytes (v n : Nat) : List Byte := (natToBytes v n).reverse

/-- The fields of the standard headers that R431 speaks of, in the byte order of their standards: the EtherType; the flags and
fragment offset of IPv4; the destination port and length of UDP for a payload of n bytes. -/
def carrierBytes (n : Nat) : Carrier → List (List Byte)
  | .ethernet ty _ => [netBytes ty 2]
  | .udp4 port frag df =>
    [netBytes 0x0800 2, netBytes ((if df then 0x4000 else 0) + if frag then 0x2000 else 0) 2, netBytes port 2, netBytes (8 + n) 2]
  | .udp6 port _ => [netBytes 0x86DD 2, netBytes port 2, netBytes (8 + n) 2]

/-- The bytes of a frame behind the standard headers. -/
def payloadBytes (f : Frame) : List Byte := headerBytes f ++ f.body

/-- Whether a frame is one that the headworks reads at all: carrier, size, reserved fields, length (R431, R433). -/
def State.frameGood (s : State) (f : Frame) : Bool :=
  s.carrierGood f.carrier && f.size ≤ 9216 && f.type.toNat < 4 && f.flags.toNat < 4 && f.window.toNat ≤ hostWindow &&
    f.length.toNat = f.body.length && f.body.length % 8 = 0 && f.body.length ≤ maxBody

/-- Types of frames (Table 16-1). -/
def tRequest : Nat := 0
def tReply : Nat := 1
def tEvent : Nat := 2
def tAck : Nat := 3

/-- Whether a frame is a request of a code, and the kind byte of its first word. -/
def isRequest (code : Nat) (f : Frame) : Bool := f.type.toNat = tRequest && f.code.toNat = code
def kindByte (f : Frame) : Nat := bodyWord f 0 % 256

/-! ## Sending (R434, R435) -/

/-- A frame as it leaves: with the acknowledgement that holds now. -/
def stampFrame (x : Session) (f : Frame) : Frame := { f with ack := x.ack }

/-- Frames that the host's window lets go: those at most `window` beyond the first unacknowledged one. -/
def sendable (x : Session) : List Frame := (x.unacked.take (x.window + 1)).drop x.sent

/-- Sending what the window lets go. -/
def State.pump (s : State) (num : Nat) : State :=
  match s.session num with
  | none => s
  | some x =>
    let go := sendable x
    let t := s.mapSession num fun y => { y with sent := y.sent + go.length }
    { t with hw := { t.hw with outbox := t.hw.outbox ++ go.map (stampFrame x) } }

/-- Frames given their numbers. -/
def numberFrames (seq : Word) : List Frame → List Frame
  | [] => []
  | f :: t => { f with seq := seq } :: numberFrames (seq + 1) t

/-- A body cut into the bodies of frames. -/
def cutBody (b : List Byte) : Nat → List (List Byte)
  | 0 => []
  | n + 1 => if b.length ≤ maxBody then [b] else b.take maxBody :: cutBody (b.drop maxBody) n

/-- A body with zero bytes up to a multiple of 8, the unit of a frame's length (Table 16-1). -/
def wholeWords (body : List Byte) : List Byte := body ++ List.replicate ((8 - body.length % 8) % 8) 0

/-- The frames of a message, joined by `more`. -/
def messageFrames (c : Carrier) (type code session : Nat) (rid : DWord) (dup : Bool) (body : List Byte) : List Frame :=
  let body := wholeWords body
  let l := cutBody body (body.length / maxBody + 1)
  (List.zipIdx l).map fun x => outFrame c type code session rid (x.2 + 1 < l.length) dup x.1

/-- A message of a session: its frames wait for their acknowledgement, and leave as the window lets them. -/
def State.sendMessage (s : State) (num type code : Nat) (rid : DWord) (dup : Bool) (body : List Byte) : State :=
  match s.session num with
  | none => s
  | some x =>
    let fs := numberFrames x.seq (messageFrames x.carrier type code num rid dup body)
    (s.mapSession num fun y => { y with seq := y.seq + BitVec.ofNat 32 fs.length, unacked := y.unacked ++ fs }).pump num

/-- An acknowledgement of its own, which takes no number (L39). -/
def State.sendAck (s : State) (num : Nat) : State :=
  match s.session num with
  | none => s
  | some x =>
    let f := { outFrame x.carrier tAck 0 num 0 false false [] with seq := x.seq, ack := x.ack }
    { s with hw := { s.hw with outbox := s.hw.outbox ++ [f] } }

/-- The reply to a request: the status word, then data (R438). -/
def State.reply (s : State) (num : Nat) (f : Frame) (dup : Bool) (status : Nat) (data : List Byte) : State :=
  s.sendMessage num tReply f.code.toNat f.rid dup (wordBytes status ++ data)

/-- A reply outside a session: to a HELLO that is refused, and in recovery. -/
def State.replyLoose (s : State) (f : Frame) (status : Nat) : State :=
  let r := outFrame f.carrier tReply f.code.toNat f.session.toNat f.rid false false (wordBytes status)
  { s with hw := { s.hw with outbox := s.hw.outbox ++ [{ r with ack := f.seq + 1 }] } }

/-! ## Receiving (R433 to R435) -/

/-- The first frame of a session that the host has not acknowledged. -/
def firstUnacked (x : Session) : Word := x.seq - BitVec.ofNat 32 x.unacked.length

/-- The host's acknowledgement: frames that it names are done with; progress starts the count of retransmissions anew. -/
def ackedBy (f : Frame) (x : Session) : Session :=
  let n := (f.ack - firstUnacked x).toNat
  if n ≤ x.sent then
    { x with unacked := x.unacked.drop n, sent := x.sent - n, window := f.window.toNat,
             tries := if n = 0 then x.tries else 0 }
  else x

/-- Taking the acknowledgement of a frame, which may let more frames go. -/
def State.takeAck (s : State) (num : Nat) (f : Frame) : State := (s.mapSession num (ackedBy f)).pump num

/-- What a session does with a frame. -/
inductive Took where
  | discard
  | again
  | hold
  | take
deriving DecidableEq, Repr

/-- Where a frame stands in the sequence: next, ahead within the window, earlier, or beyond. A frame held under the same
number is the one that is taken. -/
def tookOf (x : Session) (f : Frame) : Took :=
  let d := (f.seq - x.ack).toNat
  if d = 0 then if x.held.any fun h => h.seq = f.seq && h ≠ f then .again else .take
  else if d ≤ hostWindow then
    if x.held.length < hostWindow && !(x.held.any fun h => h.seq = f.seq) then .hold else .again
  else if 2 ^ 31 ≤ d then .again
  else .discard

/-- A frame taken: the next number is expected. -/
def tookFrame (f : Frame) (x : Session) : Session := { x with ack := x.ack + 1, held := x.held.filter fun h => h.seq ≠ f.seq }

/-- The session that a frame is of, if the headworks does not discard it (R433). -/
def State.frameSession (s : State) (f : Frame) : Option Session :=
  if !s.frameGood f || f.ver ≠ 1 || s.hw.recovery then none else s.session f.session.toNat

/-- A frame in its session: taken, `act` follows; held, or acknowledged again, or discarded, nothing else does. -/
def State.inSession (s : State) (f : Frame) (act : Session → State → State) : State :=
  match s.frameSession f with
  | none => s
  | some x =>
    match tookOf x f with
    | .discard => s
    | .again => (s.takeAck x.num f).sendAck x.num
    | .hold => ((s.takeAck x.num f).mapSession x.num fun y => { y with held := y.held ++ [f] }).sendAck x.num
    | .take => act x (((s.takeAck x.num f).mapSession x.num (tookFrame f)).sendAck x.num)

/-- A meaning over the frames that are its own; another frame changes nothing (L11). -/
def onFrame (mine : Frame → Bool) (f : Frame) (s : State) (act : Session → State → State) : Out :=
  if mine f then .next (s.inSession f act) else .next s

/-! ## The journal (R445, R446) -/

/-- Entries that the ring holds. -/
def journalSize : Nat := 65536

/-- A list as its last n elements. -/
def lastOf {α : Type} (n : Nat) (l : List α) : List α := l.drop (l.length - n)

/-- A summary of 32 bytes. -/
def summaryOf (b : List Byte) : List Byte := (b ++ List.replicate 32 0).take 32

/-- The 64 bytes of an entry (Table 16-4). -/
def entryBytes (e : JEntry) : List Byte :=
  wordBytes e.jseq ++ bodyBytes 4 e.boot ++ bodyBytes 4 e.session ++ bodyBytes 4 e.seq.toNat ++ bodyBytes 2 e.code ++
    bodyBytes 2 e.status ++ wordBytes e.rid.toNat ++ e.summary

/-- Where the mirror of an entry stands in the die control space of L0; R445 gives no base (L61). -/
def mirrorAt (jseq : Nat) : Nat := paOf 3 0 0 (Config.journalBase + 64 * (jseq % journalSize))

/-- An entry written in both places: the ring, and its mirror in the die control space of L0. -/
def State.journal (s : State) (session : Nat) (seq : Word) (code status : Nat) (rid : DWord) (summary : List Byte) : State :=
  let e : JEntry :=
    { jseq := s.hw.jseq, boot := s.hw.boot, session := session, seq := seq, code := code, status := status, rid := rid,
      summary := summaryOf summary }
  let s := s.physWrite (mirrorAt s.hw.jseq) (entryBytes e)
  { s with hw := { s.hw with journal := lastOf journalSize (s.hw.journal ++ [e]), jseq := s.hw.jseq + 1 } }

/-- The entry that a request repeats. -/
def State.repeated (s : State) (f : Frame) : Option JEntry :=
  if f.rid = 0 then none else s.hw.journal.find? fun e => e.rid = f.rid && e.code = f.code.toNat

/-! ## Requests (R437 to R439) -/

/-- What a request comes to: status, reply data, the state. -/
structure Answer where
  status : Nat
  data : List Byte
  st : State

/-- Answers without data, and of a refusal by the loader. -/
def gives (status : Nat) (s : State) : Answer := { status := status, data := [], st := s }
def refuses (r : Refused) (s : State) : Answer :=
  { status := 6, data := wordBytes r.words.1.toNat ++ wordBytes r.words.2.toNat, st := s }

/-- The checks ahead of a request: encoding, then colour. -/
def checkFails (ok : Frame → Bool) (colour : Frame → Option Nat) (f : Frame) (x : Session) : Option Nat :=
  if !ok f then some 1
  else
    match colour f with
    | none => none
    | some c => if x.may c then none else some 2

/-- A request that is not journalled. -/
def plainRequest (mine ok : Frame → Bool) (colour : Frame → Option Nat) (f : Frame) (s : State)
    (act : Session → State → Answer) : Out :=
  onFrame mine f s fun x t =>
    match checkFails ok colour f x with
    | some n => t.reply x.num f false n []
    | none =>
      let a := act x t
      a.st.reply x.num f false a.status a.data

/-- The journalled part of a request: a repeated one is answered from its entry; another is performed, journalled and
answered (R439, R446). -/
def State.perform (s : State) (num : Nat) (f : Frame) (summary : Answer → List Byte) (act : State → Answer) : State :=
  match s.repeated f with
  | some e => s.reply num f true e.status []
  | none =>
    let a := act s
    (a.st.journal num f.seq f.code.toNat a.status f.rid (summary a)).reply num f false a.status a.data

/-- Whether a frame is one that its session takes now and whose request is then performed: its checks pass, and no entry
answers it. -/
def State.performsNow (s : State) (ok : Frame → Bool) (colour : Frame → Option Nat) (f : Frame) : Bool :=
  (s.frameSession f).any fun x => tookOf x f = .take && (checkFails ok colour f x).isNone && (s.repeated f).isNone

/-- A journalled request. One that fails its checks takes no entry. -/
def journalledRequest (mine ok : Frame → Bool) (colour : Frame → Option Nat) (summary : Frame → List Byte) (f : Frame)
    (s : State) (act : Session → State → Answer) : Out :=
  onFrame mine f s fun x t =>
    match checkFails ok colour f x with
    | some n => t.reply x.num f false n []
    | none => t.perform x.num f (fun _ => summary f) (act x)

/-! ## HELLO and BYE (R436) -/

/-- Sessions that may be open. -/
def maxSessions : Nat := 64

/-- The number of a new session: the next that no open session has. -/
def State.newNumber (s : State) : Nat :=
  (((List.range (maxSessions + 1)).map (s.hw.nextSession + ·)).find? fun n => (s.session n).isNone).getD s.hw.nextSession

/-- A FAULT event of a session (R444). -/
def recBytes (r : Rec) : List Byte :=
  wordBytes r.w0.toNat ++ wordBytes r.w1.toNat ++ wordBytes r.w2.toNat ++ wordBytes r.w3.toNat
def State.tellFault (s : State) (num : Nat) (r : Rec) : State := s.sendMessage num tEvent 0x81 0 false (recBytes r)

/-- Why a HELLO is refused. Nonzero bits [63:32] of its body give status 1: a reserved field of a request's body, where R433
speaks of a reserved field of the frame (L82). -/
def State.helloRefused (s : State) (f : Frame) : Option Nat :=
  let w := bodyWord f 0
  if s.hw.recovery then some 3
  else if f.body.length ≠ 8 || w / 2 ^ 32 ≠ 0 || 1 < w % 256 || w / 2 ^ 8 % 256 < 1 then some 1
  else if bitOf w 16 && !s.hw.part.mgmt.contains f.source then some 2
  else if maxSessions ≤ s.hw.sessions.length then some 3
  else none

/-- The session that a HELLO opens: it has taken frame 0. -/
def openedBy (f : Frame) (num : Nat) : Session :=
  { num := num, mask := BitVec.ofNat 16 (bodyWord f 0 / 2 ^ 16), seq := 0, ack := 1, window := f.window.toNat, held := [],
    unacked := [], sent := 0, tries := 0, source := f.source, carrier := f.carrier, imgLen := 0, img := [] }

/-- The words of QUERY kind 0 (R453), of which HELLO's reply has its own form. -/
def State.identityNat (s : State) : Nat := s.hw.part.identity % 16 + s.gradeWord * 2 ^ 32

/-- Opening a session: the reply, then the faults that are still unrepaired. -/
def State.openSession (s : State) (f : Frame) : State :=
  let num := s.newNumber
  let x := openedBy f num
  let s : State := { s with hw := { s.hw with sessions := s.hw.sessions ++ [x], nextSession := num + 1 } }
  let s := s.reply num f false 0 (wordBytes (num % 2 ^ 32 + s.hw.part.identity % 16 * 2 ^ 32) ++ wordBytes (s.hw.boot % 2 ^ 32))
  (s.hw.faultsOpen.filter fun y => y.told && !y.channel && x.may y.colour).foldl (fun t y => t.tellFault num y.record) s

def execHello (f : Frame) (s : State) : Out :=
  if !s.frameGood f || !isRequest 1 f || f.session ≠ 0 || f.seq ≠ 0 then .next s
  else
    match s.helloRefused f with
    | some n => .next (s.replyLoose f n)
    | none => .next (s.openSession f)

def execBye (f : Frame) (s : State) : Out :=
  onFrame (isRequest 2) f s fun x t =>
    if f.body ≠ [] then t.reply x.num f false 1 [] else (t.reply x.num f false 0 []).closeSession x.num

/-! ## Acknowledgement and retransmission (R434) -/

/-- Whether a request has a code, and a kind where its code has kinds, that Table 16-2 lists. -/
def knownRequest (f : Frame) : Bool :=
  match f.code.toNat with
  | 0x09 => kindByte f ≤ 4
  | 0x0A => kindByte f ≤ 1
  | 0x0D => bodyWord f 0 / 2 ^ 6 % 4 ≠ 2
  | n => 1 ≤ n && n ≤ 0x0D

/-- Frames that no other meaning takes: acknowledgements, which take no number, and frames of type 1 or 2 or with an
unknown code; an unknown request is answered with status 1. -/
def execEoloAck (f : Frame) (s : State) : Out :=
  if f.type.toNat = tAck then
    match s.frameSession f with
    | none => .next s
    | some x => .next (s.takeAck x.num f)
  else
    onFrame (fun f => f.type.toNat ≠ tRequest || !knownRequest f) f s fun x t =>
      if f.type.toNat = tRequest then t.reply x.num f false 1 [] else t

/-- Retransmissions without progress that close a session. -/
def maxTries : Nat := 64

/-- The timer of a session expires: everything sent goes out again from the oldest, or the session closes. -/
def execEoloRetransmit (session : Nat) (s : State) : Out :=
  match s.session session with
  | none => .next s
  | some x =>
    if x.sent = 0 then .next s
    else if maxTries ≤ x.tries then .next (s.closeSession session)
    else
      let t := s.mapSession session fun y => { y with tries := y.tries + 1 }
      .next { t with hw := { t.hw with outbox := t.hw.outbox ++ (x.unacked.take x.sent).map (stampFrame x) } }

end Sys2Proof.Machine
end

