-- ==== Sys2Proof/Machine/Launch.lean ====
section
/-! DEFINITION. Headgates, the region scheduler and the resume of a saved launch (13 R326 to R334; 15 R419, R425, R427). -/

namespace Sys2Proof.Machine

/-! ## Headgate streams (Table 13-1) -/

/-- Whether a load is resident for the stream of a headgate: active in the launch's region, or about to be in an armed
switch, with the headgate's channel bound and not closed (R327). -/
def State.resident (s : State) (l : Launch) (key : Nat) : Bool :=
  let n := s.sourceLoad (headSource key) l.colour
  l.st = .active &&
    match s.srcBind (headSource key) l.colour n with
    | none => false
    | some b =>
      b.colour = l.colour && !b.closed &&
        (n = l.load || (s.armedAt (key / 16) l.colour && (s.staging (key / 16) l.colour).load = n))

/-- The launch of the stream that a headgate serves. -/
def State.gateLaunch (s : State) (key : Nat) : Option Launch :=
  let h := s.head key
  match h.colour with
  | none => none
  | some c => (s.launch c).bind fun l => if l.lid = h.lid then some l else none

/-- A descriptor reaches its headgate; one whose launch has ended is gone, with the tokens that the gate was to take for it (L64).
The first that finds its load not resident wakes the loader of the headgate's die (R341). -/
def execHeadgateDescriptor (i : Nat) (s : State) : Out :=
  match s.hw.descs[i]? with
  | none => .next s
  | some d =>
    let t : State := { s with hw := { s.hw with descs := dropNth s.hw.descs i } }
    let h := s.head d.gate
    let gone := if h.st = .idle then t.setHead d.gate { h with fresh := [], answer := none, eosSeen := false } else t
    match s.launch d.colour with
    | none => .next gone
    | some l =>
      if l.lid ≠ d.lid || l.st = .finishing then .next gone
      else if h.st ≠ .idle then .next s
      else
        let st : HgState := if s.resident l d.gate then .streaming else .holding
        let u := t.setHead d.gate { h with st := st, colour := some d.colour, lid := d.lid, eosSeen := h.fresh.any fun x => x.kind = .eos }
        .next (u.mapLaunch d.colour fun x =>
          if st = .holding && x.woke.isNone then { x with woke := some (d.gate / 16) } else x)

/-- The headgate's stream has ended: it is idle. -/
def endStream (t : Token) (h : Headgate) : Headgate := if t.kind = .eos then { h with st := .idle, eosSeen := false } else h

/-- A token of a headgate's stream enters its channel, if the channel has credit. -/
def State.gateEmit (s : State) (key colour : Nat) (t : Token) : Option State :=
  (s.tryEmit (headSource key) (s.sourceLoad (headSource key) colour) t).map fun u => u.setHead key (endStream t (u.head key))

/-- The reply to a STREAM whose last token the headgate has taken (16 R443). -/
def State.answerStream (s : State) (key : Nat) : State :=
  let h := s.head key
  match h.fresh, h.answer with
  | [], some (num, rid) =>
    (s.setHead key { h with answer := none }).sendMessage num tReply 0x08 rid false (wordBytes 0)
  | _, _ => s

/-- A token taken from those that the host has sent. -/
def State.takeFresh (s : State) (key : Nat) (rest : List Token) : State :=
  (s.setHead key { s.head key with fresh := rest }).answerStream key

/-- Tokens that a headgate may hold. -/
def maxHeld : Nat := 64

def execHeadgateToken (die gate : Nat) (s : State) : Out :=
  let key := die * 16 + gate
  let h := s.head key
  match h.fresh, h.st, h.colour with
  | t :: rest, .holding, _ =>
    if h.held.length < maxHeld then .next ((s.setHead key { h with held := h.held ++ [t] }).takeFresh key rest) else .next s
  | t :: rest, .streaming, some c =>
    if h.held ≠ [] then .next s
    else
      match s.gateEmit key c t with
      | some u => .next (u.takeFresh key rest)
      | none => .next s
  | _, _, _ => .next s

/-- The oldest held token enters the channel. -/
def State.releaseHeld (s : State) (key colour : Nat) : State :=
  match (s.head key).held with
  | [] => s
  | t :: rest =>
    match s.gateEmit key colour t with
    | some u => u.setHead key { u.head key with held := rest }
    | none => s

/-- Held tokens enter the channel in arrival order once the load is resident; a headgate that owes a weir for want of a credit
sends that first. -/
def execHeldTokenRelease (die gate : Nat) (s : State) : Out :=
  let key := die * 16 + gate
  let h := s.head key
  match s.gateLaunch key with
  | none => .next s
  | some l =>
    match h.st with
    | .idle => .next s
    | .streaming => .next (s.releaseHeld key l.colour)
    | .holding =>
      if (s.gateOwes die l.colour gate).isSome then .next (s.payWeir die l.colour gate)
      else if s.resident l key && !(s.staging die l.colour).weir then
        .next ((s.setHead key { h with st := .streaming }).releaseHeld key l.colour)
      else .next s

/-! ## What the scheduler can grant (R331, R332) -/

/-- Whether two rectangles share a plot position. -/
def rectsMeet (a b : Rect) : Bool := a.x0 < b.x0 + b.w && b.x0 < a.x0 + a.w && a.y0 < b.y0 + b.h && b.y0 < a.y0 + a.h

/-- Whether a launch holds a region that meets a rectangle. -/
def holdsRect (r : Rect) (l : Launch) : Bool :=
  l.st ≠ .ended &&
    match l.rect with
    | none => false
    | some q => rectsMeet r q

/-- Whether every plot of a rectangle is free of other launches and colours. -/
def State.rectFree (s : State) (l : Launch) (r : Rect) : Bool :=
  !(s.launches.any fun q => q.colour ≠ l.colour && holdsRect r q) &&
    (s.rectDies r l.die0).all fun d => ((List.range 400).filter (rectHolds r d)).all fun p =>
      match (s.plot (d * 400 + p)).colour with
      | none => true
      | some c => c = l.colour

/-- The headgates and outfalls that an image names on the dies of a region, by key. -/
def imageGates (b : List Byte) (dies : List Nat) : List Nat :=
  ((imgChans b).filter fun c => c.hg ≠ 0xFF && c.die < dies.length).map fun c => nth dies c.die 0 * 16 + c.hg
def imageOutfalls (b : List Byte) (dies : List Nat) : List Nat :=
  ((imgChans b).filter fun c => c.outfall ≠ 0xFF && c.die < dies.length).map fun c => nth dies c.die 0 * 16 + c.outfall

/-- Whether no other colour holds them. -/
def State.gatesFree (s : State) (colour : Nat) (b : List Byte) (dies : List Nat) : Bool :=
  let free (c : Option Nat) : Bool :=
    match c with
    | none => true
    | some x => x = colour
  (imageGates b dies).all (fun k => free (s.head k).colour && !s.hw.descs.any fun d => d.gate = k && d.colour ≠ colour) &&
    (imageOutfalls b dies).all fun k => free (s.out k).colour

/-- Whether the scheduler could grant a rectangle now, placement aside. -/
def State.grantable (s : State) (l : Launch) (r : Rect) : Bool :=
  s.rectFree l r && s.gatesFree l.colour (s.imageOf l.colour) (s.rectDies r l.die0)

/-- Whether the load that a launch runs next can be placed in a rectangle; a saved launch is placed as it resumes. -/
def State.placeable (s : State) (l : Launch) (r : Rect) : Bool :=
  l.st = .saved || s.canPlaceNow (s.imageOf l.colour) l.colour (loadNumber l.load) r (s.rectDies r l.die0)

/-- Launches that wait for a region. -/
def waits (l : Launch) : Bool := (l.st = .waiting || l.st = .saved) && l.rect.isNone

/-- Whether one waiter stands ahead of another: urgent first, then higher priority, then earlier arrival (R333). -/
def ahead (a b : Launch) : Bool :=
  if a.urg ≠ b.urg then a.urg
  else if a.prio ≠ b.prio then b.prio < a.prio
  else a.arrival < b.arrival

/-- Whether a waiter that stands ahead could have plots of a rectangle now. -/
def State.behind (s : State) (l : Launch) (r : Rect) : Bool :=
  s.launches.any fun q =>
    waits q && q.colour ≠ l.colour && ahead q l &&
      (s.candidates q).any fun x => rectsMeet x r && s.grantable q x && s.placeable q x

/-- Area of a rectangle. -/
def area (r : Rect) : Nat := r.w * r.h

/-- Whether a rectangle is one that the launch may ask for, and the first that it can have where the scheduler chooses. -/
def State.rectChosen (s : State) (l : Launch) (r : Rect) : Bool :=
  let b := s.imageOf l.colour
  (s.candidates l).contains r &&
    (!freeSize b || !((s.candidates l).any fun x => area x < area r && s.grantable l x && s.placeable l x))

/-! ## Pre-emption (R333, R419) -/

/-- Whether no input port of an actor of a load, by its key, is in stream mode. -/
def cutSafeLoad (b : List Byte) (load : Nat) : Bool :=
  (ofLoad b 3 (loadNumber load)).all fun i => !(imgActor b i).inmode.contains inStream

/-- Whether a launch may be cut: its active load and any staged load are cut-safe. -/
def State.cutSafe (s : State) (l : Launch) : Bool :=
  let b := s.imageOf l.colour
  cutSafeLoad b l.load && l.dies.all fun d =>
    let g := s.staging d l.colour
    !(g.isOpen || g.closed || g.armed) || cutSafeLoad b g.load

/-- A cut begins: WEIR with fl[0] on every compute die of the region (R425). -/
def State.beginCut (s : State) (l : Launch) : State :=
  l.dies.foldl (fun t d => t.weir d l.colour true) (s.mapLaunch l.colour fun x => { x with st := .cutting })

/-- The running launches that a cut for a rectangle takes: those that hold plots of it, are not urgent, may be cut, and meet a
condition. -/
def State.cutList (s : State) (p : Launch → Bool) (r : Rect) : List Launch :=
  s.launches.filter fun q => q.st = .active && !q.urg && holdsRect r q && p q && s.cutSafe q

/-- Cutting them. -/
def State.cutFor (s : State) (p : Launch → Bool) (r : Rect) : State := (s.cutList p r).foldl (fun t q => t.beginCut q) s

/-- The module as the cuts of some launches, and those under way, will leave it: their slots and their flume space are free. -/
def State.afterCut (s : State) (qs : List Launch) : State :=
  let gone (l : Launch) : Bool := l.st = .cutting || (l.st = .active && qs.any fun q => q.colour = l.colour)
  { s with
    launches := s.launches.map fun l => if gone l then { l with st := .saved } else l
    mas := s.mas.filter fun x => !(x.1 < 4096 && s.launches.any fun l => gone l && l.colour = x.2.colour) }

/-- Whether a waiter can be granted no candidate now. -/
def State.stuck (s : State) (l : Launch) : Bool := !((s.candidates l).any fun x => s.grantable l x && s.placeable l x)

/-! ## REGION_SCHEDULE (R332) -/

/-- The region granted: plots of its compute dies, and the gates that the image names there. -/
def State.grant (s : State) (l : Launch) (r : Rect) (dies : List Nat) : State :=
  let b := s.imageOf l.colour
  let s := dies.foldl (fun t d => t.grantPlots d l.colour r) s
  let s := (imageGates b dies).foldl (fun t k => t.setHead k { t.head k with colour := some l.colour }) s
  let s := (imageOutfalls b dies).foldl (fun t k => t.setOut k { t.out k with colour := some l.colour }) s
  s.mapLaunch l.colour fun x => { x with rect := some r, dies := dies }

/-- The scheduler considers a rectangle for a waiting launch. The plan shows that the first load can be placed there, and the
spillways have the room that it needs (15 R424). -/
def execRegionSchedule (colour : Nat) (rect : Rect) (plan : Plan) (s : State) : Out :=
  match s.launch colour with
  | none => .next s
  | some l =>
    let b := s.imageOf colour
    let dies := s.rectDies rect l.die0
    if !(s.loaderRuns && waits l && s.rectSuits l rect && s.rectChosen l rect) then .next s
    else if s.grantable l rect then
      if l.st = .waiting && s.planGood b colour (loadNumber l.load) rect dies plan && s.spillRoom b (loadNumber l.load) dies plan &&
          !s.behind l rect then .next (s.grant l rect dies)
      else .next s
    else if l.urg && s.stuck l && (s.afterCut (s.cutList (fun _ => true) rect)).placeable l rect then
      .next (s.cutFor (fun _ => true) rect)
    else .next s

/-! ## QUANTUM (R333, 14 Table 14-1) -/

/-- Whether a waiter pre-empts a running launch at the end of its quantum (Table 13-3): one that holds plots of a rectangle on
which the waiter can be placed once the launches that it pre-empts are cut. -/
def State.preempts (s : State) (w q : Launch) : Bool :=
  waits w && !w.urg && q.prio ≤ w.prio && s.stuck w &&
    (s.candidates w).any fun r =>
      holdsRect r q && (s.afterCut (s.cutList (fun x => x.prio ≤ w.prio) r)).placeable w r

/-- The end of a quantum at the scheduler: running launches that a waiter pre-empts are cut. -/
def State.endQuantum (s : State) : State :=
  (s.launches.filter fun q =>
    q.st = .active && !q.urg && s.cutSafe q && s.launches.any fun w => w.colour ≠ q.colour && s.preempts w q).foldl
    (fun t q => t.beginCut q) s

/-- The cycles pass in which a quantum ends: qcnt reaches quantum with event 6, or goes a quantum on where it stands there. -/
def execQuantum (die : Nat) (s : State) : Out :=
  let c := s.ctrl die
  let t := s.setCtrl die (elapse c (if c.qcnt = c.quantum then c.quantum else c.quantum - c.qcnt))
  .next (if s.dieOf 0 = some die && s.firmwareRuns die then t.endQuantum else t)

/-! ## LAUNCH_RESUME (R427) -/

/-- The new place of an element of a plan: the place of the same replica in another plan. -/
def movedKey (old new : Plan) (k : Nat) : Nat :=
  match old.replicas.find? fun r => elemKey r.die r.pos = k with
  | none => k
  | some r =>
    match new.replicas.find? fun q => q.actor = r.actor && q.replica = r.replica with
    | some q => elemKey q.die q.pos
    | none => k

/-- The new place of a node. -/
def movedNode (old new : Plan) (k : Nat) : Nat :=
  match old.nodes.find? fun n => nodeKey n.die n.unit = k with
  | none => k
  | some n =>
    match new.nodes.find? fun q => q.node = n.node with
    | some q => nodeKey q.die q.unit
    | none => k

/-- Whether each replica keeps its die, slot and addresses, and those of one element stay together. -/
def sameReplicas (old new : Plan) : Bool :=
  old.replicas.all fun r => new.replicas.any fun q =>
    q.actor = r.actor && q.replica = r.replica && q.die = r.die && q.slot = r.slot && q.addr = r.addr &&
      q.bitmap = r.bitmap && elemKey q.die q.pos = movedKey old new (elemKey r.die r.pos)

/-- Whether a plan suits a saved launch: every replica, node and memory actor on its die, every save in the region, no two
saves at one place. -/
def State.resumeGood (s : State) (l : Launch) (rect : Rect) (p : Plan) : Bool :=
  let f := movedKey l.plan p
  sameReplicas l.plan p && p.mas = l.plan.mas &&
    (l.plan.nodes.all fun n => p.nodes.any fun q => q.node = n.node && q.die = n.die) &&
    (l.saves.all fun k => s.liveElem (f k / 6400) (f k % 6400) && rectHolds rect (f k / 6400) (f k % 6400 / 16)) &&
    pairwiseAll (fun (a b : Nat) => f a ≠ f b) l.saves

/-- Endpoints moved with their elements and nodes. -/
def moveSource (e n : Nat → Nat) (x : Source) : Source :=
  match x.kind with
  | .element => { x with pos := e (elemKey x.die x.pos) % 6400 }
  | .node => { x with pos := n (nodeKey x.die x.pos) % 1600 }
  | .memActor | .headgate => x
def moveEnd (e n : Nat → Nat) (x : Dest) : Dest :=
  match x.kind with
  | .element => { x with pos := e (elemKey x.die x.pos) % 6400 }
  | .node => { x with pos := n (nodeKey x.die x.pos) % 1600 }
  | .memActor | .outfall => x

/-- What is kept of saves of a colour under keys of a kind, moved with its elements or nodes. -/
def movedSaves {α : Type} (n colour : Nat) (f : Nat → Nat) (t : Tab α) : Tab α :=
  let mine := t.filter fun x => x.1 / n = colour + 1
  mine.foldl (fun t x => tabSet t (n * (colour + 1) + f (x.1 % n)) x.2) (t.filter fun x => x.1 / n ≠ colour + 1)

/-- Channels bound again for the placement, and what is kept of the saves of elements and nodes under their new numbers. -/
def State.rebindPlan (s : State) (colour : Nat) (e n : Nat → Nat) : State :=
  { s with
    binds := s.binds.map fun (b : Bind) =>
      if b.colour = colour then { b with source := moveSource e n b.source, dests := b.dests.map (moveEnd e n) } else b
    chans := s.chans.map fun (c : Chan) => if c.colour = colour then { c with dest := moveEnd e n c.dest } else c
    elems := movedSaves 409600 colour e s.elems
    nodes := movedSaves 102400 colour n s.nodes }

/-- Save areas copied to the areas of the new positions. -/
def State.moveAreas (s : State) (colour : Nat) (e : Nat → Nat) (saves : List Nat) : State :=
  let bytes := saves.map fun k => (k, Memory.readBytes s.phys (s.control (k / 6400) (elemArea (s.saveArea (k / 6400) colour) (k % 6400))) areaSize)
  bytes.foldl (fun t x =>
    let k := e x.1
    t.physWrite (t.control (k / 6400) (elemArea (t.saveArea (k / 6400) colour) (k % 6400))) x.2) s

/-- The plan of a load of a launch, by the load's key. -/
def planOf (l : Launch) (p next : Plan) (key : Nat) : Plan := if key = l.load then p else next

/-- The load, by its key, that a saved launch's parts have reached: the one that they have switched into where its switch was
done and the launch has not gone on to it yet; in a switch that goes on, the one that it leaves. -/
def State.reachedLoad (s : State) (l : Launch) : Nat :=
  if l.armed then l.load
  else
    (((s.elems.filter fun x => x.1 / 409600 = l.colour + 1).map fun x => x.2.load) ++
      ((s.mas.filter fun x => x.1 / 4096 = l.colour + 1).map fun x => x.2.load) ++
      ((s.nodes.filter fun x => x.1 / 102400 = l.colour + 1).map fun x => x.2.load)).find? (· ≠ l.load) |>.getD l.load

/-- The elements of the region as the loader prepares them on a die: zero, with the constants and the image of the load that
each runs by its save, or with the constants of the load that the launch has reached (R427; 07 R220). A matrix fault that an
element owes stays its own (09 R280). -/
def State.prepareElem (s : State) (l : Launch) (b : List Byte) (p next : Plan) (saves : List Nat) (d pos : Nat) : State :=
  let m := s.areaMem d (elemArea (s.saveArea d l.colour) pos)
  let key := if saves.contains (elemKey d pos) then fieldAt m 6 1 + 64 * fieldAt m 5 1 else s.reachedLoad l
  let old := s.elem (elemKey d pos)
  s.setElem (elemKey d pos) { launchElement b l.colour (loadNumber key) (planOf l p next key) d pos old with active := [] }

/-- An element in an armed switch to a load, by its key: armed with the constants waiting, unless it has switched. -/
def rearm (key : Nat) (e : Element) : Element :=
  let done := e.configured && e.load = key
  { e with armed := !done, constDesc := if done then none else e.constDesc }

/-- Whether a plan is one of a load; that of a load which stream commands have staged is not known. -/
def planKnown (b : List Byte) (key : Nat) (p : Plan) : Bool := planWhole b (loadNumber key) p

/-- The staged bank's data, staged again: constants; in an armed switch the images of elements that have not switched, otherwise
the whole bank (R427). -/
def State.restage (s : State) (l : Launch) (b : List Byte) (next : Plan) : State :=
  match l.stagedLoad with
  | none => s
  | some key =>
    let s := l.dies.foldl (fun t d => t.stageConsts b l.colour (loadNumber key) d) s
    if l.armed then
      let s := l.dies.foldl (fun t d => t.mapElems d (rearm key) (t.regionElems d l.colour)) s
      (planElems next).foldl (fun t x =>
        let e := t.elem (elemKey x.1 x.2)
        if e.configured && e.load = key then t else t.stageImage b next x.1 x.2) s
    else if planKnown b key next then s.stageBanks l b next
    else s

/-- The staging of a saved launch, on a die. -/
def State.restoreStaging (s : State) (l : Launch) (d : Nat) : State :=
  match l.stagedLoad with
  | some n => s.setStaging d l.colour { s.staging d l.colour with load := n, closed := true, armed := l.armed }
  | none => s

/-- A plan with its replicas and nodes on moved elements and routers. -/
def movePlan (e n : Nat → Nat) (p : Plan) : Plan :=
  { p with
    replicas := p.replicas.map fun r => { r with pos := e (elemKey r.die r.pos) % 6400 }
    nodes := p.nodes.map fun x => { x with unit := n (nodeKey x.die x.unit) % 1600 } }

/-- The plan of the load that follows a saved launch's, as another plan of its present load moves it. -/
def movedNext (l : Launch) (p : Plan) : Plan := movePlan (movedKey l.plan p) (movedNode l.plan p) l.nextPlan

/-- Whether a load that is staged and not armed can be staged again on the rectangle. -/
def State.stagesAgain (s : State) (l : Launch) (rect : Rect) (p : Plan) : Bool :=
  let b := s.imageOf l.colour
  match l.stagedLoad with
  | none => true
  | some key =>
    l.armed || !planKnown b key l.nextPlan || s.planGood b l.colour (loadNumber key) rect l.dies (movedNext l p)

/-- The open faults of a colour, and those on the levee network, name the present positions of their elements. -/
def State.moveFaults (s : State) (colour : Nat) (e : Nat → Nat) : State :=
  let at' (c die pos : Nat) (r : Rec) : Nat := if c = colour && recKind r = 0 then e (elemKey die pos) % 6400 else pos
  { s with
    levee := s.levee.map fun x => { x with pos := at' x.colour x.die x.pos x.record }
    hw := { s.hw with faultsOpen := s.hw.faultsOpen.map fun x => { x with pos := at' x.colour x.die x.pos x.record } } }

/-- A control channel that has selected goes on discarding (R336). -/
def State.restoreSelect (s : State) (l : Launch) : State :=
  let key := l.dies.headD l.die0 * 16 + 15
  match l.select with
  | .default => s
  | .next k => s.setOut key { s.out key with selected := some k }
  | .none | .bad => s.setOut key { s.out key with selected := some 0xFFFF }

/-- Restoring and reopening a launch whose region has been granted again. -/
def State.resume (s : State) (l : Launch) (p : Plan) : State :=
  let b := s.imageOf l.colour
  let e := movedKey l.plan p
  let n := movedNode l.plan p
  let next := movedNext l p
  let s := ((s.rebindPlan l.colour e n).moveAreas l.colour e l.saves).moveFaults l.colour e
  let s := l.dies.foldl (fun t d =>
    (t.regionElems d l.colour).foldl (fun u pos => u.prepareElem l b p next (l.saves.map e) d pos) t) s
  let s := (l.saves.map e).foldl (fun t k => t.loadElem (k / 6400) (t.saveArea (k / 6400) l.colour) (k % 6400) true) s
  let s := l.dies.foldl (fun t d =>
    (t.keptMas d l.colour).foldl (fun u m => u.loadMa l.colour d (u.saveArea d l.colour) m) (t.loadLone d l.colour)) s
  let s := ((l.dies.foldl (fun t d => t.restoreStaging l d) s).restage l b next).restoreGates l.colour
  let s := l.dies.foldl (fun t d => t.reopen d l.colour) (s.restoreSelect l)
  s.mapLaunch l.colour fun x =>
    { x with st := .active, plan := p, nextPlan := next, saves := [], stagedLoad := none, armed := false }

/-- A saved launch resumes in a rectangle that can be granted, under a plan that keeps every save on its die. -/
def execLaunchResume (colour : Nat) (rect : Rect) (plan : Plan) (s : State) : Out :=
  match s.launch colour with
  | none => .next s
  | some l =>
    let ok := s.loaderRuns && l.st = .saved && waits l && s.rectSuits l rect && s.rectChosen l rect && s.grantable l rect &&
      !s.behind l rect && s.planGood (s.imageOf colour) colour (loadNumber l.load) rect l.dies plan && s.resumeGood l rect plan &&
      s.stagesAgain l rect plan
    let t := s.grant l rect l.dies
    if ok && t.regionQuiet l && t.regionStill l then .next (t.resume l plan) else .next s

end Sys2Proof.Machine
end

