-- ==== Sys2Proof/Machine/EoloCmd.lean ====
section
/-! DEFINITION. The Eolo commands and events (16 R437 to R450, R453 to R455; 12 R322 to R324; 13 R326 to R328; 18 R463). -/

namespace Sys2Proof.Machine

/-! ## WRITE and READ (R440, 18 R463) -/

/-- Where a granule of a request lies: a physical address, or status 4 or 5. -/
inductive Granule where
  | at (pa : Nat)
  | fails (status : Nat)
deriving DecidableEq, Repr

/-- The granule at an address of a colour: physical for colour 0, in spaces 0, 1 and 3; else translated under L0's root
into HBM. -/
def State.granule (s : State) (colour a : Nat) (k : Access) : Granule :=
  if colour = 0 then if s.paExists a && paSpace a ≠ 2 then .at a else .fails 4
  else if !canonical a then .fails 4
  else
    match s.dieOf 0 with
    | none => .fails 4
    | some d =>
      match s.walk d colour a k with
      | .page l => if s.paExists (l.address a) && paSpace (l.address a) = 0 then .at (l.address a) else .fails 4
      | .xlate _ _ => .fails 4
      | .uncorrectable _ => .fails 5

/-- The granules of n × 8 bytes from an address: all of them, or the first failure. -/
def State.granules (s : State) (colour a : Nat) (k : Access) : Nat → List Nat ⊕ Nat
  | 0 => .inl []
  | n + 1 =>
    match s.granule colour a k, s.granules colour (a + 8) k n with
    | .fails e, _ => .inr e
    | .at _, .inr e => .inr e
    | .at pa, .inl t => .inl (pa :: t)

/-- A granule written for the host, and read for it; none where it has an uncorrectable error. -/
def State.hostWrite (s : State) (pa v : Nat) : State :=
  if inRetire pa then s.setRetired pa v
  else { s with phys := Memory.write s.phys pa v 8, bad := s.bad.erase (pa / 8) }
def State.hostRead (s : State) (pa : Nat) : Option Nat :=
  if inRetire pa then some (s.retired pa)
  else if s.bad.contains (pa / 8) then none
  else some (Memory.read s.phys pa 8)

/-- Granules written from bytes. -/
def State.hostWriteAll (s : State) : List Nat → List Byte → State
  | [], _ => s
  | pa :: t, b => (s.hostWrite pa (leAt b 0 8)).hostWriteAll t (b.drop 8)

/-- Granules read; none where one fails. -/
def State.hostReadAll (s : State) : List Nat → Option (List Byte)
  | [] => some []
  | pa :: t =>
    match s.hostRead pa, s.hostReadAll t with
    | some v, some r => some (wordBytes v ++ r)
    | _, _ => none

/-- The colour that word n names in its low four bits. -/
def colourOf (n : Nat) (f : Frame) : Option Nat := some (bodyWord f n % 16)

def execEoloWrite (f : Frame) (s : State) : Out :=
  journalledRequest (isRequest 0x03)
    (fun f => 24 ≤ f.body.length && bodyWord f 0 < 16 && bodyWord f 1 % 8 = 0) (colourOf 0)
    (fun f => wordBytes (bodyWord f 0) ++ wordBytes (bodyWord f 1) ++ wordBytes (f.body.length - 16)) f s fun _ t =>
      match t.granules (bodyWord f 0) (bodyWord f 1) .write (f.body.length / 8 - 2) with
      | .inl l => gives 0 (t.hostWriteAll l (f.body.drop 16))
      | .inr e => gives e t

def execEoloRead (f : Frame) (s : State) : Out :=
  plainRequest (isRequest 0x04)
    (fun f => f.body.length = 24 && bodyWord f 0 < 16 && bodyWord f 1 % 8 = 0 && bodyWord f 2 % 8 = 0 &&
      8 ≤ bodyWord f 2 && bodyWord f 2 ≤ 8184) (colourOf 0) f s fun _ t =>
      match t.granules (bodyWord f 0) (bodyWord f 1) .read (bodyWord f 2 / 8) with
      | .inr e => gives e t
      | .inl l =>
        match t.hostReadAll l with
        | some b => { status := 0, data := b, st := t }
        | none => gives 5 t

/-! ## IMAGE and UNLOAD (R441, 12 R322, R324) -/

/-- The index of a graph name in the store; a new name takes the next. -/
def State.imageIndex (s : State) (name : List Byte) : Nat := s.hw.names.idxOf name

/-- A partial image of a session. -/
def State.keepImage (s : State) (num len : Nat) (b : List Byte) : State :=
  s.mapSession num fun x => { x with imgLen := len, img := b }

/-- An accepted image becomes resident, as the newest of its name, with the loader's marks; a generation that is resident
already, with the same digest, stays as it is (12 R322). M4 is extended (R454). -/
def State.acceptImage (s : State) (b : List Byte) : State :=
  let name := graphName b
  let index := s.imageIndex name
  let held := s.store.any fun r => r.name = name && r.gen = imgGen b
  let data := bodyBytes 4 index ++ bodyBytes 4 (imgGen b) ++ imgDigest b
  let s : State := { s with
    store := if held then s.store else s.store ++ [{ index := index, name := name, gen := imgGen b, holds := 0, bytes := b,
                                                        marks := debugMarks b }]
    hw := { s.hw with
      names := if s.hw.names.contains name then s.hw.names else s.hw.names ++ [name]
      meas := s.hw.meas.set 4 (shake256 (s.hw.meas[4] ++ data) 64) } }
  s.unloadOld

/-- The checks of a whole image, and its acceptance. -/
def State.performImage (s : State) (b : List Byte) : Answer :=
  let word := wordBytes (s.imageIndex (graphName b) + imgGen b * 2 ^ 32)
  match s.checkImage b with
  | none => { status := 0, data := word, st := s.acceptImage b }
  | some r => { status := 6, data := word ++ (refuses r s).data, st := s }

def execImage (f : Frame) (s : State) : Out :=
  onFrame (isRequest 0x05) f s fun x t =>
    let len := bodyWord f 0
    let got := x.img ++ f.body.drop 16
    if f.body.length < 24 || 2 ^ 32 ≤ len then t.reply x.num f false 1 []
    else if bodyWord f 1 ≠ x.img.length || (x.img ≠ [] && len ≠ x.imgLen) then (t.keepImage x.num 0 []).reply x.num f false 3 []
    else if got.length < len then t.keepImage x.num len got
    else if len + 8 ≤ got.length then (t.keepImage x.num 0 []).reply x.num f false 1 []
    else
      let b := got.take len
      let index := t.imageIndex (graphName b)
      (t.keepImage x.num 0 []).perform x.num f
        (fun _ => bodyBytes 4 index ++ bodyBytes 4 (imgGen b) ++ (imgDigest b).take 16) fun u => u.performImage b

def execUnload (f : Frame) (s : State) : Out :=
  journalledRequest (isRequest 0x06) (fun f => f.body.length = 8) (fun _ => none) (fun f => f.body) f s fun _ t =>
    let index := bodyWord f 0 % 2 ^ 32
    let gen := bodyWord f 0 / 2 ^ 32
    match t.store.find? fun r => r.index = index && r.gen = gen with
    | none => gives 7 t
    | some r =>
      if r.holds ≠ 0 then refuses { code := lBusy, kind := oImage, index := 0, second := 0 } t
      else gives 0 { t with store := t.store.filter fun q => !(q.index = index && q.gen = gen) }

/-! ## LAUNCH and REGION (R442, 13 R326 to R328) -/

/-- A launch descriptor with its headgate and logical die. -/
structure Descriptor where
  lid : Word
  image : Nat
  colour : Nat
  urg : Bool
  prio : Nat
  cof : Nat
  cdie : Nat
  load : Nat
  gate : Nat
  ldie : Nat
deriving DecidableEq, Repr

/-- The descriptor in the three words of a body from word n on. -/
def descriptorOf (n : Nat) (f : Frame) : Descriptor :=
  let lo := bodyWord f n
  let hi := bodyWord f (n + 1)
  let w := bodyWord f (n + 2)
  { lid := BitVec.ofNat 32 (hi / 2 ^ 32), image := hi % 2 ^ 32, colour := lo / 2 ^ 60, urg := bitOf lo 59
    prio := lo / 2 ^ 56 % 8, cof := lo / 2 ^ 52 % 16, cdie := lo / 2 ^ 46 % 64, load := lo / 2 ^ 40 % 64, gate := w % 16
    ldie := w / 2 ^ 8 % 64 }

/-- Whether its reserved bits are zero and its die exists. -/
def State.descriptorOk (s : State) (n : Nat) (f : Frame) : Bool :=
  bodyWord f n % 2 ^ 40 = 0 && bodyWord f (n + 2) / 2 ^ 14 = 0 && bodyWord f (n + 2) / 16 % 16 = 0 &&
    (s.dieOf (descriptorOf n f).ldie).isSome

/-- The colour of a descriptor; colour 0 is forbidden, so it is given as one that no mask holds. -/
def launchColour (n : Nat) (f : Frame) : Option Nat :=
  let c := (descriptorOf n f).colour
  some (if c = 0 then 16 else c)

/-- The newest resident generation of an image index (12 R323). -/
def State.newest (s : State) (image : Nat) : Option Resident :=
  (s.store.filter fun r => r.index = image).foldl
    (fun m r => match m with
      | some q => some (if q.gen < r.gen then r else q)
      | none => some r) none

/-- Whether a load declares a fault channel: hg15 of die 0 then takes no stream (15 R403). -/
def hasFaultChannel (b : List Byte) (load : Nat) : Bool :=
  (ofLoad b 4 load).any fun c => let x := imgChan b c; x.hg = 15 && x.die = 0 && x.kind = 1

/-- Whether a headgate takes no descriptor: busy, promised to a stream, or of another colour (R328). -/
def State.gateBusy (s : State) (key colour : Nat) : Bool :=
  let h := s.head key
  h.st ≠ .idle || h.fresh ≠ [] || (s.hw.descs.any fun d => d.gate = key) ||
    (match h.colour with
      | none => false
      | some c => c ≠ colour) ||
    (tabGet s.heads (savedHead colour key)).isSome

/-- The launch that a descriptor opens. -/
def openedLaunch (s : State) (d : Descriptor) (r : Resident) (die session : Nat) : Launch :=
  { lid := d.lid, colour := d.colour, image := d.image, gen := r.gen, urg := d.urg, prio := d.prio, cof := d.cof,
    cdie := d.cdie, load := d.load, stagedLoad := none, armed := false, die0 := die, asked := [], rect := none, dies := [],
    st := .waiting, arrival := s.arrivals, session := session, select := .default,
    plan := { replicas := [], nodes := [], mas := [] }, nextPlan := { replicas := [], nodes := [], mas := [] }, saves := [],
    status := 0, detail := (0, 0), absent := false, woke := none }

/-- The launch opened: it holds its generation from now on. -/
def State.openLaunch (s : State) (d : Descriptor) (r : Resident) (die session : Nat) : State :=
  { s.mapGen r.index r.gen (· + 1) with
    launches := s.launches ++ [openedLaunch s d r die session], arrivals := s.arrivals + 1 }

/-- A descriptor on its way to its headgate, where a stream comes with it. -/
def State.sendDesc (s : State) (stream : Bool) (key : Nat) (d : Descriptor) : State :=
  if stream then
    { s with hw := { s.hw with descs := s.hw.descs ++ [{ gate := key, colour := d.colour, lid := d.lid }] } }
  else s

/-- The refusal of a first load that the image does not have, and of a die outside the region. -/
def noSuchLoad (load : Nat) : Refused := { code := lFormat, kind := oLoad, index := load, second := 0 }
def offRegion : Refused := { code := lRegion, kind := oImage, index := 0, second := 0 }

/-- A descriptor joins an open launch. -/
def State.joinLaunch (s : State) (l : Launch) (d : Descriptor) (stream : Bool) (die : Nat) : Answer :=
  let key := die * 16 + d.gate
  let b := s.imageOf l.colour
  if (s.newest d.image).isNone then gives 7 s
  else if imgLoads b ≤ d.load then refuses (noSuchLoad d.load) s
  else if stream && (s.gateBusy key d.colour || (d.gate = 15 && die = l.die0 && hasFaultChannel b l.load)) then gives 3 s
  else if !stream then gives 0 s
  else if l.dies = [] then
    gives 0 ((s.mapLaunch l.colour fun x => { x with asked := insertNat x.asked die }).sendDesc true key d)
  else if l.dies.contains die then gives 0 (s.sendDesc true key d)
  else refuses offRegion s

/-- A descriptor opens a launch. -/
def State.beginLaunch (s : State) (d : Descriptor) (stream : Bool) (die session : Nat) : Answer :=
  let key := die * 16 + d.gate
  match s.newest d.image with
  | none => gives 7 s
  | some r =>
    if imgLoads r.bytes ≤ d.load then refuses (noSuchLoad d.load) s
    else if stream && (s.gateBusy key d.colour || (d.gate = 15 && hasFaultChannel r.bytes d.load)) then gives 3 s
    else gives 0 ((s.openLaunch d r die session).sendDesc stream key d)

/-- LAUNCH, and REGION with kind 0, which brings no stream. -/
def State.takeDescriptor (s : State) (d : Descriptor) (stream : Bool) (session : Nat) : Answer :=
  match s.dieOf d.ldie with
  | none => gives 1 s
  | some die =>
    match s.launch d.colour with
    | none => s.beginLaunch d stream die session
    | some l => if l.lid = d.lid then s.joinLaunch l d stream die else gives 3 s

def execLaunch (f : Frame) (s : State) : Out :=
  journalledRequest (isRequest 0x07) (fun f => f.body.length = 24 && s.descriptorOk 0 f) (launchColour 0) (fun f => f.body) f s
    fun x t => t.takeDescriptor (descriptorOf 0 f) true x.num

/-- Whether a frame is REGION of a kind. -/
def isRegion (n : Nat) (f : Frame) : Bool := isRequest 0x0A f && kindByte f = n

/-- The encoding checks of REGION. -/
def State.regionOk (s : State) (f : Frame) : Bool := f.body.length = 32 && bodyWord f 0 < 256 && s.descriptorOk 1 f

def execRegionOpen (f : Frame) (s : State) : Out :=
  journalledRequest (isRegion 0) s.regionOk (launchColour 1)
    (fun f => f.body.drop 8) f s fun x t => t.takeDescriptor (descriptorOf 1 f) false x.num

/-- Whether an abort that the firmware would carry out waits: the controller of L0 does not run (14 R360). -/
def State.abortWaits (s : State) (f : Frame) : Bool :=
  ((s.launch (descriptorOf 1 f).colour).any fun l => l.lid = (descriptorOf 1 f).lid) && !s.loaderRuns

/-- REGION with kind 1: the named launch is aborted; the saves of a cut go with it (15 R408). -/
def State.abortNamed (s : State) (d : Descriptor) : Answer :=
  match s.launch d.colour with
  | none => gives 7 s
  | some l =>
    if l.lid ≠ d.lid then gives 7 s
    else
      match l.st with
      | .finishing | .ended => gives 0 s
      | .saved | .cutting => gives 0 ((s.dropSaves d.colour).abortLaunch d.colour (0, 0))
      | .waiting | .active => gives 0 (s.abortLaunch d.colour (0, 0))

def execRegionAbort (f : Frame) (s : State) : Out :=
  if isRegion 1 f && s.performsNow s.regionOk (launchColour 1) f && s.abortWaits f then .next s
  else
  journalledRequest (isRegion 1) s.regionOk (launchColour 1)
    (fun f => f.body.drop 8) f s fun _ t => t.abortNamed (descriptorOf 1 f)

/-! ## STREAM (R443) -/

/-- The token bytes of a STREAM body, 16 at a time. -/
def tokenChunks (b : List Byte) : Nat → List (List Byte)
  | 0 => []
  | n + 1 => b.take 16 :: tokenChunks (b.drop 16) n

/-- The tokens of a STREAM; none where a kind is bad or a token follows an EOS. -/
def streamTokens (f : Frame) (colour : Nat) : Option (List Token) :=
  let l := (tokenChunks (f.body.drop 8) ((f.body.length - 8) / 16)).map (tokenOf · colour)
  let ts := l.filterMap id
  if l.any Option.isNone || ts.dropLast.any (fun t => t.kind = .eos) then none else some ts

/-- The place of a headgate's stream: that of its saved launch while the launch is saved. -/
def State.streamKey (s : State) (colour key : Nat) : Nat :=
  if (tabGet s.heads (savedHead colour key)).isSome then savedHead colour key else key

/-- Whether a LAUNCH has opened a stream of a launch at a headgate, which has had no EOS but in a STREAM that is unanswered. -/
def State.streamOpen (s : State) (colour : Nat) (lid : Word) (key : Nat) : Bool :=
  let h := s.head (s.streamKey colour key)
  let here := h.st ≠ .idle && h.colour = some colour && h.lid = lid
  (here || s.hw.descs.any fun d => d.gate = key && d.colour = colour && d.lid = lid) && (!h.eosSeen || h.answer.isSome) &&
    match s.launch colour with
    | none => false
    | some l => l.lid = lid

/-- The tokens of a STREAM go to the headgate; it is answered once the last is taken. -/
def State.takeStream (s : State) (num : Nat) (f : Frame) (colour : Nat) (lid : Word) (key : Nat) : State :=
  if !s.streamOpen colour lid key then s.reply num f false 7 []
  else
    match streamTokens f colour with
    | none => s.reply num f false 1 []
    | some ts =>
      let k := s.streamKey colour key
      let h := s.head k
      if h.answer.isSome then s.reply num f false 3 []
      else if ts = [] then s.reply num f false 0 []
      else s.setHead k { h with fresh := ts, answer := some (num, f.rid), eosSeen := ts.any fun t => t.kind = .eos }

def execStream (f : Frame) (s : State) : Out :=
  onFrame (isRequest 0x08) f s fun x t =>
    let w := bodyWord f 0
    let colour := w / 2 ^ 32 % 16
    if f.body.length < 8 || f.body.length % 16 ≠ 8 || 8 + 511 * 16 < f.body.length || w / 2 ^ 46 ≠ 0 then t.reply x.num f false 1 []
    else if !x.may colour then t.reply x.num f false 2 []
    else
      match t.dieOf (w / 2 ^ 40 % 64) with
      | none => t.reply x.num f false 7 []
      | some d => t.takeStream x.num f colour (BitVec.ofNat 32 w) (d * 16 + w / 2 ^ 36 % 16)

/-! ## QUERY (R453 to R455) -/

/-- Whether a frame is QUERY of a kind, and its encoding check. -/
def isQuery (n : Nat) (f : Frame) : Bool := isRequest 0x09 f && kindByte f = n
def queryOk (n : Nat) (f : Frame) : Bool := f.body.length = n && bodyWord f 0 < 256

/-- The two words of kind 0. -/
def State.identityBytes (s : State) : List Byte := wordBytes s.identityNat ++ wordBytes (s.hw.boot % 2 ^ 32)

/-- In recovery kind 0 is answered with status 3, though no session is open. -/
def execQueryIdentity (f : Frame) (s : State) : Out :=
  if s.hw.recovery then .next (if s.frameGood f && isQuery 0 f then s.replyLoose f 3 else s)
  else plainRequest (isQuery 0) (queryOk 8) (fun _ => none) f s fun _ t => { status := 0, data := t.identityBytes, st := t }

/-- Bits and pairs of bits, packed into bytes from the low end. -/
def packBits (n : Nat) (p : Nat → Bool) : List Byte :=
  (List.range (n / 8)).map fun i => BitVec.ofNat 8 (((List.range 8).map fun j => if p (8 * i + j) then 2 ^ j else 0).sum)
def packPairs (n : Nat) (p : Nat → Nat) : List Byte :=
  (List.range (n / 4)).map fun i => BitVec.ofNat 8 (((List.range 4).map fun j => p (4 * i + j) % 4 * 4 ^ j).sum)

/-- Codes of classes and of link states. -/
def DieClass.code : DieClass → Nat
  | .compute => 0
  | .router => 1
  | .dead => 2
def LinkState.code : LinkState → Nat
  | .absent => 0
  | .inService => 1
  | .degraded => 2
  | .outOfService | .failed => 3

/-- Whether an element position of a die that is not dead passed its test and is not retired. -/
def passes (m : DieMap) (p : Nat) : Bool := m.cls ≠ .dead && !m.deadElems.contains p

/-- The class of a plot: dead, or router-only where none of its elements is live. -/
def plotClass (m : DieMap) (p : Nat) : Nat :=
  if m.cls = .dead || m.deadPlots.contains p then 2
  else if (List.range 16).any fun i => passes m (16 * p + i) then 0
  else 1

/-- The record of one die position. -/
def State.mapRecord (s : State) (d : Nat) : List Byte :=
  let m := s.dieMap d
  let live := ((List.range 6400).filter (passes m)).length
  let halves := (m.halves.filter (passes m)).length
  [BitVec.ofNat 8 m.cls.code, BitVec.ofNat 8 (s.ldie d)] ++ bodyBytes 2 live ++ bodyBytes 2 halves ++
    ((List.range 5).map fun l => BitVec.ofNat 8 (s.link d l).code) ++
    [BitVec.ofNat 8 m.partner.1, BitVec.ofNat 8 m.partner.2] ++ List.replicate 3 0 ++
    packPairs 400 (plotClass m) ++ List.replicate 108 0 ++ packBits 6400 (passes m)

/-- Live elements and compute dies of the module. -/
def State.computeDies (s : State) : List Nat := (List.range 64).filter s.isCompute
def State.liveTotal (s : State) : Nat := (s.computeDies.map s.liveCount).sum

/-- The live map. -/
def State.liveMapBytes (s : State) : List Byte :=
  s.identityBytes ++ bodyBytes 4 s.liveTotal ++ bodyBytes 4 s.computeDies.length ++ List.replicate 40 0 ++
    (List.range 64).flatMap s.mapRecord

def execQueryLiveMap (f : Frame) (s : State) : Out :=
  plainRequest (isQuery 1) (queryOk 8) (fun _ => none) f s fun _ t => { status := 0, data := t.liveMapBytes, st := t }

/-- The jseq of the newest entry. -/
def State.newestJseq (s : State) : DWord :=
  match s.hw.journal.getLast? with
  | some e => BitVec.ofNat 64 e.jseq
  | none => Config.noEntryJseq

/-- The body of a quote, 568 bytes. -/
def State.quoteBody (s : State) (nonce : List Byte) : List Byte :=
  bodyBytes 4 0x54514F45 ++ bodyBytes 4 (s.hw.part.identity % 16) ++ bodyBytes 4 (s.hw.boot % 2 ^ 32) ++
    bodyBytes 4 s.gradeWord ++ wordBytes s.newestJseq.toNat ++ s.hw.meas.toList.flatMap id ++ nonce

def execQueryQuote (f : Frame) (s : State) : Out :=
  plainRequest (isQuery 2) (queryOk 40) (fun _ => none) f s fun _ t =>
    let b := t.quoteBody (f.body.drop 8)
    { status := 0, data := b ++ (Config.quoteSignature b).toList, st := t }

def execQueryKey (f : Frame) (s : State) : Out :=
  plainRequest (isQuery 3) (queryOk 8) (fun _ => none) f s fun _ t =>
    { status := 0, data := Config.identityKey.toList ++ Config.identityCertificate, st := t }

def execQuerySetPort (f : Frame) (s : State) : Out :=
  plainRequest (isQuery 4) (fun f => queryOk 16 f && bodyWord f 1 < 65536) (fun _ => some 0) f s fun _ t =>
    gives 0 { t with hw := { t.hw with nextPort := bodyWord f 1 } }

/-! ## JOURNAL (R447) -/

/-- Entries from a jseq on, at most n; whether older ones were asked for. -/
def State.readJournal (s : State) (first n : Nat) : Answer :=
  let oldest := ((s.hw.journal.head?).map JEntry.jseq).getD 0
  let l := (s.hw.journal.filter fun e => first ≤ e.jseq).take n
  let start := match l.head? with
    | some e => e.jseq
    | none => Config.noEntryJseq.toNat
  { status := if first < oldest then 8 else 0, data := wordBytes start ++ l.flatMap entryBytes, st := s }

def execJournal (f : Frame) (s : State) : Out :=
  plainRequest (isRequest 0x0B) (fun f => f.body.length = 16 && 1 ≤ bodyWord f 1 && bodyWord f 1 < 128) (fun _ => none) f s
    fun _ t => t.readJournal (bodyWord f 0) (bodyWord f 1)

/-! ## REPAIR (R444) -/

/-- The handle word of a REPAIR as a token of the repair channel. -/
def repairToken (f : Frame) : Token :=
  { payload := BitVec.ofNat 64 (bodyWord f 0), tag := BitVec.ofNat 32 (bodyWord f 1), kind := .data, level := 0, arm := false,
    colour := bodyWord f 3 % 16, fin := false }

/-- Whether the fields of a REPAIR are good. -/
def repairFields (f : Frame) : Bool :=
  f.body.length = 32 && bodyWord f 0 < 2 ^ 34 && !bitOf (bodyWord f 0) 31 && bodyWord f 1 < 2 ^ 32 && bodyWord f 3 < 16

/-- The repair that a REPAIR asks for. -/
def State.namedRepair (s : State) (f : Frame) : Option RepairTok :=
  s.repairOf (bodyWord f 3 % 16) (repairToken f) (BitVec.ofNat 64 (bodyWord f 2))

/-- The die whose controller a REPAIR is passed to, and the repair as applied there. -/
def State.repairDie (s : State) (f : Frame) : Option Nat := s.dieOf (bodyWord f 0 / 2 ^ 8 % 64)
def State.repairResult (s : State) (f : Frame) : Option (Nat × State) := (s.namedRepair f).map s.applyRepair

/-- Whether a repair has to wait: for its controller, which does not run (14 R360), for a firing of its element to end, or for
the repair itself, which is not yet possible (L31). -/
def State.repairWaits (s : State) (f : Frame) : Bool :=
  (s.repairDie f).any (fun d => !s.firmwareRuns d) ||
    (s.namedRepair f).any (fun r => !r.isMa && !s.betweenFirings r.dest) || (s.repairResult f).any fun q => q.1 = notYet

/-- Whether the target of a repair exists: a slot, or a live element (14 R372). -/
def State.repairThere (s : State) (r : RepairTok) : Bool := r.isMa || s.liveElem (r.dest / 6400) (r.dest % 6400)

/-- The origin's die controller applies the repair: status 0, 3 where the command completes with status 2, 7 where no such
fault is held, or no such die numbered (L36). -/
def State.hostRepair (s : State) (f : Frame) : Answer :=
  match s.repairDie f, s.namedRepair f with
  | none, _ => gives 7 s
  | some _, none => gives 3 s
  | some _, some r =>
    if !s.repairThere r then gives 3 s
    else
      let q := s.applyRepair r
      if q.1 = 0 then gives 0 q.2 else if q.1 = 2 then gives 3 s else gives 7 s

def execEoloRepair (f : Frame) (s : State) : Out :=
  if isRequest 0x0C f && s.performsNow repairFields (colourOf 3) f && s.repairWaits f then .next s
  else
    journalledRequest (isRequest 0x0C) repairFields (colourOf 3) (fun f => f.body) f s fun _ t => t.hostRepair f

/-! ## PEER (R449, R450) -/

/-- Whether a frame is PEER of a form: 0 window, 1 outfall binding, 3 inbound grant. -/
def isPeer (n : Nat) (f : Frame) : Bool := isRequest 0x0D f && bodyWord f 0 / 2 ^ 6 % 4 = n

/-- The window that words 0 to 3 give. -/
def windowOf (f : Frame) : Window :=
  { valid := bitOf (bodyWord f 0) 12, base := bodyWord f 1, len := bodyWord f 2, r := bitOf (bodyWord f 3) 0,
    w := bitOf (bodyWord f 3) 1, a := bitOf (bodyWord f 3) 2 }

/-- Whether the words of a window or grant are good. -/
def windowOk (f : Frame) : Bool :=
  let x := windowOf f
  f.body.length = 32 && bodyWord f 0 < 2 ^ 13 && bodyWord f 3 < 8 && x.base % 65536 = 0 && x.base < 2 ^ 46 &&
    x.len % 65536 = 0 && x.len ≤ 2 ^ 36 && (!x.valid || 65536 ≤ x.len)

/-- The die and number of word 0, as the key of a window, grant or outfall. -/
def State.peerKey (s : State) (f : Frame) : Option Nat :=
  (s.dieOf (bodyWord f 0 % 64)).map fun d => d * 16 + bodyWord f 0 / 2 ^ 8 % 16

/-- Whether a page of a memory actor's declared range lies in optical window w. -/
def State.holdsWindow (s : State) (d : Nat) (m : MemActor) (w : Nat) : Bool :=
  let c := maCfg m.active
  (List.range (c.len / leastPage + 2)).any fun i =>
    match s.walk d m.colour (c.vbase / leastPage * leastPage + i * leastPage) c.kind.access with
    | .page l => let a := l.address (c.vbase / leastPage * leastPage + i * leastPage); paSpace a = 2 && paStack a = w
    | _ => false

/-- Whether a memory actor bound to opt on a die, in an active load, holds window w. -/
def State.optInUse (s : State) (d w : Nat) : Bool :=
  (List.range 64).any fun n =>
    let m := s.ma (maKey d n)
    m.st ≠ .unconfigured && (maCfg m.active).port = .opt && s.holdsWindow d m w

def execPeerWindow (f : Frame) (s : State) : Out :=
  journalledRequest (isPeer 0) (fun f => windowOk f && (s.peerKey f).isSome) (fun _ => some 0) (fun f => f.body) f s fun _ t =>
    match t.peerKey f with
    | none => gives 1 t
    | some k => if t.optInUse (k / 16) (k % 16) then gives 3 t else gives 0 { t with windows := tabSet t.windows k (windowOf f) }

def execPeerInboundGrant (f : Frame) (s : State) : Out :=
  journalledRequest (isPeer 3) (fun f => windowOk f && (s.peerKey f).isSome) (fun _ => some 0) (fun f => f.body) f s fun _ t =>
    match t.peerKey f with
    | none => gives 1 t
    | some k => gives 0 { t with inbound := tabSet t.inbound k (windowOf f) }

def execPeerBind (f : Frame) (s : State) : Out :=
  journalledRequest (isPeer 1)
    (fun f => f.body.length = 24 && bodyWord f 0 < 2 ^ 12 && bodyWord f 1 < 16 && bodyWord f 2 < 2 ^ 32 && (s.peerKey f).isSome)
    (fun _ => some 0) (fun f => f.body) f s fun _ t =>
      match t.peerKey f with
      | none => gives 1 t
      | some k =>
        gives 0 (t.setOut k { t.out k with peer := some { gate := bodyWord f 1, lid := BitVec.ofNat 32 (bodyWord f 2), sent := 0 } })

/-! ## Events (R444, R360, R366) -/

/-- The session that events of a launch go to: its opener's, or the lowest-numbered that may act for the colour. -/
def State.eventSession (s : State) (opener : Option Nat) (colour : Nat) : Option Nat :=
  match opener.bind s.session with
  | some x => some x.num
  | none => s.lowestSession colour

/-- COMPLETION: journalled, then sent where a session takes it. -/
def State.sendCompletion (s : State) (l : Launch) : State :=
  let b := recBytes (completionBody l)
  let num := s.eventSession (some l.session) l.colour
  let seq := ((num.bind s.session).map Session.seq).getD 0
  let t := s.journal 0 seq 0x80 0 0 b
  match num with
  | some n => t.sendMessage n tEvent 0x80 0 false b
  | none => t

/-- The completion of an ended launch, once its message has entered mailbox 4. -/
def execCompletion (i : Nat) (s : State) : Out :=
  match s.launches[i]? with
  | none => .next s
  | some l =>
    if l.st = .ended && (s.out (completionOutfall l)).message ≠ some (completionBody l) then
      .next ({ s with launches := dropNth s.launches i }.sendCompletion l)
    else .next s

/-- FAULT: the oldest fault of a die that the host has not heard of, from its controller, which runs (14 R360); with no session
it waits among the open ones, which a session that opens later hears of. That of a launch that has ended is told once. -/
def execEoloFault (die : Nat) (s : State) : Out :=
  if !s.firmwareRuns die then .next s
  else
  match s.hw.faultsOpen.findIdx? fun x => x.die = die && !x.told && !x.channel with
  | none => .next s
  | some i =>
    match s.hw.faultsOpen[i]? with
    | none => .next s
    | some x =>
      let l := s.launch x.colour
      let t : State := { s with hw := { s.hw with
        faultsOpen := if x.past then dropNth s.hw.faultsOpen i else setNth s.hw.faultsOpen i { x with told := true } } }
      match s.eventSession (l.map Launch.session) x.colour with
      | some n => .next (t.tellFault n x.record)
      | none => .next t

/-- HALT: the second trap of a controller, to a session of colour 0 (L39). -/
def execHalt (die : Nat) (s : State) : Out :=
  let c := s.ctrl die
  match c.halted, s.lowestSession 0 with
  | some h, some n =>
    if h.told then .next s
    else
      .next ((s.setCtrl die { c with halted := some { h with told := true } }).sendMessage n tEvent 0x82 0 false
        (wordBytes (s.ldie die % 64 + h.code * 2 ^ 8) ++ wordBytes h.pc.toNat ++ wordBytes h.addr.toNat))
  | _, _ => .next s

/-- MESSAGE: a record from mailbox 2 of a die, or of the headworks itself as die 64, to a session of colour 0 (L39). -/
def execMessage (die : Nat) (s : State) : Out :=
  match s.lowestSession 0 with
  | none => .next s
  | some n =>
    if die = 64 then
      match s.hw.notes with
      | [] => .next s
      | r :: t => .next ({ s with hw := { s.hw with notes := t } }.sendMessage n tEvent 0x83 0 false (recBytes r))
    else
      match s.box die 2 with
      | [] => .next s
      | r :: t => .next ((s.setBox die 2 t).sendMessage n tEvent 0x83 0 false (recBytes r))

end Sys2Proof.Machine
end

