-- ==== Sys2Proof/Machine/Boot.lean ====
section
/-! DEFINITION. Boot, retirement and classification (16 R451, R452, R454; 18 R461 to R466, R474; 14 R357), telemetry (18
R469) and thermal limits (R471). -/

namespace Sys2Proof.Machine

/-! ## Records (R464) -/

/-- Fields of a retirement record. A failure that self-test finds is named in the same form: an element, a plot router or
a die controller; level 3 names a link (pos 0 to 4 out of service, 8 to 12 with some lanes lost) or a boot step that fails
(pos 16 step 1, pos 17 step 6). -/
def recLevel (r : DWord) : Nat := r.toNat / 2 ^ 61 % 4
def recUnit (r : DWord) : Nat := r.toNat / 2 ^ 16 % 2 ^ 13
def recPhys (r : DWord) : Nat := r.toNat % 64
def recValid (r : DWord) : Bool := r.getLsbD 63

/-- Whether a record has no reserved field or value set. -/
def recordGood (r : DWord) : Bool :=
  let n := r.toNat
  n / 2 ^ 40 % 2 ^ 21 = 0 && n / 2 ^ 29 % 8 = 0 && n / 2 ^ 6 % 2 ^ 10 = 0 && recLevel r ≠ 3 &&
    recUnit r < (if recLevel r = 0 then 6400 else if recLevel r = 1 then 400 else 1)

/-- Whether a record is in force. -/
def inForce (r : DWord) : Bool := recValid r && recordGood r

/-- Whether a record covers a unit that fails. -/
def covers (r f : DWord) : Bool :=
  inForce r && recPhys r = recPhys f &&
    ((recLevel r = recLevel f && recUnit r = recUnit f) ||
      (recLevel r = 1 && recLevel f = 0 && recUnit f / 16 = recUnit r))

/-- The record that a failing unit adds: cause 1. -/
def failureRecord (f : DWord) : DWord :=
  BitVec.ofNat 64 (2 ^ 63 + recLevel f * 2 ^ 61 + 2 ^ 32 + recUnit f * 2 ^ 16 + recPhys f)

/-- Records that the list holds. -/
def retireSize : Nat := 8192

/-- A failing unit added to the list, unless a record covers it: in the first place whose record is not valid. -/
def addFailure (l : List DWord) (f : DWord) : List DWord :=
  if l.any (covers · f) then l
  else
    match (List.range retireSize).find? fun n => !recValid (nth l n 0) with
    | some n => putWord l n (failureRecord f)
    | none => l

/-! ## What boot finds (R452, R465, R474) -/

/-- Units of a level that a list of records names on a die. -/
def unitsOf (l : List DWord) (level d : Nat) : List Nat :=
  (l.filter fun r => recLevel r = level && recPhys r = d).map recUnit

/-- Plots next to a plot on its die. -/
def plotNear (p : Nat) : List Nat :=
  (if p / 20 = 0 then [] else [p - 20]) ++ (if p / 20 = 19 then [] else [p + 20]) ++
    (if p % 20 = 0 then [] else [p - 1]) ++ if p % 20 = 19 then [] else [p + 1]

/-- What can be reached through live plots. -/
def meshGrow (live : List Nat) : Nat → List Nat → List Nat
  | 0, seen => seen
  | n + 1, seen =>
    let more := live.filter fun p => !seen.contains p && (plotNear p).any seen.contains
    if more = [] then seen else meshGrow live n (seen ++ more)

/-- Whether the live plot routers form one connected mesh. It then reaches each culvert in service, since one with a live
plot on its edge is reached (R474). -/
def meshWhole (dead : List Nat) : Bool :=
  dead = [] ||
    match (List.range 400).filter (!dead.contains ·) with
    | [] => false
    | p :: t => (meshGrow (p :: t) 400 [p]).length = t.length + 1

/-- The map of a die, without its logical number: `recs` are the records in force and the failures, `fails` the failures
of this boot. -/
def bootDie (recs fails : List DWord) (halves : List (Nat × Nat)) (partner : Nat × Nat) (d : Nat) : DieMap :=
  let elems := unitsOf recs 0 d
  let plots := unitsOf recs 1 d
  let gone := (List.range 6400).filter fun p => elems.contains p || plots.contains (p / 16)
  let dead := (List.range 400).filter fun p => (unitsOf fails 1 d).contains p
  let cls : DieClass :=
    if unitsOf fails 2 d ≠ [] || !meshWhole dead then .dead
    else if unitsOf recs 2 d ≠ [] || 6400 - gone.length < 6000 then .router
    else .compute
  { cls := cls, ldie := none, deadElems := gone
    halves := ((halves.filter fun x => x.1 = d).map fun x => x.2).filter fun p => p < 6400 && !gone.contains p
    deadPlots := dead, partner := partner }

/-- Logical numbers in serpentine order for the compute dies (01 R9). -/
def numberDies (l : List DieMap) : List DieMap :=
  let order := serpentineOrder.filter fun d => (l[d]?).any fun m => m.cls = .compute
  (List.zipIdx l).map fun x => { x.1 with ldie := order.idxOf? x.2 }

/-- The plot at place i of the edge that culvert l leaves by. -/
def edgePlot (l i : Nat) : Nat :=
  match l with
  | 0 => i
  | 1 => 20 * i + 19
  | 2 => 380 + i
  | _ => 20 * i

/-- Whether a plot router lives in a new map. -/
def livesIn (m : List DieMap) (d p : Nat) : Bool := (m[d]?).any fun x => x.cls ≠ .dead && !x.deadPlots.contains p

/-- The lanes of a culvert that attach at live plots, of its twenty edge places. -/
def lanesLive (m : List DieMap) (d l : Nat) : Nat :=
  (List.range 20).countP fun i =>
    livesIn m d (edgePlot l i) &&
      match linkPeer d l with
      | some (q, k) => livesIn m q (edgePlot k i)
      | none => true

/-- The state of a link at boot. -/
def bootLink (m : List DieMap) (fails : List DWord) (d l : Nat) : LinkState :=
  let named (n : Nat) : Bool :=
    (unitsOf fails 3 d).contains n ||
      match linkPeer d l with
      | some (q, k) => (unitsOf fails 3 q).contains (n - l + k)
      | none => false
  let lanes := if l = 4 then (if livesIn m d 0 || (m[d]?).any (·.cls ≠ .dead) then 20 else 0) else lanesLive m d l
  if named l || lanes = 0 then .outOfService
  else if named (8 + l) || lanes < 20 then .degraded
  else .inService

/-- The links of the module at boot; those at a panel edge stay absent. -/
def State.bootLinks (s : State) (m : List DieMap) (fails : List DWord) : Tab LinkState :=
  (List.range 320).filterMap fun k =>
    let was := ({ s with links := [] } : State).link (k / 5) (k % 5)
    let now := bootLink m fails (k / 5) (k % 5)
    if was = .absent || now = .inService then none else some (k, now)

/-! ## The boot steps (R451) -/

/-- M0 to M7 as step 7 leaves them. -/
def State.bootMeasures (s : State) : Vector (List Byte) 8 :=
  bootMeasured s.hw.part.stepping s.liveMapBytes (bodyBytes 4 s.gradeWord)

/-- The boot number of the next boot. -/
def nextBoot (n : Nat) : Nat := Nat.min (n + 1) 0xFFFFFFFF

/-- Controllers that boot does not release: those of dead dies, or all of them. -/
def heldControllers (all : Bool) (m : List DieMap) : Tab Controller :=
  ((List.range 64).filter fun d => all || (m[d]?).any fun x => x.cls = .dead).map fun d =>
    (d, { Controller.reset with released := false })

/-- A MESSAGE for each record with a reserved field or value; its body is not given (L33). -/
def badNotes (free : Nat) (l : List DWord) : List Rec :=
  (List.zipIdx (l.filter fun r => recValid r && !recordGood r)).map fun x =>
    { w0 := Config.freeNote (free + 4 * x.2), w1 := Config.freeNote (free + 4 * x.2 + 1)
      w2 := Config.freeNote (free + 4 * x.2 + 2), w3 := Config.freeNote (free + 4 * x.2 + 3) }

/-- What a reset keeps: the non-volatile store, the fuses, and what has left for the host (R466). -/
def State.rebooted (s : State) (recovery : Bool) (notes : List Rec) (retire : List DWord) : Headworks :=
  { Headworks.reset with
    outbox := s.hw.outbox, boot := nextBoot s.hw.boot, recovery := recovery, udpPort := s.hw.nextPort,
    nextPort := s.hw.nextPort, retire := retire, part := s.hw.part, notes := notes,
    meas := Vector.replicate 8 noMeasure }

/-- The boot steps with the failures that self-test finds. -/
def State.boot (s : State) (fails : List DWord) (halves : List (Nat × Nat)) : State :=
  let step (n : Nat) : Bool := fails.any fun f => recLevel f = 3 && recUnit f = n
  let units := fails.filter fun f => recLevel f ≠ 3
  let notes := badNotes s.free s.hw.retire
  let base : State := { State.reset with agenda := s.agenda, free := s.free + 4 * notes.length }
  if step 16 then
    { base with live := s.live, ctrls := heldControllers true s.live, hw := s.rebooted true [] s.hw.retire }
  else
    let retire := units.foldl addFailure s.hw.retire
    let recs := (retire.filter inForce) ++ units
    let live := numberDies ((List.range 64).map fun d => bootDie recs units halves (Config.partner (nextBoot s.hw.boot) d) d)
    let t : State := { base with
      live := live, links := s.bootLinks live fails, ctrls := heldControllers (step 17) live
      hw := s.rebooted (step 17) notes retire }
    if step 17 then t else { t with hw := { t.hw with meas := t.bootMeasures } }

def execModuleReset (failures : List DWord) (halves : List (Nat × Nat)) (s : State) : Out := .next (s.boot failures halves)

/-! ## Telemetry (R469) -/

/-- The base of the telemetry blocks. -/
def telemetryBase : Nat := 0x0003000FFFF00000

/-- The hottest plot of a die: its temperature in units of 0.125 °C, and its index. -/
def State.hottest (s : State) (d : Nat) : Nat × Nat :=
  (List.range 400).foldl (fun m p =>
    let h := (s.plot (d * 400 + p)).hot * 8 / 10
    if m.1 < h then (h, p) else m) (0, 0)

/-- The block of a die that a controller writes at a count of its lcnt. -/
def State.telemetryBlock (s : State) (stamp d : Nat) : List Byte :=
  let t := s.tel d
  let h := s.hottest d
  wordBytes stamp ++ wordBytes t.corrected ++ wordBytes t.uncorrected ++
    ((List.range 5).flatMap fun l => wordBytes ((tabGet t.retrains l).getD 0)) ++
    wordBytes (Config.freePower d s.free).toNat ++ wordBytes (h.1 % 65536 + h.2 * 65536) ++ wordBytes t.thermal ++
    ((List.range 21).flatMap fun c => wordBytes ((tabGet t.faults (c + 1)).getD 0)) ++ wordBytes s.hw.part.stepping ++
    List.replicate 760 0

/-- Controller cycles in 1 ms, at the nominal 1.00 GHz (14 R361). -/
def updateCycles : Nat := 1000000

/-- The count of lcnt at which the next update of a controller is due: one update each 1 ms of lcnt, from 0 at boot. -/
def State.updateDue (s : State) (die : Nat) : DWord := BitVec.ofNat 64 (updateCycles * ((s.tel die).updates + 1))

/-- The cycles pass until lcnt reaches a count, if it has not passed it. -/
def elapseTo (c : Controller) (n : DWord) : Controller := if c.lcnt.toNat < n.toNat then elapse c (n - c.lcnt) else c

/-- The telemetry of a die as an update finds it: errors that its stack has corrected since the last are counted, a number that
the manual does not give (L6). -/
def State.countTel (s : State) (d : Nat) : State :=
  let t := s.tel d
  s.setTel d { t with updates := t.updates + 1, corrected := t.corrected + Config.freeCorrected d s.free }

/-- A controller writes the block of its die and of each router-only die whose stack it owns, each 1 ms of its lcnt. -/
def execTelemetryUpdate (die : Nat) (s : State) : Out :=
  if s.isCompute die && s.firmwareRuns die then
    let due := s.updateDue die
    .next ((die :: s.unattached die).foldl (fun t d =>
      let u := t.countTel d
      (u.physWrite (telemetryBase + 1024 * d) (u.telemetryBlock due.toNat d)).bumpFree)
      (s.setCtrl die (elapseTo (s.ctrl die) due)))
  else .next s

/-! ## Thermal limits (R471) -/

/-- A plot under another thermal limit, or under none: where its frequency changes, event 9, and telemetry counts it. -/
def State.thermalClock (s : State) (die plot : Nat) (limit : Option Nat) : State :=
  let x := { s.plot (die * 400 + plot) with limit := limit }
  let mhz := clockReached x x.asked
  if x.mhz = mhz then s.setPlot (die * 400 + plot) x
  else
    let t := (s.setPlot (die * 400 + plot) { x with mhz := mhz }).setTel die { s.tel die with thermal := (s.tel die).thermal + 1 }
    t.latch die 9

/-- The limit of a plot a step higher, until it reaches what the plot is asked to run at. -/
def limitRaised (x : Plot) : Option Nat := x.limit.bind fun n => if n + 25 < x.asked then some (n + 25) else none

/-- A plot's temperature after 1 ms: at 105 °C its clock falls a step, below 100 °C it rises one; at 120 °C and 400 MHz the
module resets, with what self-test found before (L36). A limit holds from the first step down until the clock has come back up
(L99). -/
def execThermal (die plot tenthsC : Nat) (s : State) : Out :=
  if (s.dieMap die).cls = .dead || 400 ≤ plot then .next s
  else
    let x := s.plot (die * 400 + plot)
    let t := s.setPlot (die * 400 + plot) { x with hot := tenthsC }
    if 1200 ≤ tenthsC && x.mhz ≤ 400 then
      .next (s.boot [] ((List.range 64).flatMap fun d => (s.dieMap d).halves.map fun p => (d, p)))
    else if 1050 ≤ tenthsC then .next (t.thermalClock die plot (some (Nat.max 400 (x.mhz - 25))))
    else if tenthsC < 1000 then .next (t.thermalClock die plot (limitRaised x))
    else .next t

end Sys2Proof.Machine
end

