-- ==== Sys2Proof/Machine/Flags.lean ====
section
/-! DEFINITION. Conditions. The machine has no status flags: a compare writes one predicate (07 R202, 08 R238). -/

namespace Sys2Proof.Machine

/-- Integer conditions on n-bit operands (07 Table 7-3). -/
def intCond {n : Nat} (cc : IntCc) (a b : BitVec n) : Bool :=
  match cc with
  | .eq => a == b
  | .ne => a != b
  | .lt => a.slt b
  | .ge => !a.slt b
  | .lo => a.ult b
  | .hs => !a.ult b

/-- Integer conditions with the .w flag: the low 32 bits (07 R202). -/
def intCondW (cc : IntCc) (w : Bool) (a b : DWord) : Bool :=
  if w then intCond cc (a.truncate 32) (b.truncate 32) else intCond cc a b

/-- Float conditions on FP32 encodings (03 R86, 08 R238). -/
def floatCond (cc : FloatCc) (a b : Word) : Bool :=
  let x := valOf .fp32 a.toNat
  let y := valOf .fp32 b.toNat
  let unord := x.isNan || y.isNan
  let lt := x.lt y
  let gt := y.lt x
  match cc with
  | .eq => !unord && !lt && !gt
  | .ne => unord || lt || gt
  | .lt => lt
  | .le => !unord && !gt
  | .gt => gt
  | .ge => !unord && !lt
  | .un => unord

end Sys2Proof.Machine
end

