-- ==== Sys2Proof/Machine/FloatInstr.lean ====
section
/-! DEFINITION. Majors 0x10 to 0x13: floating point, conversions, float compare (08 R226 to R238). -/

namespace Sys2Proof.Machine

/-! ## Major 0x10 -/

def execFadd (fmt : Fmt) (d a b : SQ) (s : State) : Out := floatOp2 s d a b (map2 fmt faddLane)
def execFsub (fmt : Fmt) (d a b : SQ) (s : State) : Out := floatOp2 s d a b (map2 fmt fsubLane)
def execFmul (fmt : Fmt) (d a b : SQ) (s : State) : Out := floatOp2 s d a b (map2 fmt fmulLane)
def execFdiv (fmt : Fmt) (d a b : SQ) (s : State) : Out := floatOp2 s d a b (map2 fmt fdivLane)
def execFmin (fmt : Fmt) (d a b : SQ) (s : State) : Out := floatOp2 s d a b (map2 fmt fun fm => fminmax fm false)
def execFmax (fmt : Fmt) (d a b : SQ) (s : State) : Out := floatOp2 s d a b (map2 fmt fun fm => fminmax fm true)
def execFcps (fmt : Fmt) (d a b : SQ) (s : State) : Out := floatOp2 s d a b (map2 fmt fcpsLane)
def execFabs (fmt : Fmt) (d a : SQ) (s : State) : Out := floatOp1 s d a (map1 fmt fun fm x => fm.mag x)
def execFneg (fmt : Fmt) (d a : SQ) (s : State) : Out :=
  floatOp1 s d a (map1 fmt fun fm x => fm.withSign (!fm.sign x) (fm.mag x))
def execFsqrt (fmt : Fmt) (d a : SQ) (s : State) : Out := floatOp1 s d a (map1 fmt fun fm x => fsqrtLane fm (valOf fm x))
def execFrcp (fmt : Fmt) (d a : SQ) (s : State) : Out := floatOp1 s d a (map1 fmt fun fm x => frcpLane fm (valOf fm x))
def execFrsq (fmt : Fmt) (d a : SQ) (s : State) : Out := floatOp1 s d a (map1 fmt fun fm x => frsqLane fm (valOf fm x))
def execFexp2 (fmt : Fmt) (d a : SQ) (s : State) : Out := floatOp1 s d a (map1 fmt fun fm x => fexp2Lane fm (valOf fm x))
def execFlog2 (fmt : Fmt) (d a : SQ) (s : State) : Out := floatOp1 s d a (map1 fmt fun fm x => flog2Lane fm (valOf fm x))

/-- The class byte of a lane; under erratum 1 the two NaN encodings of E4M3 report fmsb 0 (18 Table 18-1). -/
def classByte (old : Bool) (fmt : Fmt) (x : Nat) : Nat :=
  let c := fclassLane (laneFormat fmt) x
  if old && fmt = .e4m3x4 && x % 128 = 127 then c - 16 else c

/-- The class bytes of a word (08 R232). -/
def fclassWord (old : Bool) (fmt : Fmt) (a : Word) : DWord :=
  let fm := laneFormat fmt
  BitVec.ofNat 64 (joinLanes 8 ((List.range (lanes fmt)).map fun i => classByte old fmt (laneOf fm.width i a.toNat)))

/-- Whether the image that the element in focus runs from selects erratum n (12 R314, 18 R468). -/
def State.showsErratum (s : State) (n : Nat) : Bool :=
  match s.focus with
  | .element d p => imgErrata (s.imageOf (s.elem (elemKey d p)).colour) / 2 ^ n % 2 = 1
  | .controller _ => false

def execFclass (fmt : Fmt) (d : BitVec 5) (a : SQ) (s : State) : Out :=
  withOperands s false (sqPops a) none fun t vals => (t.setReg d (fclassWord (t.showsErratum 1) fmt (t.fsrc a vals))).advance

/-- The exact sum of the lanes, rounded once to FP32 (08 R229). -/
def fsum2Word (fmt : Fmt) (a : Word) : Word :=
  let fm := laneFormat fmt
  let v (i : Nat) : FVal := valOf fm (laneOf fm.width i a.toNat)
  BitVec.ofNat 32 (roundN .fp32 (((List.range (lanes fmt - 1)).map fun i => v (i + 1)).foldl FVal.add (v 0)))

def execFsum2 (fmt : Fmt) (d a : SQ) (s : State) : Out := floatOp1 s d a (fsum2Word fmt)

/-- FPACK (08 R230). -/
def fpackWord (fmt : Fmt) (a b : Word) : Word :=
  let fm := laneFormat fmt
  if lanes fmt = 2 then
    BitVec.ofNat 32 (joinLanes 16 [cvtF a.toNat .fp32 fm .rn false 0, cvtF b.toNat .fp32 fm .rn false 0])
  else
    let c (w : Word) (i : Nat) : Nat := cvtF (laneOf 16 i w.toNat) .bf16 fm .rn false 0
    BitVec.ofNat 32 (joinLanes 8 [c a 0, c a 1, c b 0, c b 1])

def execFpack (fmt : Fmt) (d a b : SQ) (s : State) : Out := floatOp2 s d a b (fpackWord fmt)

/-- FUNPACK (08 R231). -/
def funpackWord (fmt : Fmt) (a : Word) : Word :=
  let fm := laneFormat fmt
  if lanes fmt = 2 then BitVec.ofNat 32 (cvtF (laneOf 16 1 a.toNat) fm .fp32 .rn false 0)
  else
    let c (i : Nat) : Nat := cvtF (laneOf 8 i a.toNat) fm .bf16 .rn false 0
    BitVec.ofNat 32 (joinLanes 16 [c 2, c 3])

def execFunpack (fmt : Fmt) (d a : SQ) (s : State) : Out := floatOp1 s d a (funpackWord fmt)

/-! ## Major 0x11: d is a third source, read after a and b (08 R228) -/

/-- The three fused forms. -/
def fusedOp (s : State) (fmt : Fmt) (negProd negAdd : Bool) (d : BitVec 5) (a b : SQ) : Out :=
  withOperands s false (sqPops a ++ sqPops b) none fun t vals =>
    (t.setReg d ((map3 fmt (fun fm => fmaLane fm negProd negAdd) (t.fsrc a vals) (t.fsrc b (sqRest a vals))
      ((t.reg d).truncate 32)).zeroExtend 64)).advance

def execFma (fmt : Fmt) (d : BitVec 5) (a b : SQ) (s : State) : Out := fusedOp s fmt false false d a b
def execFms (fmt : Fmt) (d : BitVec 5) (a b : SQ) (s : State) : Out := fusedOp s fmt false true d a b
def execFnma (fmt : Fmt) (d : BitVec 5) (a b : SQ) (s : State) : Out := fusedOp s fmt true false d a b

/-! ## Major 0x12: conversions -/

/-- The firing in focus, or none on a controller. -/
def State.firing (s : State) : Firing :=
  match s.focus with
  | .element d p => (s.elem (elemKey d p)).fir
  | .controller _ => Firing.idle

/-- The i-th draw of the next instruction (03 R80): key xt[31:0]. -/
def State.draw (s : State) (i : Nat) : Word :=
  furrow (s.firing.stoch + BitVec.ofNat 32 i) ((s.alt fun e => e.xt).truncate 32)

/-- n draws are used up. -/
def State.useDraws (s : State) (rm : Rm) (n : Nat) : State :=
  match rm, s.focus with
  | .rs, .element d p =>
    let e := s.elem (elemKey d p)
    s.setElem (elemKey d p) { e with fir := { e.fir with stoch := e.fir.stoch + BitVec.ofNat 32 n } }
  | _, _ => s

/-- A conversion of a word to a word, with n draws. -/
def convertOp (s : State) (rm : Rm) (n : Nat) (d a : SQ) (f : (Nat → Word) → Word → Word) : Out :=
  withOperands s false (sqPops a) (sqPush d) fun t vals =>
    ((t.useDraws rm n).fdst d (f t.draw (t.fsrc a vals))).advance

/-- FCVT between two fmt formats (08 R234). -/
def fcvtWord (src dst : Fmt) (rm : Rm) (sat : Bool) (r : Nat → Word) (a : Word) : Word :=
  let fs := laneFormat src
  let fd := laneFormat dst
  BitVec.ofNat 32 (joinLanes fd.width ((List.range (min (lanes src) (lanes dst))).map fun i =>
    cvtF (laneOf fs.width i a.toNat) fs fd rm sat (r i)))

def execFcvt (src dst : Fmt) (rm : Rm) (sat : Bool) (d a : SQ) (s : State) : Out :=
  convertOp s rm (min (lanes src) (lanes dst)) d a (fcvtWord src dst rm sat)

/-- FCVT from E2M1 nibbles (08 R235). -/
def fromE2m1Word (dst : Fmt) (rm : Rm) (r : Nat → Word) (a : Word) : Word :=
  let fd := laneFormat dst
  BitVec.ofNat 32 (joinLanes fd.width ((List.range (lanes dst)).map fun i =>
    cvtF (laneOf 4 i a.toNat) .e2m1 fd rm false (r i)))

def execFcvtFromE2m1 (dst : Fmt) (rm : Rm) (d a : SQ) (s : State) : Out :=
  convertOp s rm (lanes dst) d a (fromE2m1Word dst rm)

/-- FCVT to E2M1 nibbles (08 R235). -/
def toE2m1Word (src : Fmt) (rm : Rm) (sat : Bool) (r : Nat → Word) (a : Word) : Word :=
  let fs := laneFormat src
  BitVec.ofNat 32 (joinLanes 4 ((List.range (lanes src)).map fun i =>
    cvtF (laneOf fs.width i a.toNat) fs .e2m1 rm sat (r i)))

def execFcvtToE2m1 (src : Fmt) (rm : Rm) (sat : Bool) (d a : SQ) (s : State) : Out :=
  convertOp s rm (lanes src) d a (toE2m1Word src rm sat)

/-- A conversion of lane 0 to an integer of n bits, extended to 64 (08 R236). -/
def toIntWord (src : Fmt) (n : Nat) (rm : Rm) (sgn : Bool) (r : Nat → Word) (a : Word) : DWord :=
  let fs := laneFormat src
  let t := BitVec.ofNat n (cvtI (valOf fs (laneOf fs.width 0 a.toNat)) n sgn rm (r 0))
  if sgn then t.signExtend 64 else t.zeroExtend 64

/-- A conversion of every lane to a byte (08 R236). -/
def toBytesWord (src : Fmt) (rm : Rm) (sgn : Bool) (r : Nat → Word) (a : Word) : DWord :=
  let fs := laneFormat src
  BitVec.ofNat 64 (joinLanes 8 ((List.range (lanes src)).map fun i =>
    cvtI (valOf fs (laneOf fs.width i a.toNat)) 8 sgn rm (r i)))

/-- A conversion of a word to an integer destination. -/
def convertIntOp (s : State) (rm : Rm) (n : Nat) (d a : SQ) (f : (Nat → Word) → Word → DWord) : Out :=
  withOperands s false (sqPops a) (sqPush d) fun t vals =>
    ((t.useDraws rm n).idst d (f t.draw (t.fsrc a vals))).advance

def execFcvti32 (src : Fmt) (rm : Rm) (sgn : Bool) (d a : SQ) (s : State) : Out :=
  convertIntOp s rm 1 d a (toIntWord src 32 rm sgn)
def execFcvti64 (src : Fmt) (rm : Rm) (sgn : Bool) (d : BitVec 5) (a : SQ) (s : State) : Out :=
  convertIntOp s rm 1 (.s d) a (toIntWord src 64 rm sgn)
def execFcvti8 (src : Fmt) (rm : Rm) (sgn : Bool) (d a : SQ) (s : State) : Out :=
  convertIntOp s rm (lanes src) d a (toBytesWord src rm sgn)

/-- An n-bit integer read as the sgn field says. -/
def asInt {n : Nat} (sgn : Bool) (x : BitVec n) : Int := if sgn then x.toInt else x.toNat

/-- ICVTF of one integer to lane 0 (08 R237). -/
def fromIntWord (dst : Fmt) (rm : Rm) (r : Nat → Word) (v : Int) : Word :=
  BitVec.ofNat 32 (round (laneFormat dst) rm false (r 0) (intVal v))

/-- ICVTF of bytes to lanes. -/
def fromBytesWord (dst : Fmt) (rm : Rm) (sgn : Bool) (r : Nat → Word) (a : Word) : Word :=
  let fd := laneFormat dst
  BitVec.ofNat 32 (joinLanes fd.width ((List.range (lanes dst)).map fun i =>
    round fd rm false (r i) (intVal (asInt sgn (BitVec.ofNat 8 (laneOf 8 i a.toNat))))))

def execIcvtf32 (dst : Fmt) (rm : Rm) (sgn : Bool) (d a : SQ) (s : State) : Out :=
  convertOp s rm 1 d a fun r x => fromIntWord dst rm r (asInt sgn x)
def execIcvtf64 (dst : Fmt) (rm : Rm) (sgn : Bool) (d : SQ) (a : BitVec 5) (s : State) : Out :=
  withOperands s false [] (sqPush d) fun t _ =>
    ((t.useDraws rm 1).fdst d (fromIntWord dst rm t.draw (asInt sgn (t.reg a)))).advance
def execIcvtf8 (dst : Fmt) (rm : Rm) (sgn : Bool) (d a : SQ) (s : State) : Out :=
  convertOp s rm (lanes dst) d a (fromBytesWord dst rm sgn)

/-! ## Major 0x13 -/

def execFcmp (cc : FloatCc) (pd : BitVec 3) (a b : SQ) (s : State) : Out :=
  withOperands s false (sqPops a ++ sqPops b) none fun t vals =>
    (t.setPred pd (floatCond cc (t.fsrc a vals) (t.fsrc b (sqRest a vals)))).advance

end Sys2Proof.Machine
end

