-- ==== Sys2Proof/Machine/Integer.lean ====
section
/-! DEFINITION. Major 0x00, immediates, compares, predicates and select (07 R195 to R205). -/

namespace Sys2Proof.Machine

/-! ## Results of Table 7-1 -/

/-- The low n bits of an operand, as the .w flag says. -/
def lowU (w : Bool) (a : DWord) : Nat := if w then (a.truncate 32 : Word).toNat else a.toNat
def lowS (w : Bool) (a : DWord) : Int := if w then (a.truncate 32 : Word).toInt else a.toInt

/-- n. -/
def widthOf (w : Bool) : Nat := if w then 32 else 64

/-- The result r as the destination takes it: Wrap(r, 64), or SExt(Wrap(r, 32), 64) with .w. -/
def wrapW (w : Bool) (r : Int) : DWord := if w then (BitVec.ofInt 32 r).signExtend 64 else BitVec.ofInt 64 r

/-- The shift amount: modulo the width (07 R196). -/
def shiftAmount (w : Bool) (b : DWord) : Nat := if w then b.toNat % 32 else b.toNat % 64

/-- ADD, SUB, MUL. -/
def rAdd (w : Bool) (a b : DWord) : DWord := wrapW w (lowU w a + lowU w b)
def rSub (w : Bool) (a b : DWord) : DWord := wrapW w (lowU w a - lowU w b)
def rMul (w : Bool) (a b : DWord) : DWord := wrapW w (lowS w a * lowS w b)

/-- SLL, SRL, SRA, ROL with the amount sh. -/
def rSll (w : Bool) (a : DWord) (sh : Nat) : DWord := wrapW w (lowU w a * 2 ^ sh : Nat)
def rSrl (w : Bool) (a : DWord) (sh : Nat) : DWord := wrapW w (lowU w a / 2 ^ sh : Nat)
def rSra (w : Bool) (a : DWord) (sh : Nat) : DWord := wrapW w (lowS w a / (2 ^ sh : Nat))
def rRol (w : Bool) (a : DWord) (sh : Nat) : DWord :=
  let n := widthOf w
  wrapW w (lowU w a * 2 ^ sh % 2 ^ n + lowU w a / 2 ^ (n - sh) : Nat)

/-- MULH and MULHZ. -/
def rMulh (a b : DWord) : DWord := BitVec.ofInt 64 (a.toInt * b.toInt / (2 ^ 64 : Nat))
def rMulhz (a b : DWord) : DWord := BitVec.ofNat 64 (a.toNat * b.toNat / 2 ^ 64)

/-- DIV, DIVZ, REM, REMZ (07 R196). -/
def rDiv (w : Bool) (a b : DWord) : DWord :=
  let n := widthOf w
  let x := lowS w a
  let y := lowS w b
  if lowU w b = 0 then wrapW w (2 ^ n - 1 : Nat)
  else if x = -(2 ^ (n - 1) : Nat) ∧ y = -1 then wrapW w (2 ^ (n - 1) - 1 : Nat)
  else wrapW w (Int.tdiv x y)
def rDivz (w : Bool) (a b : DWord) : DWord :=
  if lowU w b = 0 then wrapW w (2 ^ widthOf w - 1 : Nat) else wrapW w (lowU w a / lowU w b : Nat)
def rRem (w : Bool) (a b : DWord) : DWord :=
  if lowU w b = 0 then wrapW w (lowS w a) else wrapW w (lowS w a - lowS w b * Int.tdiv (lowS w a) (lowS w b))
def rRemz (w : Bool) (a b : DWord) : DWord :=
  if lowU w b = 0 then wrapW w (lowU w a) else wrapW w (lowU w a % lowU w b : Nat)

/-- MIN, MAX, MINZ, MAXZ. -/
def rMin (a b : DWord) : DWord := if a.slt b then a else b
def rMax (a b : DWord) : DWord := if a.slt b then b else a
def rMinz (a b : DWord) : DWord := if a.ult b then a else b
def rMaxz (a b : DWord) : DWord := if a.ult b then b else a

/-- SatS (03 R74). -/
def satS (w : Bool) (v : Int) : DWord :=
  let n := widthOf w
  wrapW w (min (max v (-(2 ^ (n - 1) : Nat))) ((2 ^ (n - 1) : Nat) - 1))

/-- ADDS, SUBS. -/
def rAdds (w : Bool) (a b : DWord) : DWord := satS w (lowS w a + lowS w b)
def rSubs (w : Bool) (a b : DWord) : DWord := satS w (lowS w a - lowS w b)

/-- CLZ, CTZ, POPC. -/
def clzNat (n a : Nat) : Nat := if a = 0 then n else n - 1 - a.log2
def ctzNat : Nat → Nat → Nat
  | 0, _ => 0
  | n + 1, a => if a % 2 = 1 then 0 else 1 + ctzNat n (a / 2)
def popNat : Nat → Nat → Nat
  | 0, _ => 0
  | n + 1, a => a % 2 + popNat n (a / 2)
def rClz (w : Bool) (a : DWord) : DWord := BitVec.ofNat 64 (clzNat (widthOf w) (lowU w a))
def rCtz (w : Bool) (a : DWord) : DWord := BitVec.ofNat 64 (ctzNat (widthOf w) (lowU w a))
def rPopc (w : Bool) (a : DWord) : DWord := BitVec.ofNat 64 (popNat (widthOf w) (lowU w a))

/-- BREV and BSWAP. -/
def rBrev (a : DWord) : DWord := a.reverse
def rBswap (a : DWord) : DWord :=
  a.extractLsb' 0 8 ++ a.extractLsb' 8 8 ++ a.extractLsb' 16 8 ++ a.extractLsb' 24 8 ++ a.extractLsb' 32 8 ++
    a.extractLsb' 40 8 ++ a.extractLsb' 48 8 ++ a.extractLsb' 56 8

/-- Position and length of the field that a descriptor names (07 R197). -/
def fieldPos (b : DWord) : Nat := b.toNat % 64
def fieldLen (b : DWord) : Nat := min (b.toNat / 256 % 64 + 1) (64 - fieldPos b)

/-- EXTZ, EXT and INS. -/
def rExtz (a b : DWord) : DWord := BitVec.ofNat 64 (a.toNat / 2 ^ fieldPos b % 2 ^ fieldLen b)
def rExt (a b : DWord) : DWord :=
  let m := fieldLen b
  (BitVec.ofNat m (a.toNat / 2 ^ fieldPos b)).signExtend 64
def rIns (d a b : DWord) : DWord :=
  let mask := BitVec.ofNat 64 ((2 ^ fieldLen b - 1) * 2 ^ fieldPos b)
  (d &&& ~~~mask) ||| ((a <<< fieldPos b) &&& mask)

/-- RAND: key a, counter b (03 R94). -/
def rRand (a b : DWord) : DWord := (furrow (b.truncate 32) (a.truncate 32)).zeroExtend 64

/-! ## Major 0x00 -/

def execAdd (d : SQ) (a b : Src) (w : Bool) (s : State) : Out := intOp2 s d a b (rAdd w)
def execSub (d : SQ) (a b : Src) (w : Bool) (s : State) : Out := intOp2 s d a b (rSub w)
def execAnd (d : SQ) (a b : Src) (s : State) : Out := intOp2 s d a b fun x y => x &&& y
def execOr (d : SQ) (a b : Src) (s : State) : Out := intOp2 s d a b fun x y => x ||| y
def execXor (d : SQ) (a b : Src) (s : State) : Out := intOp2 s d a b fun x y => x ^^^ y
def execAndn (d : SQ) (a b : Src) (s : State) : Out := intOp2 s d a b fun x y => x &&& ~~~y
def execOrn (d : SQ) (a b : Src) (s : State) : Out := intOp2 s d a b fun x y => x ||| ~~~y
def execSll (d : SQ) (a b : Src) (w : Bool) (s : State) : Out := intOp2 s d a b fun x y => rSll w x (shiftAmount w y)
def execSrl (d : SQ) (a b : Src) (w : Bool) (s : State) : Out := intOp2 s d a b fun x y => rSrl w x (shiftAmount w y)
def execSra (d : SQ) (a b : Src) (w : Bool) (s : State) : Out := intOp2 s d a b fun x y => rSra w x (shiftAmount w y)
def execRol (d : SQ) (a b : Src) (w : Bool) (s : State) : Out := intOp2 s d a b fun x y => rRol w x (shiftAmount w y)
def execMul (d : SQ) (a b : Src) (w : Bool) (s : State) : Out := intOp2 s d a b (rMul w)
def execMulh (d : SQ) (a b : Src) (s : State) : Out := intOp2 s d a b rMulh
def execMulhz (d : SQ) (a b : Src) (s : State) : Out := intOp2 s d a b rMulhz
def execDiv (d : SQ) (a b : Src) (w : Bool) (s : State) : Out := intOp2 s d a b (rDiv w)
def execDivz (d : SQ) (a b : Src) (w : Bool) (s : State) : Out := intOp2 s d a b (rDivz w)
def execRem (d : SQ) (a b : Src) (w : Bool) (s : State) : Out := intOp2 s d a b (rRem w)
def execRemz (d : SQ) (a b : Src) (w : Bool) (s : State) : Out := intOp2 s d a b (rRemz w)
def execMin (d : SQ) (a b : Src) (s : State) : Out := intOp2 s d a b rMin
def execMax (d : SQ) (a b : Src) (s : State) : Out := intOp2 s d a b rMax
def execMinz (d : SQ) (a b : Src) (s : State) : Out := intOp2 s d a b rMinz
def execMaxz (d : SQ) (a b : Src) (s : State) : Out := intOp2 s d a b rMaxz
def execAdds (d : SQ) (a b : Src) (w : Bool) (s : State) : Out := intOp2 s d a b (rAdds w)
def execSubs (d : SQ) (a b : Src) (w : Bool) (s : State) : Out := intOp2 s d a b (rSubs w)
def execClz (d : SQ) (a : Src) (w : Bool) (s : State) : Out := intOp1 s d a (rClz w)
def execCtz (d : SQ) (a : Src) (w : Bool) (s : State) : Out := intOp1 s d a (rCtz w)
def execPopc (d : SQ) (a : Src) (w : Bool) (s : State) : Out := intOp1 s d a (rPopc w)
def execBrev (d : SQ) (a : Src) (s : State) : Out := intOp1 s d a rBrev
def execBswap (d : SQ) (a : Src) (s : State) : Out := intOp1 s d a rBswap
def execExt (d : SQ) (a b : Src) (s : State) : Out := intOp2 s d a b rExt
def execExtz (d : SQ) (a b : Src) (s : State) : Out := intOp2 s d a b rExtz
def execRand (d : SQ) (a b : Src) (s : State) : Out := intOp2 s d a b rRand

/-- INS reads d as a third source, after a and b (07 R197). -/
def execIns (d : BitVec 5) (a b : Src) (s : State) : Out :=
  srcOp2 s a b fun t x y => t.setReg d (rIns (t.reg d) x y)

/-! ## Immediates (07 R198 to R201) -/

def execAddi (d a : BitVec 5) (imm : BitVec 16) (s : State) : Out := immOp s d a fun x => x + imm.signExtend 64
def execAndi (d a : BitVec 5) (imm : BitVec 16) (s : State) : Out := immOp s d a fun x => x &&& imm.zeroExtend 64
def execOri (d a : BitVec 5) (imm : BitVec 16) (s : State) : Out := immOp s d a fun x => x ||| imm.zeroExtend 64
def execXori (d a : BitVec 5) (imm : BitVec 16) (s : State) : Out := immOp s d a fun x => x ^^^ imm.zeroExtend 64
def execSlli (d a : BitVec 5) (w : Bool) (k : BitVec 6) (s : State) : Out := immOp s d a fun x => rSll w x k.toNat
def execSrli (d a : BitVec 5) (w : Bool) (k : BitVec 6) (s : State) : Out := immOp s d a fun x => rSrl w x k.toNat
def execSrai (d a : BitVec 5) (w : Bool) (k : BitVec 6) (s : State) : Out := immOp s d a fun x => rSra w x k.toNat

/-- LUI: the immediate times 2^16 (07 R200). -/
def execLui (d : BitVec 5) (imm : BitVec 16) (s : State) : Out :=
  .next ((s.setReg d (imm.signExtend 64 <<< 16)).advance)

/-- LIX: a 44-bit signed immediate, and on to PC + 8 (07 R201). -/
def execLix (d : BitVec 5) (imm : BitVec 44) (s : State) : Out :=
  .next ((s.setReg d (imm.signExtend 64)).advance 8)

/-! ## Compares, predicates, select (07 R202 to R205) -/

def execCmp (cc : IntCc) (pd : BitVec 3) (a b : Src) (w : Bool) (s : State) : Out :=
  srcOp2 s a b fun t x y => t.setPred pd (intCondW cc w x y)

def execCmpi (cc : IntCc) (pd : BitVec 3) (a : BitVec 5) (imm : BitVec 13) (s : State) : Out :=
  .next ((s.setPred pd (intCond cc (s.reg a) (imm.signExtend 64))).advance)

/-- A predicate operation. -/
def predOp (s : State) (pd : BitVec 3) (v : Bool) : Out := .next ((s.setPred pd v).advance)

def execPand (pd pa pb : BitVec 3) (s : State) : Out := predOp s pd (s.core.pred pa && s.core.pred pb)
def execPor (pd pa pb : BitVec 3) (s : State) : Out := predOp s pd (s.core.pred pa || s.core.pred pb)
def execPxor (pd pa pb : BitVec 3) (s : State) : Out := predOp s pd (s.core.pred pa ^^ s.core.pred pb)
def execPnot (pd pa : BitVec 3) (s : State) : Out := predOp s pd (!s.core.pred pa)
def execPmov (pd pa : BitVec 3) (s : State) : Out := predOp s pd (s.core.pred pa)

/-- SEL reads both sources, in order, and writes one (07 R205). -/
def execSel (d : BitVec 5) (pn : Bool) (p : BitVec 3) (a b : Src) (s : State) : Out :=
  srcOp2 s a b fun t x y => t.setReg d (if t.core.pred p ^^ pn then x else y)

end Sys2Proof.Machine
end

