-- ==== Sys2Proof/Machine/Matrix.lean ====
section
/-! DEFINITION. The matrix unit (03 R87 to R93; 09 R274 to R290): tile values, MMA and MSR steps, the microprogram, the
command queue, and its instructions. -/

namespace Sys2Proof.Machine

/-! ## Tile values (09 R275, R276) -/

/-- Format, K and G of an operand format (03 Table 3-7). -/
def mmaFormat : MmaFmt → FFormat
  | .f32 => .fp32
  | .bf16 => .bf16
  | .f16 => .fp16
  | .e4m3 | .int8 => .e4m3
  | .e5m2 => .e5m2
  | .e2m1 => .e2m1
def mmaK : MmaFmt → Nat
  | .f32 => 16
  | .bf16 | .f16 => 32
  | .e4m3 | .e5m2 | .int8 => 64
  | .e2m1 => 128
def mmaG : MmaFmt → Nat
  | .f32 | .bf16 | .f16 => 8
  | .e4m3 | .e5m2 | .e2m1 => 32
  | .int8 => 64

/-- Value k of row i of a tile slot, as its encoding (Table 9-5). -/
def tileValue (m : Mem) (mf : MmaFmt) (slot i k : Nat) : Nat :=
  let row := tileAddr slot + 64 * i
  match mf with
  | .f32 => Memory.read m (row + 4 * k) 4
  | .bf16 | .f16 => Memory.read m (row + 2 * k) 2
  | .e4m3 | .e5m2 | .int8 => Memory.read m (row + k) 1
  | .e2m1 => Memory.read m (row + k / 2) 1 / (if k % 2 = 0 then 1 else 16) % 16

/-- Offset of a row's scale extension bytes: rows of A first, then rows of B (R276). -/
def extOffset (isB : Bool) (i g : Nat) : Nat := (if isB then 16 else 0) + 2 * i + (g - 2)

/-- The scale byte of row i and group g: 127 in an unscaled MMA, in the slot's scale area, or in the extension, whose
bytes are `ext` (R275, R276). -/
def scaleByte (m : Mem) (ext : Nat → Nat) (mf : MmaFmt) (sc isB : Bool) (slot i g : Nat) : Nat :=
  if !sc then 127
  else if mf = .e2m1 && 2 ≤ g then ext (extOffset isB i g)
  else Memory.read m (tileAddr slot + 512 + 2 * i + g) 1

/-- The value of a scale byte (E8M0). -/
def scaleVal (b : Nat) : FVal := if b = 0xFF then .nan else .fin false 1 ((b : Int) - 127)

/-- The exact sum of products; a zero sum is −0 only when every product is (R88). -/
def sumProducts : List FVal → FVal
  | [] => .fin false 0 0
  | p :: ps => ps.foldl FVal.add p

/-- The sum S of group g of position (i, j) (R87). -/
def groupSum (m : Mem) (ext : Nat → Nat) (mf : MmaFmt) (sc : Bool) (ta tb i j g : Nat) : FVal :=
  let fm := mmaFormat mf
  let sa := scaleVal (scaleByte m ext mf sc false ta i g)
  let sb := scaleVal (scaleByte m ext mf sc true tb j g)
  sumProducts ((List.range (mmaG mf)).map fun n =>
    let k := g * mmaG mf + n
    (((valOf fm (tileValue m mf ta i k)).mul (valOf fm (tileValue m mf tb j k))).mul sa).mul sb)

/-- An INT8 group sum (R89). -/
def intSum (m : Mem) (ta tb i j : Nat) : Int :=
  ((List.range 64).map fun k =>
    (BitVec.ofNat 8 (tileValue m .int8 ta i k)).toInt * (BitVec.ofNat 8 (tileValue m .int8 tb j k)).toInt).sum

/-- The accumulator word of position (i, j) after all groups of an MMA. -/
def mmaWord (m : Mem) (ext : Nat → Nat) (mf : MmaFmt) (sc : Bool) (ta tb : Nat) (w : Word) (i j : Nat) : Word :=
  match mf with
  | .int8 => BitVec.ofInt 32 (w.toInt + intSum m ta tb i j)
  | _ =>
    (List.range (mmaK mf / mmaG mf)).foldl
      (fun acc g =>
        BitVec.ofNat 32 (roundN .fp32 ((valOf .fp32 acc.toNat).add (groupSum m ext mf sc ta tb i j g)))) w

/-! ## The microprogram (03 R91 to R93) -/

/-- One operation word. -/
structure MicroOp where
  op : Nat
  d : Nat
  x : Nat
  y : Nat
  reserved : Nat
deriving DecidableEq, Repr

/-- The fields of an operation word. -/
def microOp (w : Nat) : MicroOp :=
  { op := w / 4096 % 16, d := w / 256 % 4, x := w / 16 % 16, y := w % 16, reserved := w / 1024 % 4 }

/-- Count, constant and operations of a 16-byte image. -/
def microCount (im : List Byte) : Nat := leAt im 12 1 % 8
def microConst (im : List Byte) : Word := BitVec.ofNat 32 (leAt im 8 4)
def microOps (im : List Byte) : List MicroOp := (List.range (microCount im)).map fun j => microOp (leAt im (2 * j) 2)

/-- Whether an operation word is one of Table 3-9 with legal fields. -/
def MicroOp.ok (o : MicroOp) : Bool :=
  o.op ≤ 6 && o.d ≤ 1 && o.x ≤ 4 && o.y ≤ 4 && o.reserved = 0 && (o.op ≠ 6 || (o.x = 0 && o.y = 0))

/-- Whether an image is one that R91 accepts. -/
def microOk (im : List Byte) : Bool :=
  1 ≤ microCount im && microCount im ≤ 4 && leAt im 12 1 / 8 = 0 && leAt im 13 3 = 0 && (microOps im).all MicroOp.ok

/-- A source of an operation: a, b, s, t or the constant. -/
def microSrc (a b c s t : Word) (n : Nat) : Word :=
  match n with
  | 0 => a
  | 1 => b
  | 2 => s
  | 3 => t
  | _ => c

/-- The result of one operation (Table 3-9). -/
def microResult (o : MicroOp) (x y c t : Word) : Word :=
  let vx := valOf .fp32 x.toNat
  let vy := valOf .fp32 y.toNat
  match o.op with
  | 0 => BitVec.ofNat 32 (roundN .fp32 (vx.add vy))
  | 1 => BitVec.ofNat 32 (roundN .fp32 (vx.sub vy))
  | 2 => BitVec.ofNat 32 (roundN .fp32 (vx.mul vy))
  | 3 => BitVec.ofNat 32 (fminmax .fp32 false x.toNat y.toNat)
  | 4 => BitVec.ofNat 32 (fminmax .fp32 true x.toNat y.toNat)
  | 5 => if floatCond .gt t 0 then x else y
  | _ => c

/-- The operations of one k, on (s, t). -/
def microStep (ops : List MicroOp) (a b c : Word) (st : Word × Word) : Word × Word :=
  ops.foldl
    (fun p o =>
      let r := microResult o (microSrc a b c p.1 p.2 o.x) (microSrc a b c p.1 p.2 o.y) c p.2
      if o.d = 0 then (r, p.2) else (p.1, r)) st

/-- MsrRun for one position (R93). -/
def msrWord (m : Mem) (im : List Byte) (ta tb : Nat) (w : Word) (i j : Nat) : Word :=
  (List.range 16).foldl
    (fun s k =>
      (microStep (microOps im) (BitVec.ofNat 32 (tileValue m .f32 ta i k)) (BitVec.ofNat 32 (tileValue m .f32 tb j k))
        (microConst im) (s, 0)).1) w

/-! ## Accumulators (09 R277) -/

/-- Word n of accumulator acc. -/
def accWord (e : Element) (acc : BitVec 2) (n : Nat) : Word := nth e.acc.toList (64 * acc.toNat + n) 0

/-- Every word of an accumulator replaced. -/
def setAcc (e : Element) (acc : BitVec 2) (f : Nat → Word) : Element :=
  { e with acc := Vector.ofFn fun n : Fin 256 => if n.val / 64 = acc.toNat then f (n.val % 64) else e.acc[n] }

/-! ## The queue (09 R278 to R281) -/

/-- Commands that the queue holds. -/
def matrixQueueSize : Nat := 8

/-- A matrix instruction with its issue check made: it joins the queue, or stalls while the queue is full. -/
def State.enqueue (s : State) (k : Nat) (c : MCmd) : State :=
  let e := s.elem k
  if matrixQueueSize ≤ e.mq.length then s.stall
  else (s.setElem k { e with mq := e.mq ++ [c], fir := { e.fir with clean := false } }).advance

/-- The issue checks of an address for n bytes (R279). -/
def matrixAddrFault (e : Element) (a : DWord) (n : Nat) (write : Bool) : Fails :=
  let x := a.toNat
  if x % 16 ≠ 0 then some (cMisalign, a)
  else if x + n > emEnd then some (cEmRange, a)
  else if write && (x < constEnd || (List.range n).any fun i => inBitmap e (x + i)) then some (cEmRange, a)
  else none

/-- A queued instruction without an address. -/
def queued (s : State) (c : MCmd) : Out := onElement s fun k => .next (s.enqueue k c)

/-- A queued instruction with an address. -/
def queuedAt (s : State) (a : BitVec 5) (n : Nat) (write : Bool) (c : Nat → MCmd) : Out :=
  onElement s fun k =>
    match matrixAddrFault (s.elem k) (s.reg a) n write with
    | some f => .next (s.raise f.1 f.2)
    | none => .next (s.enqueue k (c (s.reg a).toNat))

def execMma (mf : MmaFmt) (sc clear : Bool) (acc : BitVec 2) (ta tb : BitVec 4) (a : BitVec 5) (s : State) : Out :=
  if mf = .e2m1 then queuedAt s a 32 false fun x => .mma mf sc clear acc ta tb x
  else queued s (.mma mf sc clear acc ta tb 0)
def execMsr (clear : Bool) (acc : BitVec 2) (ta tb : BitVec 4) (s : State) : Out := queued s (.msr clear acc ta tb)
def execMldm (a : BitVec 5) (s : State) : Out := queuedAt s a 16 false MCmd.mldm
def execMzero (acc : BitVec 2) (s : State) : Out := queued s (.mzero acc)
def execMstore (acc : BitVec 2) (a : BitVec 5) (s : State) : Out := queuedAt s a 256 true (MCmd.mstore acc)
def execMloada (acc : BitVec 2) (a : BitVec 5) (s : State) : Out := queuedAt s a 256 false (MCmd.mloada acc)
def execMfill (t : BitVec 4) (s : State) : Out := queued s (.mfill t)
def execMempty (t : BitVec 4) (s : State) : Out := queued s (.mempty t)

/-- An instruction that waits until the queue is empty and ends cleanliness. -/
def afterQueue (s : State) (eff : Nat → State → State) : Out :=
  onElement s fun k =>
    let e := s.elem k
    if e.mq ≠ [] then .next s.stall
    else .next (eff k (s.setElem k { e with fir := { e.fir with clean := false } })).advance

def execMread (d a : BitVec 5) (acc : BitVec 2) (s : State) : Out :=
  afterQueue s fun k t => t.setReg d ((accWord (s.elem k) acc ((s.reg a).toNat % 64)).zeroExtend 64)
def execMwait (s : State) : Out := afterQueue s fun _ t => t

/-- A mask of the tile slots in a state. -/
def tileMask (e : Element) (t : TileState) : Nat :=
  ((List.range 16).map fun n => if tileOf e n = t then 2 ^ n else 0).sum

/-- The snapshot of MSTAT (R290). -/
def mstatValue (e : Element) : DWord :=
  BitVec.ofNat 64 (e.mq.length + tileMask e .full * 2 ^ 16 + tileMask e .filling * 2 ^ 32 +
    (match e.mprog with | some im => microCount im | none => 0) * 2 ^ 48)

def execMstat (d : BitVec 5) (s : State) : Out := onElement s fun k => .next (s.setReg d (mstatValue (s.elem k))).advance

/-! ## Execution -/

/-- The fn of a command (Table 9-7), for the detail word. -/
def mmaFmtCode : MmaFmt → Nat
  | .f32 => 0
  | .bf16 => 1
  | .f16 => 2
  | .e4m3 => 3
  | .e5m2 => 4
  | .e2m1 => 5
  | .int8 => 6
def cmdFn : MCmd → Nat
  | .mma mf sc _ _ _ _ _ => mmaFmtCode mf + (if sc then 8 else 0)
  | .msr _ _ _ _ => 0
  | .mldm _ => 1
  | .mzero _ => 0x10
  | .mstore _ _ => 0x12
  | .mloada _ _ => 0x13
  | .mfill _ => 0x14
  | .mempty _ => 0x15
def cmdAcc : MCmd → Nat
  | .mma _ _ _ acc _ _ _ => acc.toNat
  | .msr _ acc _ _ => acc.toNat
  | .mzero acc => acc.toNat
  | .mstore acc _ => acc.toNat
  | .mloada acc _ => acc.toNat
  | .mldm _ | .mfill _ | .mempty _ => 0

/-- The tile slots that a command reads. -/
def cmdTiles : MCmd → List Nat
  | .mma _ _ _ _ ta tb _ => [ta.toNat, tb.toNat]
  | .msr _ _ ta tb => [ta.toNat, tb.toNat]
  | _ => []

/-- The detail word of a MATRIX_CFG at the head of the queue (R280). -/
def matrixDetail (c : MCmd) (cause slot : Nat) : DWord :=
  BitVec.ofNat 64 (cause + slot * 2 ^ 8 + cmdAcc c * 2 ^ 12 + cmdFn c * 2 ^ 16)

/-- What the head of the queue comes to: wait, fault with a cause and a slot, or run. -/
inductive HeadCheck where
  | wait
  | fails (cause slot : Nat)
  | run
deriving DecidableEq, Repr

/-- The tile slots of a command, A before B: 09 R280 does not order them (L97). -/
def tilesCheck (e : Element) : List Nat → HeadCheck
  | [] => .run
  | n :: rest =>
    match slotCheck e n with
    | .waits => .wait
    | .starved => .fails 3 n
    | .ready => tilesCheck e rest

/-- The 16 bytes of a microprogram image. -/
def microImage (ext : Nat → Nat) : List Byte := (List.range 16).map fun i => BitVec.ofNat 8 (ext i)

/-- The checks of a command at execution (R280, R284, R285, R288); `ext` reads the bytes at the address taken at issue. Causes 1
and 2 name no tile slot (L97). -/
def headCheck (e : Element) (ext : Nat → Nat) (c : MCmd) : HeadCheck :=
  match c with
  | .mldm _ => if microOk (microImage ext) then .run else .fails 1 0
  | .msr _ _ _ _ => if e.mprog.isNone then .fails 2 0 else tilesCheck e (cmdTiles c)
  | .mfill t | .mempty t => if tileOf e t.toNat = .filling then .fails 4 t.toNat else .run
  | _ => tilesCheck e (cmdTiles c)

/-- Tile slots emptied by the .c flag. -/
def clearTiles (e : Element) (clear : Bool) (l : List Nat) : Element :=
  if clear then l.foldl (fun e n => setTile e n .empty) e else e

/-- The memory image of an accumulator written at an address (R277). -/
def writeAcc (e : Element) (acc : BitVec 2) (a : Nat) : Element :=
  (List.range 64).foldl (fun e' n => emWrite e' (a + 4 * n) (accWord e acc n).toNat 4) e

/-- The effect of a command (R283 to R288); `ext` reads the scale extension, image or accumulator at the address taken at
issue. -/
def runCommand (e : Element) (ext : Nat → Nat) (c : MCmd) : Element :=
  match c with
  | .mma mf sc clear acc ta tb _ =>
    clearTiles (setAcc e acc fun n => mmaWord e.mem ext mf sc ta.toNat tb.toNat (accWord e acc n) (n / 8) (n % 8)) clear
      (cmdTiles c)
  | .msr clear acc ta tb =>
    clearTiles (setAcc e acc fun n =>
      msrWord e.mem (e.mprog.getD []) ta.toNat tb.toNat (accWord e acc n) (n / 8) (n % 8)) clear (cmdTiles c)
  | .mldm _ => { e with mprog := some (microImage ext) }
  | .mzero acc => setAcc e acc fun _ => 0
  | .mstore acc a => writeAcc e acc a
  | .mloada acc _ => setAcc e acc fun n =>
    BitVec.ofNat 32 (ext (4 * n) + ext (4 * n + 1) * 2 ^ 8 + ext (4 * n + 2) * 2 ^ 16 + ext (4 * n + 3) * 2 ^ 24)
  | .mfill t => setTile e t.toNat .full
  | .mempty t => setTile e t.toNat .empty

/-- Element memory as a command reads it from the address taken at issue (R276, R285, R288); in the constant window it is
what the element's last firing saw (L38). -/
def State.extBytes (s : State) (k : Nat) (c : MCmd) : Nat → Nat :=
  match c with
  | .mma _ _ _ _ _ _ a | .mldm a | .mloada _ a => fun n => (s.emByte k (s.elem k).fir.slot (a + n)).toNat
  | _ => fun _ => 0

/-- The matrix unit carries out the command at the head of its queue, waits for its tile slots, or discards the queue
with MATRIX_CFG. -/
def execMatrixCommandExecute (die pos : Nat) (s : State) : Out :=
  let k := elemKey die pos
  let e := s.elem k
  match e.mq with
  | [] => .next s
  | c :: rest =>
    match headCheck e (s.extBytes k c) c with
    | .wait => .next s
    | .fails cause slot =>
      .next ((s.setElem k { e with mq := [] }).asyncFault k cMatrixCfg (matrixDetail c cause slot))
    | .run => .next (s.setElem k { runCommand e (s.extBytes k c) c with mq := rest })

end Sys2Proof.Machine
end

