-- ==== Sys2Proof/Machine/MemFlow.lean ====
section
/-! DEFINITION. Element memory (07 R214 to R220) and control flow but for DONE (07 R206 to R213). On a controller the
same instructions act on its SRAM (14 R356, R358). -/

namespace Sys2Proof.Machine

/-! ## Loads and stores -/

/-- Access size of a load width (Table 7-5). -/
def loadSize : LoadWidth → Nat
  | .s8 | .z8 => 1
  | .s16 | .z16 => 2
  | .s32 | .z32 => 4
  | .d64 => 8

/-- Access size of a store width. -/
def storeSize : StoreWidth → Nat
  | .b8 => 1
  | .b16 => 2
  | .b32 => 4
  | .b64 => 8

/-- The loaded value, extended as the width says. -/
def loadValue (wd : LoadWidth) (v : Nat) : DWord :=
  match wd with
  | .s8 => (BitVec.ofNat 8 v).signExtend 64
  | .s16 => (BitVec.ofNat 16 v).signExtend 64
  | .s32 => (BitVec.ofNat 32 v).signExtend 64
  | .z8 => (BitVec.ofNat 8 v).zeroExtend 64
  | .z16 => (BitVec.ofNat 16 v).zeroExtend 64
  | .z32 => (BitVec.ofNat 32 v).zeroExtend 64
  | .d64 => BitVec.ofNat 64 v

/-- Whether a store of n bytes touches the constant window or a retire bitmap; a controller has neither. -/
def State.storeForbidden (s : State) (a n : Nat) : Bool :=
  match s.focus with
  | .element d p => a < constEnd || (List.range n).any fun i => inBitmap (s.elem (elemKey d p)) (a + i)
  | .controller _ => false

/-- The checks of R215 (14 R358): the fault code of the first that fails. -/
def State.accessFault (s : State) (ea : DWord) (n : Nat) (isStore : Bool) : Option Nat :=
  if ea.toNat % n ≠ 0 then some cMisalign
  else if ea.toNat + n > s.memEnd then some cEmRange
  else if isStore && s.storeForbidden ea.toNat n then some cEmRange
  else none

/-- The effective address of LD and ST, and of LDX and STX. -/
def State.offsetAddr (s : State) (a : BitVec 5) (off : BitVec 13) : DWord := s.reg a + off.signExtend 64
def State.indexAddr (s : State) (a b : BitVec 5) (n : Nat) : DWord := s.reg a + s.reg b * BitVec.ofNat 64 n

/-- A load from ea. -/
def loadFrom (s : State) (wd : LoadWidth) (d : BitVec 5) (ea : DWord) : Out :=
  match s.accessFault ea (loadSize wd) false with
  | some c => .next (s.raiseMem c ea)
  | none => .next ((s.setReg d (loadValue wd (s.load ea.toNat (loadSize wd)))).advance)

/-- A store to ea. -/
def storeTo (s : State) (wd : StoreWidth) (d : BitVec 5) (ea : DWord) : Out :=
  match s.accessFault ea (storeSize wd) true with
  | some c => .next (s.raiseMem c ea)
  | none => .next ((s.storeBytes ea.toNat (s.reg d).toNat (storeSize wd)).advance)

def execLd (wd : LoadWidth) (d a : BitVec 5) (off : BitVec 13) (s : State) : Out := loadFrom s wd d (s.offsetAddr a off)
def execSt (wd : StoreWidth) (d a : BitVec 5) (off : BitVec 13) (s : State) : Out := storeTo s wd d (s.offsetAddr a off)
def execLdx (wd : LoadWidth) (d a b : BitVec 5) (s : State) : Out := loadFrom s wd d (s.indexAddr a b (loadSize wd))
def execStx (wd : StoreWidth) (d a b : BitVec 5) (s : State) : Out := storeTo s wd d (s.indexAddr a b (storeSize wd))

/-- LDC: constant word k; ILLEGAL on a controller (07 R219). -/
def execLdc (d : BitVec 5) (k : BitVec 8) (s : State) : Out :=
  onElement s fun e => .next ((s.setReg d (BitVec.ofNat 64 (s.emRead e (s.elem e).fir.slot (4 * k.toNat) 4))).advance)

/-! ## Branches, jumps, calls -/

/-- BrTarget(off). -/
def State.brTarget (s : State) (off : BitVec 22) : DWord := s.core.pc + (off.signExtend 64 <<< 2)

/-- The loop levels after a taken BR or JMP to t: levels that t leaves are deactivated, innermost first (07 R210). -/
def leaveLoops (t : DWord) : List Loop → List Loop
  | [] => []
  | l :: outer => if l.start.toNat ≤ t.toNat && t.toNat ≤ l.stop.toNat then l :: outer else leaveLoops t outer

/-- A taken BR or JMP. -/
def State.branch (s : State) (t : DWord) : State :=
  (s.setCore { s.core with loops := leaveLoops t s.core.loops }).goto t

/-- The link register. -/
def linkReg : BitVec 5 := 31

def execBr (pn : Bool) (p : BitVec 3) (off : BitVec 22) (s : State) : Out :=
  if s.core.pred p ^^ pn then .next (s.branch (s.brTarget off)) else .next s.advance
def execJmp (off : BitVec 22) (s : State) : Out := .next (s.branch (s.brTarget off))
def execCall (off : BitVec 22) (s : State) : Out :=
  .next ((s.setReg linkReg (s.core.pc + 4)).goto (s.brTarget off))
def execJr (a : BitVec 5) (s : State) : Out := .next (s.goto (s.reg a))
def execCallr (a : BitVec 5) (s : State) : Out := .next ((s.setReg linkReg (s.core.pc + 4)).goto (s.reg a))
def execRet (s : State) : Out := .next (s.goto (s.reg linkReg))
def execNop (s : State) : Out := .next s.advance

/-! ## Counted loops (07 R209, R211; 14 R359) -/

/-- LOOP. -/
def execLoop (c : BitVec 5) (body : BitVec 16) (s : State) : Out :=
  let pc := s.core.pc
  let stop := pc + BitVec.ofNat 64 (4 * body.toNat)
  let last := s.word stop.toNat
  if stop.toNat + 4 > s.memEnd then .next (s.raise cEmRange (noDetail cEmRange))
  else if isExtWord last then .next (s.raise cIllegal (noDetail cIllegal))
  else if 2 ≤ s.core.loops.length then .next (s.raise cIllegal (noDetail cIllegal))
  else if s.core.loops.any fun l => l.stop = pc then .next (s.raise cIllegal (noDetail cIllegal))
  else
    let cnt := s.reg c
    if cnt = 0 then .next (s.goto (stop + if last.extractLsb' 26 6 = 0x3B then 8 else 4))
    else
      .next ((s.setCore { s.core with loops := { start := pc + 4, stop := stop, left := cnt } :: s.core.loops }).goto (pc + 4))

/-- Majors that RPT refuses (07 R211). -/
def rptMajorBad (w : Word) : Bool :=
  let m := (w.extractLsb' 26 6).toNat
  (0x0C ≤ m && m ≤ 0x0F) || m = 0x3B

/-- The check of RPT on the word at u. -/
def State.rptFault (s : State) (u : DWord) : Option Nat :=
  match s.fetchAt u with
  | .error c => some c
  | .ok _ => if rptMajorBad (s.word u.toNat) then some cIllegal else none

/-- The addresses that RPT repeats. -/
def rptAddrs (pc : DWord) (n : Nat) : List DWord := (List.range n).map fun i => pc + 4 + BitVec.ofNat 64 (4 * i)

/-- RPT. A failed check names the word it was made on (07 R211). -/
def execRpt (c : BitVec 5) (n : BitVec 4) (s : State) : Out :=
  let pc := s.core.pc
  let len := n.toNat + 1
  match (rptAddrs pc len).find? fun u => (s.rptFault u).isSome with
  | some u =>
    let t := s.setCore { s.core with pc := u }
    .next (match s.focus with
      | .element _ _ => t.raise ((s.rptFault u).getD cIllegal) (noDetail ((s.rptFault u).getD cIllegal))
      | .controller _ => s.raiseAt ((s.rptFault u).getD cIllegal) u (noDetail ((s.rptFault u).getD cIllegal)))
  | none =>
    if s.core.loops.any fun l => pc.toNat ≤ l.stop.toNat && l.stop.toNat ≤ pc.toNat + 4 * len then .next (s.raise cIllegal (noDetail cIllegal))
    else
      let cnt := s.reg c
      if cnt = 0 then .next (s.goto (pc + 4 + BitVec.ofNat 64 (4 * len)))
      else
        let words := (rptAddrs pc len).map fun u => s.word u.toNat
        .next ((s.setCore { s.core with rpt := some { pc := pc, words := words, idx := 0, left := cnt } }).goto (pc + 4))

end Sys2Proof.Machine
end

