-- ==== Sys2Proof/Machine/System.lean ====
section
/-! DEFINITION. Element system instructions (09 R291 to R298). -/

namespace Sys2Proof.Machine

def execQshape (d : BitVec 5) (n : Fin 10) (s : State) : Out :=
  onElement s fun k => .next (s.setReg d (BitVec.ofNat 64 (s.shape k (s.elem k).fir.slot n))).advance

/-- The values of Table 9-10. -/
def State.identity (s : State) (k n : Nat) : Nat :=
  let e := s.elem k
  let b := s.imageOf e.colour
  match n with
  | 0 => e.colour
  | 1 => e.load % 64
  | 2 => 1
  | 3 => imgErrata b % 2 ^ 32
  | 4 => imgErrata b / 2 ^ 32
  | 5 => imgGen b
  | _ => tileAddr 0

def execRdid (d : BitVec 5) (n : Fin 7) (s : State) : Out :=
  onElement s fun k => .next (s.setReg d (BitVec.ofNat 64 (s.identity k n))).advance

def execFault (a : Src) (s : State) : Out :=
  onElement s fun _ => withOperands s false (srcPops a) none fun t vals => t.raise cUserFault (t.src a vals)

/-- The condition of 04 R132: no accepted push waits to be written, and no matrix command is left. -/
def fenceMet (e : Element) : Bool := e.mq = [] && e.gens.toList.all fun g => g.st ≠ .write || g.waiting = []

def execFenceE (s : State) : Out :=
  onElement s fun k => if fenceMet (s.elem k) then .next s.advance else .next s.stall

/-- Counters 4 and 5 advance by cycles that the manual does not give (L6); those stalled on a sluice are in counter 4 already, but
where erratum 0 omits them. -/
def freshPerf (e : Element) (n : Fin 8) (cycles : DWord) : Element :=
  if n.val = 4 then { e with perf := e.perf.set 4 (e.perf[4] + cycles) }
  else if n.val = 5 then { e with perf := e.perf.set 5 (e.perf[5] + cycles) }
  else e

/-- Counter n of Table 9-11. -/
def perfValue (e : Element) (n : Fin 8) : DWord :=
  if n.val = 7 then BitVec.ofNat 64 e.store.length else nth e.perf.toList n 0

def execPerf (d : BitVec 5) (n : Fin 8) (s : State) : Out :=
  onElement s fun k =>
    let e := freshPerf (s.elem k) n (Config.freeCycles s.free)
    .next ((s.setElem k e).bumpFree.setReg d (perfValue e n)).advance

/-- The key of the plot that holds an element. -/
def plotKey (k : Nat) : Nat := k / 6400 * 400 + k % 6400 / 16

/-- CYC: the plot's count, which has advanced by cycles that the manual does not give (L6). -/
def execCyc (d : BitVec 5) (s : State) : Out :=
  onElement s fun k =>
    let p := s.plot (plotKey k)
    let c := p.cycles + Config.freeCycles s.free
    .next ((s.setPlot (plotKey k) { p with cycles := c }).bumpFree.setReg d c).advance

end Sys2Proof.Machine
end

