-- ==== Sys2Proof/Machine/Dispatch.lean ====
section
/-! DEFINITION. One arm for every constructor of Instr, each a direct call of its meaning. -/

namespace Sys2Proof.Machine

def exec (i : Instr) (s : State) : Host.Outcome State Fault Refusal :=
  match i with
  | .add d a b w => Sys2Proof.Machine.execAdd d a b w s
  | .sub d a b w => Sys2Proof.Machine.execSub d a b w s
  | .and d a b => Sys2Proof.Machine.execAnd d a b s
  | .or d a b => Sys2Proof.Machine.execOr d a b s
  | .xor d a b => Sys2Proof.Machine.execXor d a b s
  | .andn d a b => Sys2Proof.Machine.execAndn d a b s
  | .orn d a b => Sys2Proof.Machine.execOrn d a b s
  | .sll d a b w => Sys2Proof.Machine.execSll d a b w s
  | .srl d a b w => Sys2Proof.Machine.execSrl d a b w s
  | .sra d a b w => Sys2Proof.Machine.execSra d a b w s
  | .rol d a b w => Sys2Proof.Machine.execRol d a b w s
  | .mul d a b w => Sys2Proof.Machine.execMul d a b w s
  | .mulh d a b => Sys2Proof.Machine.execMulh d a b s
  | .mulhz d a b => Sys2Proof.Machine.execMulhz d a b s
  | .div d a b w => Sys2Proof.Machine.execDiv d a b w s
  | .divz d a b w => Sys2Proof.Machine.execDivz d a b w s
  | .rem d a b w => Sys2Proof.Machine.execRem d a b w s
  | .remz d a b w => Sys2Proof.Machine.execRemz d a b w s
  | .min d a b => Sys2Proof.Machine.execMin d a b s
  | .max d a b => Sys2Proof.Machine.execMax d a b s
  | .minz d a b => Sys2Proof.Machine.execMinz d a b s
  | .maxz d a b => Sys2Proof.Machine.execMaxz d a b s
  | .adds d a b w => Sys2Proof.Machine.execAdds d a b w s
  | .subs d a b w => Sys2Proof.Machine.execSubs d a b w s
  | .clz d a w => Sys2Proof.Machine.execClz d a w s
  | .ctz d a w => Sys2Proof.Machine.execCtz d a w s
  | .popc d a w => Sys2Proof.Machine.execPopc d a w s
  | .brev d a => Sys2Proof.Machine.execBrev d a s
  | .bswap d a => Sys2Proof.Machine.execBswap d a s
  | .ext d a b => Sys2Proof.Machine.execExt d a b s
  | .extz d a b => Sys2Proof.Machine.execExtz d a b s
  | .ins d a b => Sys2Proof.Machine.execIns d a b s
  | .rand d a b => Sys2Proof.Machine.execRand d a b s
  | .addi d a imm => Sys2Proof.Machine.execAddi d a imm s
  | .andi d a imm => Sys2Proof.Machine.execAndi d a imm s
  | .ori d a imm => Sys2Proof.Machine.execOri d a imm s
  | .xori d a imm => Sys2Proof.Machine.execXori d a imm s
  | .slli d a w k => Sys2Proof.Machine.execSlli d a w k s
  | .srli d a w k => Sys2Proof.Machine.execSrli d a w k s
  | .srai d a w k => Sys2Proof.Machine.execSrai d a w k s
  | .lui d imm => Sys2Proof.Machine.execLui d imm s
  | .cmpi cc pd a imm => Sys2Proof.Machine.execCmpi cc pd a imm s
  | .ld wd d a off => Sys2Proof.Machine.execLd wd d a off s
  | .st wd d a off => Sys2Proof.Machine.execSt wd d a off s
  | .ldx wd d a b => Sys2Proof.Machine.execLdx wd d a b s
  | .stx wd d a b => Sys2Proof.Machine.execStx wd d a b s
  | .ldc d k => Sys2Proof.Machine.execLdc d k s
  | .br pn p off => Sys2Proof.Machine.execBr pn p off s
  | .jmp off => Sys2Proof.Machine.execJmp off s
  | .call off => Sys2Proof.Machine.execCall off s
  | .jr a => Sys2Proof.Machine.execJr a s
  | .callr a => Sys2Proof.Machine.execCallr a s
  | .ret => Sys2Proof.Machine.execRet s
  | .done => Sys2Proof.Machine.execDone s
  | .nop => Sys2Proof.Machine.execNop s
  | .loop c body => Sys2Proof.Machine.execLoop c body s
  | .rpt c n => Sys2Proof.Machine.execRpt c n s
  | .fadd fmt d a b => Sys2Proof.Machine.execFadd fmt d a b s
  | .fsub fmt d a b => Sys2Proof.Machine.execFsub fmt d a b s
  | .fmul fmt d a b => Sys2Proof.Machine.execFmul fmt d a b s
  | .fdiv fmt d a b => Sys2Proof.Machine.execFdiv fmt d a b s
  | .fmin fmt d a b => Sys2Proof.Machine.execFmin fmt d a b s
  | .fmax fmt d a b => Sys2Proof.Machine.execFmax fmt d a b s
  | .fabs fmt d a => Sys2Proof.Machine.execFabs fmt d a s
  | .fneg fmt d a => Sys2Proof.Machine.execFneg fmt d a s
  | .fcps fmt d a b => Sys2Proof.Machine.execFcps fmt d a b s
  | .fsqrt fmt d a => Sys2Proof.Machine.execFsqrt fmt d a s
  | .frcp fmt d a => Sys2Proof.Machine.execFrcp fmt d a s
  | .frsq fmt d a => Sys2Proof.Machine.execFrsq fmt d a s
  | .fexp2 fmt d a => Sys2Proof.Machine.execFexp2 fmt d a s
  | .flog2 fmt d a => Sys2Proof.Machine.execFlog2 fmt d a s
  | .fclass fmt d a => Sys2Proof.Machine.execFclass fmt d a s
  | .fsum2 fmt d a => Sys2Proof.Machine.execFsum2 fmt d a s
  | .fpack fmt d a b => Sys2Proof.Machine.execFpack fmt d a b s
  | .funpack fmt d a => Sys2Proof.Machine.execFunpack fmt d a s
  | .fma fmt d a b => Sys2Proof.Machine.execFma fmt d a b s
  | .fms fmt d a b => Sys2Proof.Machine.execFms fmt d a b s
  | .fnma fmt d a b => Sys2Proof.Machine.execFnma fmt d a b s
  | .fcvt src dst rm sat d a => Sys2Proof.Machine.execFcvt src dst rm sat d a s
  | .fcvtFromE2m1 dst rm d a => Sys2Proof.Machine.execFcvtFromE2m1 dst rm d a s
  | .fcvtToE2m1 src rm sat d a => Sys2Proof.Machine.execFcvtToE2m1 src rm sat d a s
  | .fcvti32 src rm sgn d a => Sys2Proof.Machine.execFcvti32 src rm sgn d a s
  | .fcvti64 src rm sgn d a => Sys2Proof.Machine.execFcvti64 src rm sgn d a s
  | .fcvti8 src rm sgn d a => Sys2Proof.Machine.execFcvti8 src rm sgn d a s
  | .icvtf32 dst rm sgn d a => Sys2Proof.Machine.execIcvtf32 dst rm sgn d a s
  | .icvtf64 dst rm sgn d a => Sys2Proof.Machine.execIcvtf64 dst rm sgn d a s
  | .icvtf8 dst rm sgn d a => Sys2Proof.Machine.execIcvtf8 dst rm sgn d a s
  | .fcmp cc pd a b => Sys2Proof.Machine.execFcmp cc pd a b s
  | .sbindGenerator q g => Sys2Proof.Machine.execSbindGenerator q g s
  | .sbindInputPort q n => Sys2Proof.Machine.execSbindInputPort q n s
  | .sbindOutputPort q o => Sys2Proof.Machine.execSbindOutputPort q o s
  | .sbindUnbind q => Sys2Proof.Machine.execSbindUnbind q s
  | .scfg g k a => Sys2Proof.Machine.execScfg g k a s
  | .sstart g m a => Sys2Proof.Machine.execSstart g m a s
  | .sstop g => Sys2Proof.Machine.execSstop g s
  | .swait g => Sys2Proof.Machine.execSwait g s
  | .scount d g => Sys2Proof.Machine.execScount d g s
  | .send o a arm nx => Sys2Proof.Machine.execSend o a arm nx s
  | .sendt o a b arm => Sys2Proof.Machine.execSendt o a b arm s
  | .sendbTile o t scale clear => Sys2Proof.Machine.execSendbTile o t scale clear s
  | .sendbMemory o a b => Sys2Proof.Machine.execSendbMemory o a b s
  | .mreq o a => Sys2Proof.Machine.execMreq o a s
  | .tagnext d => Sys2Proof.Machine.execTagnext d s
  | .tagret a fin => Sys2Proof.Machine.execTagret a fin s
  | .tagmk d a b => Sys2Proof.Machine.execTagmk d a b s
  | .tagctx d a => Sys2Proof.Machine.execTagctx d a s
  | .tagiter d a => Sys2Proof.Machine.execTagiter d a s
  | .ctxnew d a pool => Sys2Proof.Machine.execCtxnew d a pool s
  | .ctxfree a pool => Sys2Proof.Machine.execCtxfree a pool s
  | .stop o level => Sys2Proof.Machine.execStop o level s
  | .eos o => Sys2Proof.Machine.execEos o s
  | .mma mf sc clear acc ta tb a => Sys2Proof.Machine.execMma mf sc clear acc ta tb a s
  | .mzero acc => Sys2Proof.Machine.execMzero acc s
  | .mread d a acc => Sys2Proof.Machine.execMread d a acc s
  | .mstore acc a => Sys2Proof.Machine.execMstore acc a s
  | .mloada acc a => Sys2Proof.Machine.execMloada acc a s
  | .mfill t => Sys2Proof.Machine.execMfill t s
  | .mempty t => Sys2Proof.Machine.execMempty t s
  | .mwait => Sys2Proof.Machine.execMwait s
  | .mstat d => Sys2Proof.Machine.execMstat d s
  | .msr clear acc ta tb => Sys2Proof.Machine.execMsr clear acc ta tb s
  | .mldm a => Sys2Proof.Machine.execMldm a s
  | .cmp cc pd a b w => Sys2Proof.Machine.execCmp cc pd a b w s
  | .pand pd pa pb => Sys2Proof.Machine.execPand pd pa pb s
  | .por pd pa pb => Sys2Proof.Machine.execPor pd pa pb s
  | .pxor pd pa pb => Sys2Proof.Machine.execPxor pd pa pb s
  | .pnot pd pa => Sys2Proof.Machine.execPnot pd pa s
  | .pmov pd pa => Sys2Proof.Machine.execPmov pd pa s
  | .sel d pn p a b => Sys2Proof.Machine.execSel d pn p a b s
  | .qshape d k => Sys2Proof.Machine.execQshape d k s
  | .rdid d k => Sys2Proof.Machine.execRdid d k s
  | .fault a => Sys2Proof.Machine.execFault a s
  | .fenceE => Sys2Proof.Machine.execFenceE s
  | .perf d k => Sys2Proof.Machine.execPerf d k s
  | .cyc d => Sys2Proof.Machine.execCyc d s
  | .scmd d a => Sys2Proof.Machine.execScmd d a s
  | .scwait d a => Sys2Proof.Machine.execScwait d a s
  | .csrr d k => Sys2Proof.Machine.execCsrr d k s
  | .csrw a k => Sys2Proof.Machine.execCsrw a k s
  | .eret => Sys2Proof.Machine.execEret s
  | .waitev d m => Sys2Proof.Machine.execWaitev d m s
  | .mbxrd d a k => Sys2Proof.Machine.execMbxrd d a k s
  | .mbxwr d a k => Sys2Proof.Machine.execMbxwr d a k s
  | .xinv kind colour => Sys2Proof.Machine.execXinv kind colour s
  | .lix d imm => Sys2Proof.Machine.execLix d imm s
  | .stepLimit => Sys2Proof.Machine.execStepLimit s
  | .deferralLimit why => Sys2Proof.Machine.execDeferralLimit why s
  | .tokenArrival a => Sys2Proof.Machine.execTokenArrival a s
  | .matchToken die pos => Sys2Proof.Machine.execMatchToken die pos s
  | .runQueueJoin die pos => Sys2Proof.Machine.execRunQueueJoin die pos s
  | .endFiringReady die pos slot => Sys2Proof.Machine.execEndFiringReady die pos slot s
  | .dispatch die pos => Sys2Proof.Machine.execDispatch die pos s
  | .firingCommit die pos => Sys2Proof.Machine.execFiringCommit die pos s
  | .streamReadResume die pos => Sys2Proof.Machine.execStreamReadResume die pos s
  | .retireToken die pos port => Sys2Proof.Machine.execRetireToken die pos port s
  | .freeNotice n => Sys2Proof.Machine.execFreeNotice n s
  | .sluiceReply die pool => Sys2Proof.Machine.execSluiceReply die pool s
  | .turnoutPair die node => Sys2Proof.Machine.execTurnoutPair die node s
  | .unorderedConfluence die node input => Sys2Proof.Machine.execUnorderedConfluence die node input s
  | .orderedConfluence die node input => Sys2Proof.Machine.execOrderedConfluence die node input s
  | .generatorRead die pos g => Sys2Proof.Machine.execGeneratorRead die pos g s
  | .generatorWrite die pos g => Sys2Proof.Machine.execGeneratorWrite die pos g s
  | .drainToken die pos g => Sys2Proof.Machine.execDrainToken die pos g s
  | .matrixCommandExecute die pos => Sys2Proof.Machine.execMatrixCommandExecute die pos s
  | .memoryRequestIssue die slot => Sys2Proof.Machine.execMemoryRequestIssue die slot s
  | .addressTranslation die slot => Sys2Proof.Machine.execAddressTranslation die slot s
  | .startToken die slot => Sys2Proof.Machine.execStartToken die slot s
  | .writeDataToken die slot => Sys2Proof.Machine.execWriteDataToken die slot s
  | .afterToken die slot => Sys2Proof.Machine.execAfterToken die slot s
  | .memoryPerform die slot index granule => Sys2Proof.Machine.execMemoryPerform die slot index granule s
  | .memoryResponse die slot => Sys2Proof.Machine.execMemoryResponse die slot s
  | .storeAcknowledgement die slot index => Sys2Proof.Machine.execStoreAcknowledgement die slot index s
  | .completionSegment die slot => Sys2Proof.Machine.execCompletionSegment die slot s
  | .spillWrite dest colour failed => Sys2Proof.Machine.execSpillWrite dest colour failed s
  | .packetForward n hop => Sys2Proof.Machine.execPacketForward n hop s
  | .escapeSubchannel n => Sys2Proof.Machine.execEscapeSubchannel n s
  | .link die link => Sys2Proof.Machine.execLink die link s
  | .laneLoss die link => Sys2Proof.Machine.execLaneLoss die link s
  | .faultRecordDelivery die => Sys2Proof.Machine.execFaultRecordDelivery die s
  | .faultToken die => Sys2Proof.Machine.execFaultToken die s
  | .repairRequest colour => Sys2Proof.Machine.execRepairRequest colour s
  | .repairToken n => Sys2Proof.Machine.execRepairToken n s
  | .headgateDescriptor n => Sys2Proof.Machine.execHeadgateDescriptor n s
  | .headgateToken die gate => Sys2Proof.Machine.execHeadgateToken die gate s
  | .heldTokenRelease die gate => Sys2Proof.Machine.execHeldTokenRelease die gate s
  | .loaderWake colour plan => Sys2Proof.Machine.execLoaderWake colour plan s
  | .regionSchedule colour rect plan => Sys2Proof.Machine.execRegionSchedule colour rect plan s
  | .quantum die => Sys2Proof.Machine.execQuantum die s
  | .timer die => Sys2Proof.Machine.execTimer die s
  | .loadSelect colour => Sys2Proof.Machine.execLoadSelect colour s
  | .switchToken src colour => Sys2Proof.Machine.execSwitchToken src colour s
  | .elementSwitch die pos => Sys2Proof.Machine.execElementSwitch die pos s
  | .drainedNotice die colour => Sys2Proof.Machine.execDrainedNotice die colour s
  | .loadComplete colour => Sys2Proof.Machine.execLoadComplete colour s
  | .completionMessage colour => Sys2Proof.Machine.execCompletionMessage colour s
  | .mailboxDelivery die k src => Sys2Proof.Machine.execMailboxDelivery die k src s
  | .cfgWriteElementMemory die ticket => Sys2Proof.Machine.execCfgWriteElementMemory die ticket s
  | .cfgWriteStagedBlock die ticket => Sys2Proof.Machine.execCfgWriteStagedBlock die ticket s
  | .cfgWriteActiveBlock die ticket => Sys2Proof.Machine.execCfgWriteActiveBlock die ticket s
  | .cfgWriteStagingArea die ticket => Sys2Proof.Machine.execCfgWriteStagingArea die ticket s
  | .cfgWriteStagedNode die ticket => Sys2Proof.Machine.execCfgWriteStagedNode die ticket s
  | .cfgWriteActiveNode die ticket => Sys2Proof.Machine.execCfgWriteActiveNode die ticket s
  | .cfgBankImage die ticket => Sys2Proof.Machine.execCfgBankImage die ticket s
  | .cfgBankConstants die ticket => Sys2Proof.Machine.execCfgBankConstants die ticket s
  | .loadStageOpen die ticket => Sys2Proof.Machine.execLoadStageOpen die ticket s
  | .loadStageClose die ticket => Sys2Proof.Machine.execLoadStageClose die ticket s
  | .loadCommit die ticket => Sys2Proof.Machine.execLoadCommit die ticket s
  | .loadAbort die ticket => Sys2Proof.Machine.execLoadAbort die ticket s
  | .loadSwitch die ticket => Sys2Proof.Machine.execLoadSwitch die ticket s
  | .regionGrant die ticket => Sys2Proof.Machine.execRegionGrant die ticket s
  | .regionFree die ticket => Sys2Proof.Machine.execRegionFree die ticket s
  | .maSet die ticket => Sys2Proof.Machine.execMaSet die ticket s
  | .maStart die ticket => Sys2Proof.Machine.execMaStart die ticket s
  | .maResumeHalt die ticket => Sys2Proof.Machine.execMaResumeHalt die ticket s
  | .maResumeFault die ticket => Sys2Proof.Machine.execMaResumeFault die ticket s
  | .maHalt die ticket => Sys2Proof.Machine.execMaHalt die ticket s
  | .chanBind die ticket => Sys2Proof.Machine.execChanBind die ticket s
  | .chanDepth die ticket => Sys2Proof.Machine.execChanDepth die ticket s
  | .inject die ticket => Sys2Proof.Machine.execInject die ticket s
  | .repairResume die ticket => Sys2Proof.Machine.execRepairResume die ticket s
  | .repairSkip die ticket => Sys2Proof.Machine.execRepairSkip die ticket s
  | .repairSubst die ticket => Sys2Proof.Machine.execRepairSubst die ticket s
  | .repairAbort die ticket => Sys2Proof.Machine.execRepairAbort die ticket s
  | .weir die ticket => Sys2Proof.Machine.execWeir die ticket s
  | .colourRead die ticket => Sys2Proof.Machine.execColourRead die ticket s
  | .stateSave die ticket => Sys2Proof.Machine.execStateSave die ticket s
  | .stateLoad die ticket => Sys2Proof.Machine.execStateLoad die ticket s
  | .sluiceSet die ticket => Sys2Proof.Machine.execSluiceSet die ticket s
  | .sluiceClear die ticket => Sys2Proof.Machine.execSluiceClear die ticket s
  | .rebalMove die ticket => Sys2Proof.Machine.execRebalMove die ticket s
  | .plotClock die ticket => Sys2Proof.Machine.execPlotClock die ticket s
  | .genMarkHold die ticket => Sys2Proof.Machine.execGenMarkHold die ticket s
  | .genMarkRelease die ticket => Sys2Proof.Machine.execGenMarkRelease die ticket s
  | .genMarkQuery die ticket => Sys2Proof.Machine.execGenMarkQuery die ticket s
  | .xlateRoot die ticket => Sys2Proof.Machine.execXlateRoot die ticket s
  | .streamCommandComplete die ticket => Sys2Proof.Machine.execStreamCommandComplete die ticket s
  | .elementFreeze die pos => Sys2Proof.Machine.execElementFreeze die pos s
  | .memoryActorWeir die slot => Sys2Proof.Machine.execMemoryActorWeir die slot s
  | .cutComplete colour => Sys2Proof.Machine.execCutComplete colour s
  | .cutCompletionWins colour => Sys2Proof.Machine.execCutCompletionWins colour s
  | .launchResume colour rect plan => Sys2Proof.Machine.execLaunchResume colour rect plan s
  | .hello f => Sys2Proof.Machine.execHello f s
  | .bye f => Sys2Proof.Machine.execBye f s
  | .eoloWrite f => Sys2Proof.Machine.execEoloWrite f s
  | .eoloRead f => Sys2Proof.Machine.execEoloRead f s
  | .image f => Sys2Proof.Machine.execImage f s
  | .unload f => Sys2Proof.Machine.execUnload f s
  | .launch f => Sys2Proof.Machine.execLaunch f s
  | .stream f => Sys2Proof.Machine.execStream f s
  | .queryIdentity f => Sys2Proof.Machine.execQueryIdentity f s
  | .queryLiveMap f => Sys2Proof.Machine.execQueryLiveMap f s
  | .queryQuote f => Sys2Proof.Machine.execQueryQuote f s
  | .queryKey f => Sys2Proof.Machine.execQueryKey f s
  | .querySetPort f => Sys2Proof.Machine.execQuerySetPort f s
  | .regionOpen f => Sys2Proof.Machine.execRegionOpen f s
  | .regionAbort f => Sys2Proof.Machine.execRegionAbort f s
  | .journal f => Sys2Proof.Machine.execJournal f s
  | .eoloRepair f => Sys2Proof.Machine.execEoloRepair f s
  | .peerWindow f => Sys2Proof.Machine.execPeerWindow f s
  | .peerInboundGrant f => Sys2Proof.Machine.execPeerInboundGrant f s
  | .peerBind f => Sys2Proof.Machine.execPeerBind f s
  | .eoloAck f => Sys2Proof.Machine.execEoloAck f s
  | .eoloRetransmit session => Sys2Proof.Machine.execEoloRetransmit session s
  | .completion n => Sys2Proof.Machine.execCompletion n s
  | .eoloFault die => Sys2Proof.Machine.execEoloFault die s
  | .halt die => Sys2Proof.Machine.execHalt die s
  | .message die => Sys2Proof.Machine.execMessage die s
  | .moduleReset failures halves => Sys2Proof.Machine.execModuleReset failures halves s
  | .telemetryUpdate die => Sys2Proof.Machine.execTelemetryUpdate die s
  | .thermal die plot tenthsC => Sys2Proof.Machine.execThermal die plot tenthsC s
  | .xinvAcknowledged die acker => Sys2Proof.Machine.execXinvAcknowledged die acker s
  | .nonInstruction => Sys2Proof.Machine.execNonInstruction s
  | .laneRetrain die link degrades => Sys2Proof.Machine.execLaneRetrain die link degrades s

end Sys2Proof.Machine
end

