-- ==== Sys2Proof/Machine/Step.lean ====
section
/-! DEFINITION. One step of the module: the head of the agenda, or, when the agenda is empty, the core in focus (L1). -/

namespace Sys2Proof.Machine

/-- The firing of the element in focus runs its next instruction: the step limit ahead of every check (07 R192), then
the fetch (06 R154). An element without a running or stalled firing does nothing. -/
def stepElement (s : State) (k : Nat) : Out :=
  match (s.elem k).fir.status with
  | .idle | .waitDone => .next s
  | .running | .stalled =>
    if s.limitReached k then exec .stepLimit s
    else
      match (s.count k).fetch with
      | .ok i => exec i (s.count k)
      | .error _ => exec .nonInstruction (s.count k)

/-- The controller in focus runs its next instruction; one that is not released, or halted, does nothing (14 R357,
R360). -/
def stepController (s : State) (d : Nat) : Out :=
  if s.firmwareRuns d then
    match s.fetch with
    | .ok i => exec i s
    | .error _ => exec .nonInstruction s
  else .next s

/-- The core in focus takes a turn. -/
def stepCore (s : State) : Out :=
  match s.focus with
  | .element d p => stepElement s (elemKey d p)
  | .controller d => stepController s d

/-- One step. -/
def step (s : State) : Out :=
  match s.agenda with
  | [] => stepCore s
  | .core c :: rest => stepCore { s with agenda := rest, focus := c }
  | .event e :: rest => if e.isIsa then .next { s with agenda := rest } else exec e { s with agenda := rest }

/-- The state with an instruction where step fetches next: on the controller for its own major, otherwise in a firing on
element 0 of position 0 (L7). -/
def State.withFetchWord (s : State) (nbits w : Nat) : State :=
  if isControllerWord (w % 2 ^ nbits) then s.placeOnController (tableBytes nbits w)
  else s.placeOnElement (tableBytes nbits w)

end Sys2Proof.Machine
end

