-- ==== Sys2Proof/Safety.lean ====
section
/-! DEFINITION. What counts as a safe state: every byte memory is in canonical form, and every trap area is whole. -/

namespace Sys2Proof.Safety

open Sys2Proof.Machine

/-- A trap base that R361 accepts: bits [8:0] and [63:22] are zero, so the 512 bytes lie inside SRAM (14 R360). -/
def trapbaseOk (t : DWord) : Bool := t.toNat % 512 = 0 && t.toNat < 0x400000

/-- Every controller's trap base names a whole area inside its SRAM. -/
def TrapAreas (s : State) : Prop := ∀ c ∈ s.ctrls, trapbaseOk c.2.trapbase = true

end Sys2Proof.Safety
end

