-- ==== Sys2Proof/Certificates/Slice0/Obligations.lean ====
section
/-! DEFINITION. The statements for the provers. The first part is their vocabulary, in the namespace
`Sys2Proof.Statements`: results written from the spec's tables, when the operands of an instruction are ready, and what
a frame leaves alone. The second part is the obligations. A free value of Config stands in a statement as itself, so that
the statement holds whatever it is. -/

namespace Sys2Proof.Statements

open Host (Outcome)
open Sys2Proof.Machine

/-! ## Vocabulary -/

/-- The operands of an instruction are ready in `s` (08 R251 to R253): on a controller the form is in its profile (06
R187); on an element every stream operand can be popped and the pushed stream has room. `t` is the state after the pops,
`vals` are the popped elements in field order. -/
def Ready (s : State) (ctl : Bool) (pops : List (Fin 3)) (push : Option (Fin 3)) (t : State) (vals : List Word) : Prop :=
  match s.focus with
  | .controller _ => ctl = true ∧ t = s ∧ vals = []
  | .element d p =>
    (pops = [] ∧ push = none ∧ t = s ∧ vals = []) ∨
      (¬(pops = [] ∧ push = none) ∧ s.gate (elemKey d p) pops push = .go t vals)

/-- The element in focus. -/
def OnElem (s : State) (k : Nat) : Prop := ∃ d p, s.focus = .element d p ∧ k = elemKey d p

/-- An operation at 64 bits, or at 32 bits with a sign-extended result when w is set (07 R195). -/
def atWidth (w : Bool) (f : ∀ n : Nat, BitVec n → BitVec n → BitVec n) (a b : DWord) : DWord :=
  if w then (f 32 (a.truncate 32) (b.truncate 32)).signExtend 64 else f 64 a b

/-- A shift at 64 or 32 bits: the amount is the low 6 or 5 bits of b. -/
def shiftAt (w : Bool) (f : ∀ n : Nat, BitVec n → Nat → BitVec n) (a b : DWord) : DWord :=
  if w then (f 32 (a.truncate 32) (b.extractLsb' 0 5).toNat).signExtend 64 else f 64 a (b.extractLsb' 0 6).toNat

/-- The n-bit pattern of the signed value nearest to v. -/
def clampS (n : Nat) (v : Int) : BitVec n :=
  if v < -(2 ^ (n - 1) : Int) then BitVec.intMin n
  else if v > (2 ^ (n - 1) : Int) - 1 then BitVec.intMax n
  else BitVec.ofInt n v

/-- Signed division of Table 7-1: all ones for a zero divisor, the largest value where the quotient does not fit. -/
def quotient (n : Nat) (a b : BitVec n) : BitVec n :=
  if b = 0 then BitVec.allOnes n else if a = BitVec.intMin n ∧ b = BitVec.allOnes n then BitVec.intMax n else a.sdiv b

/-- Unsigned division of Table 7-1. -/
def quotientU (n : Nat) (a b : BitVec n) : BitVec n := if b = 0 then BitVec.allOnes n else a / b

/-- Position and length of the field of a descriptor (07 R197). -/
def fieldAt (b : DWord) : Nat × Nat :=
  ((b.extractLsb' 0 6).toNat, min ((b.extractLsb' 8 6).toNat + 1) (64 - (b.extractLsb' 0 6).toNat))

/-- The field, zero-extended and sign-extended. -/
def fieldZ (a b : DWord) : DWord := (a <<< (64 - (fieldAt b).1 - (fieldAt b).2)) >>> (64 - (fieldAt b).2)
def fieldS (a b : DWord) : DWord := (a <<< (64 - (fieldAt b).1 - (fieldAt b).2)).sshiftRight (64 - (fieldAt b).2)

/-- The first operand with its field replaced: bit j comes from va where pos ≤ j < pos + m. -/
def fieldPut (old a b : DWord) : DWord :=
  BitVec.ofFnLE fun j : Fin 64 =>
    if (fieldAt b).1 ≤ j.val && j.val < (fieldAt b).1 + (fieldAt b).2 then a.getLsbD (j.val - (fieldAt b).1)
    else old.getLsbD j.val

/-- Table 7-1, two sources: destination, sources, result. -/
def intTwo : Instr → Option (SQ × Src × Src × (DWord → DWord → DWord))
  | .add d a b w => some (d, a, b, atWidth w fun _ x y => x + y)
  | .sub d a b w => some (d, a, b, atWidth w fun _ x y => x - y)
  | .and d a b => some (d, a, b, fun x y => x &&& y)
  | .or d a b => some (d, a, b, fun x y => x ||| y)
  | .xor d a b => some (d, a, b, fun x y => x ^^^ y)
  | .andn d a b => some (d, a, b, fun x y => x &&& ~~~y)
  | .orn d a b => some (d, a, b, fun x y => x ||| ~~~y)
  | .sll d a b w => some (d, a, b, shiftAt w fun _ x k => x <<< k)
  | .srl d a b w => some (d, a, b, shiftAt w fun _ x k => x >>> k)
  | .sra d a b w => some (d, a, b, shiftAt w fun _ x k => x.sshiftRight k)
  | .rol d a b w => some (d, a, b, shiftAt w fun _ x k => x.rotateLeft k)
  | .mul d a b w => some (d, a, b, atWidth w fun _ x y => x * y)
  | .mulh d a b => some (d, a, b, fun x y => (x.signExtend 128 * y.signExtend 128).extractLsb' 64 64)
  | .mulhz d a b => some (d, a, b, fun x y => (x.zeroExtend 128 * y.zeroExtend 128).extractLsb' 64 64)
  | .div d a b w => some (d, a, b, atWidth w quotient)
  | .divz d a b w => some (d, a, b, atWidth w quotientU)
  | .rem d a b w => some (d, a, b, atWidth w fun _ x y => if y = 0 then x else x.srem y)
  | .remz d a b w => some (d, a, b, atWidth w fun _ x y => if y = 0 then x else x % y)
  | .min d a b => some (d, a, b, fun x y => BitVec.ofInt 64 (Min.min x.toInt y.toInt))
  | .max d a b => some (d, a, b, fun x y => BitVec.ofInt 64 (Max.max x.toInt y.toInt))
  | .minz d a b => some (d, a, b, fun x y => BitVec.ofNat 64 (Min.min x.toNat y.toNat))
  | .maxz d a b => some (d, a, b, fun x y => BitVec.ofNat 64 (Max.max x.toNat y.toNat))
  | .adds d a b w => some (d, a, b, atWidth w fun n x y => clampS n (x.toInt + y.toInt))
  | .subs d a b w => some (d, a, b, atWidth w fun n x y => clampS n (x.toInt - y.toInt))
  | .ext d a b => some (d, a, b, fieldS)
  | .extz d a b => some (d, a, b, fieldZ)
  | .rand d a b => some (d, a, b, fun x y => (furrow (y.truncate 32) (x.truncate 32)).zeroExtend 64)
  | _ => none

/-- Zero bits above the highest one bit of the low n bits, counted down from bit n - 1. -/
def leadingZeros (a : DWord) : Nat → Nat
  | 0 => 0
  | n + 1 => if a.getLsbD n then 0 else 1 + leadingZeros a n

/-- Zero bits below the lowest one bit among the n bits from bit `i` up. -/
def trailingZeros (a : DWord) (i : Nat) : Nat → Nat
  | 0 => 0
  | n + 1 => if a.getLsbD i then 0 else 1 + trailingZeros a (i + 1) n

/-- One bits among the low n. -/
def oneBits (a : DWord) (n : Nat) : Nat := ((List.range n).filter fun i => a.getLsbD i).length

/-- 64, or 32 with .w. -/
def bitsOf (w : Bool) : Nat := if w then 32 else 64

/-- Table 7-1, one source. -/
def intOne : Instr → Option (SQ × Src × (DWord → DWord))
  | .clz d a w => some (d, a, fun x => BitVec.ofNat 64 (leadingZeros x (bitsOf w)))
  | .ctz d a w => some (d, a, fun x => BitVec.ofNat 64 (trailingZeros x 0 (bitsOf w)))
  | .popc d a w => some (d, a, fun x => BitVec.ofNat 64 (oneBits x (bitsOf w)))
  | .brev d a => some (d, a, fun x => BitVec.ofFnLE fun j : Fin 64 => x.getLsbD (63 - j.val))
  | .bswap d a => some (d, a, fun x => BitVec.ofFnLE fun j : Fin 64 => x.getLsbD (8 * (7 - j.val / 8) + j.val % 8))
  | _ => none

/-- Table 7-2, R199 and R200: destination and its value, from the registers. -/
def immediate : Instr → Option (BitVec 5 × ((BitVec 5 → DWord) → DWord))
  | .addi d a v => some (d, fun r => r a + v.signExtend 64)
  | .andi d a v => some (d, fun r => r a &&& v.zeroExtend 64)
  | .ori d a v => some (d, fun r => r a ||| v.zeroExtend 64)
  | .xori d a v => some (d, fun r => r a ^^^ v.zeroExtend 64)
  | .slli d a w k => some (d, fun r => if w then ((r a).truncate 32 <<< k.toNat : Word).signExtend 64 else r a <<< k.toNat)
  | .srli d a w k => some (d, fun r => if w then ((r a).truncate 32 >>> k.toNat : Word).signExtend 64 else r a >>> k.toNat)
  | .srai d a w k =>
    some (d, fun r => if w then (((r a).truncate 32 : Word).sshiftRight k.toNat).signExtend 64 else (r a).sshiftRight k.toNat)
  | .lui d v => some (d, fun _ => BitVec.ofInt 64 (v.toInt * 65536))
  | _ => none

/-- Table 7-3 on n-bit values. -/
def condition (cc : IntCc) {n : Nat} (a b : BitVec n) : Bool :=
  match cc with
  | .eq => decide (a.toNat = b.toNat)
  | .ne => decide (a.toNat ≠ b.toNat)
  | .lt => decide (a.toInt < b.toInt)
  | .ge => decide (a.toInt ≥ b.toInt)
  | .lo => decide (a.toNat < b.toNat)
  | .hs => decide (a.toNat ≥ b.toNat)

/-- Table 7-4: the predicate written, and its value. -/
def predicateOp : Instr → Option (BitVec 3 × ((BitVec 3 → Bool) → Bool))
  | .pand pd pa pb => some (pd, fun p => p pa && p pb)
  | .por pd pa pb => some (pd, fun p => p pa || p pb)
  | .pxor pd pa pb => some (pd, fun p => p pa != p pb)
  | .pnot pd pa => some (pd, fun p => !p pa)
  | .pmov pd pa => some (pd, fun p => p pa)
  | _ => none

/-- Table 8-2: a lane's result. -/
def floatTwo : Instr → Option (Fmt × SQ × SQ × SQ × (FFormat → Nat → Nat → Nat))
  | .fadd f d a b => some (f, d, a, b, fun fm x y => roundN fm ((valOf fm x).add (valOf fm y)))
  | .fsub f d a b => some (f, d, a, b, fun fm x y => roundN fm ((valOf fm x).sub (valOf fm y)))
  | .fmul f d a b => some (f, d, a, b, fun fm x y => roundN fm ((valOf fm x).mul (valOf fm y)))
  | .fdiv f d a b => some (f, d, a, b, fun fm x y => roundDiv fm (valOf fm x) (valOf fm y))
  | .fmin f d a b => some (f, d, a, b, fun fm => fminmax fm false)
  | .fmax f d a b => some (f, d, a, b, fun fm => fminmax fm true)
  | .fcps f d a b => some (f, d, a, b, fun fm x y => x % 2 ^ (fm.width - 1) + y / 2 ^ (fm.width - 1) % 2 * 2 ^ (fm.width - 1))
  | _ => none

/-- The encoding of an infinity; E4M3 has none and takes its NaN (03 R77). -/
def infinityOf (fm : FFormat) (neg : Bool) : Nat :=
  if fm = .e4m3 then fm.nan else (if neg then 2 ^ (fm.width - 1) else 0) + fm.maxEnc + 1

/-- Round(√v, F, rn) for a positive v (03 R76, R84): x is the exponent of the root, k the root's whole part in units of
2^(x − F), and it goes up above the midpoint, or at it from an odd k. -/
def roundRoot (fm : FFormat) (v : ℚ) : Nat :=
  let x := max (Int.log 2 v / 2) (1 - (fm.bias : Int))
  let w := v * (4 : ℚ) ^ ((fm.frac : Int) - x)
  let k := Nat.sqrt ⌊w⌋₊
  let mid := ((k : ℚ) + 1 / 2) ^ 2
  (x - (1 - (fm.bias : Int))).toNat * 2 ^ fm.frac + if mid < w ∨ (mid = w ∧ k % 2 = 1) then k + 1 else k

/-- FSQRT of a lane (08 R227, Table 8-3). -/
def rootLane (fm : FFormat) (x : Nat) : Nat :=
  match valOf fm x with
  | .nan | .inf true => fm.nan
  | .inf false => infinityOf fm false
  | .fin neg m e => if m = 0 then x else if neg then fm.nan else roundRoot fm (m * (2 : ℚ) ^ e)

/-- FRSQ of a lane (08 R227, Table 8-3). -/
def inverseRootLane (fm : FFormat) (x : Nat) : Nat :=
  match valOf fm x with
  | .nan | .inf true => fm.nan
  | .inf false => 0
  | .fin neg m e => if m = 0 then infinityOf fm neg else if neg then fm.nan else roundRoot fm (1 / (m * (2 : ℚ) ^ e))

/-- The one-source operations of R227 on a lane. -/
def floatOne : Instr → Option (Fmt × SQ × SQ × (FFormat → Nat → Nat))
  | .fabs f d a => some (f, d, a, fun fm x => x % 2 ^ (fm.width - 1))
  | .fneg f d a => some (f, d, a, fun fm x => x % 2 ^ (fm.width - 1) + (1 - x / 2 ^ (fm.width - 1) % 2) * 2 ^ (fm.width - 1))
  | .fsqrt f d a => some (f, d, a, rootLane)
  | .frcp f d a => some (f, d, a, fun fm x => roundDiv fm (.fin false 1 0) (valOf fm x))
  | .frsq f d a => some (f, d, a, inverseRootLane)
  | .fexp2 f d a => some (f, d, a, fun fm x => fexp2Lane fm (valOf fm x))
  | .flog2 f d a => some (f, d, a, fun fm x => flog2Lane fm (valOf fm x))
  | _ => none

/-- A word made lane by lane, lane 0 lowest (08 R226). -/
def byLanes (fmt : Fmt) (lane : Nat → Nat) : Word :=
  BitVec.ofNat 32 (joinLanes (laneFormat fmt).width ((List.range (lanes fmt)).map lane))

/-- Lane i of a word. -/
def laneAt (fmt : Fmt) (w : Word) (i : Nat) : Nat := laneOf (laneFormat fmt).width i w.toNat

/-- R228: the lane result of FMA, FMS and FNMA from the products and the old destination. -/
def fused : Instr → Option (Fmt × BitVec 5 × SQ × SQ × (FVal → FVal → FVal))
  | .fma f d a b => some (f, d, a, b, fun p c => p.add c)
  | .fms f d a b => some (f, d, a, b, fun p c => p.add c.negate)
  | .fnma f d a b => some (f, d, a, b, fun p c => p.negate.add c)
  | _ => none

/-- R229 to R231: whole-word results. -/
def floatWord : Instr → Option (SQ × SQ × (Word → Word))
  | .fsum2 f d a => some (d, a, fun x =>
      let v := fun i => valOf (laneFormat f) (laneAt f x i)
      BitVec.ofNat 32 (roundN .fp32 (((List.range (lanes f)).tail.map v).foldl FVal.add (v 0))))
  | .funpack f d a => some (d, a, fun x =>
      if lanes f = 2 then BitVec.ofNat 32 (roundN .fp32 (valOf (laneFormat f) (x.toNat / 2 ^ 16)))
      else byLanes .bf16x2 fun j => roundN .bf16 (valOf (laneFormat f) (laneOf 8 (j + 2) x.toNat)))
  | _ => none

/-- R230: FPACK of two words. -/
def packed (f : Fmt) (a b : Word) : Word :=
  if lanes f = 2 then
    byLanes .bf16x2 fun j => roundN (laneFormat f) (valOf .fp32 (if j = 0 then a.toNat else b.toNat))
  else
    byLanes .e4m3x4 fun j => roundN (laneFormat f) (valOf .bf16 (laneOf 16 (j % 2) (if j < 2 then a.toNat else b.toNat)))

/-- R232 and Table 8-4: the class byte of a lane from its fields; under erratum 1 the NaNs of E4M3 show fmsb 0 (18 R467). -/
def classOf (old : Bool) (fm : FFormat) (x : Nat) : Nat :=
  let f := x % 2 ^ fm.frac
  let e := x / 2 ^ fm.frac % 2 ^ (fm.width - 1 - fm.frac)
  let kind := match valOf fm x with
    | .nan => 4
    | .inf _ => 3
    | .fin _ _ _ => if e ≠ 0 then 2 else if f ≠ 0 then 1 else 0
  let fmsb := if old ∧ fm = .e4m3 ∧ kind = 4 then 0 else f / 2 ^ (fm.frac - 1)
  kind + 8 * (x / 2 ^ (fm.width - 1) % 2) + 16 * fmsb

/-- R232: FCLASS of a word. -/
def classesOf (old : Bool) (f : Fmt) (x : Word) : DWord :=
  BitVec.ofNat 64 (joinLanes 8 ((List.range (lanes f)).map fun j => classOf old (laneFormat f) (laneAt f x j)))

/-- A value converted to an integer of n bits and extended to 64 (08 R236). -/
def integerOf (src : Fmt) (n : Nat) (rm : Rm) (sgn : Bool) (r x : Word) : DWord :=
  let t := BitVec.ofNat n (cvtI (valOf (laneFormat src) (laneAt src x 0)) n sgn rm r)
  if sgn then t.signExtend 64 else t.zeroExtend 64

/-- An integer rounded to lane 0, the other lanes zero (08 R237). -/
def rounded (dst : Fmt) (rm : Rm) (r : Word) (v : Int) : Word :=
  byLanes dst fun j => if j = 0 then round (laneFormat dst) rm false r (intVal v) else 0

/-- R234 to R237: mode, draws, destination, source, and the word written, from the draws and the source word. -/
def conversion : Instr → Option (Rm × Nat × SQ × SQ × ((Nat → Word) → Word → DWord))
  | .fcvt src dst rm sat d a =>
    some (rm, min (lanes src) (lanes dst), d, a, fun r x => (byLanes dst fun j =>
      if j < lanes src then round (laneFormat dst) rm sat (r j) (valOf (laneFormat src) (laneAt src x j)) else 0).zeroExtend 64)
  | .fcvtFromE2m1 dst rm d a =>
    some (rm, lanes dst, d, a, fun r x => (byLanes dst fun j =>
      round (laneFormat dst) rm false (r j) (valOf .e2m1 (laneOf 4 j x.toNat))).zeroExtend 64)
  | .fcvtToE2m1 src rm sat d a =>
    some (rm, lanes src, d, a, fun r x => BitVec.ofNat 64 (joinLanes 4 ((List.range (lanes src)).map fun j =>
      round .e2m1 rm sat (r j) (valOf (laneFormat src) (laneAt src x j)))))
  | .fcvti32 src rm sgn d a => some (rm, 1, d, a, fun r x => integerOf src 32 rm sgn (r 0) x)
  | .fcvti64 src rm sgn d a => some (rm, 1, .s d, a, fun r x => integerOf src 64 rm sgn (r 0) x)
  | .fcvti8 src rm sgn d a =>
    some (rm, lanes src, d, a, fun r x => BitVec.ofNat 64 (joinLanes 8 ((List.range (lanes src)).map fun j =>
      cvtI (valOf (laneFormat src) (laneAt src x j)) 8 sgn rm (r j))))
  | .icvtf32 dst rm sgn d a =>
    some (rm, 1, d, a, fun r x => (rounded dst rm (r 0) (if sgn then x.toInt else x.toNat)).zeroExtend 64)
  | .icvtf8 dst rm sgn d a =>
    some (rm, lanes dst, d, a, fun r x => (byLanes dst fun j =>
      let b := BitVec.ofNat 8 (laneOf 8 j x.toNat)
      round (laneFormat dst) rm false (r j) (intVal (if sgn then b.toInt else b.toNat))).zeroExtend 64)
  | _ => none

/-- The condition of a float compare from two exact values (03 R86, 08 R238). -/
def floatCondition (cc : FloatCc) (x y : FVal) : Bool :=
  let u := x.isNan || y.isNan
  match cc with
  | .eq => !u && !x.lt y && !y.lt x
  | .ne => u || x.lt y || y.lt x
  | .lt => x.lt y
  | .le => !u && !y.lt x
  | .gt => y.lt x
  | .ge => !u && !x.lt y
  | .un => u

/-! ### Frames -/

/-- Nothing but the core and the firing record of the core in focus differs. -/
def OnlyCore (s u : State) : Prop :=
  u.focus = s.focus ∧ { u with elems := s.elems, ctrls := s.ctrls } = s ∧
    (∀ k, { u.elem k with core := (s.elem k).core, fir := (s.elem k).fir } = s.elem k) ∧
    (∀ k, ¬OnElem s k → u.elem k = s.elem k) ∧
    (∀ d, { u.ctrl d with core := (s.ctrl d).core } = s.ctrl d) ∧
    (∀ d, s.focus ≠ .controller d → u.ctrl d = s.ctrl d)

/-- Every byte of memory reads as before: element memories, controller SRAM, HBM. -/
def SameMemory (s u : State) : Prop :=
  (∀ k a, Memory.get (u.elem k).mem a = Memory.get (s.elem k).mem a) ∧
    (∀ d a, Memory.get (u.ctrl d).sram a = Memory.get (s.ctrl d).sram a) ∧
    (∀ a, Memory.get u.phys a = Memory.get s.phys a)

/-- Every special register but the pc, the loop levels and the repeat buffer is as before: the alternate bank, stream
bindings, accumulators, tile slots, microprogram, queue, windows, and every register of every controller. -/
def SameSpecial (s u : State) : Prop :=
  (∀ k, (u.elem k).x = (s.elem k).x ∧ (u.elem k).xt = (s.elem k).xt ∧ (u.elem k).xc = (s.elem k).xc ∧
    (u.elem k).q = (s.elem k).q ∧ (u.elem k).acc = (s.elem k).acc ∧ (u.elem k).tiles = (s.elem k).tiles ∧
    (u.elem k).mprog = (s.elem k).mprog ∧ (u.elem k).mq = (s.elem k).mq ∧ (u.elem k).wins = (s.elem k).wins) ∧
    (∀ d, { u.ctrl d with core := (s.ctrl d).core } = s.ctrl d)

/-- The scalar registers of the core in focus but those in `ws`, and the predicates but those in `wp`, are as before. -/
def SameRegs (s u : State) (ws : List (BitVec 5)) (wp : List (BitVec 3)) : Prop :=
  u.focus = s.focus ∧ (∀ r, r ∉ ws → u.reg r = s.reg r) ∧ ∀ n, n ∉ wp → u.core.pred n = s.core.pred n

/-- The scalar register of a destination. -/
def sqRegs : SQ → List (BitVec 5)
  | .s r => [r]
  | .q _ => []

/-- An instruction that writes at most registers, predicates and a stream: profile, pops, push, scalar destinations,
predicate destinations. -/
structure Shape where
  ctl : Bool
  pops : List (Fin 3)
  push : Option (Fin 3)
  regs : List (BitVec 5)
  preds : List (BitVec 3)

/-- The shapes of majors 0x00 to 0x07, 0x10 to 0x13, 0x1A, 0x1B and 0x3B (06 R156, R157). -/
def shapeOf (i : Instr) : Option Shape :=
  match intTwo i, intOne i, immediate i, predicateOp i, floatTwo i, floatOne i, fused i, floatWord i, conversion i with
  | some (d, a, b, _), _, _, _, _, _, _, _, _ =>
    some ⟨d.controllerOk && a.controllerOk && b.controllerOk, srcPops a ++ srcPops b, sqPush d, sqRegs d, []⟩
  | _, some (d, a, _), _, _, _, _, _, _, _ => some ⟨d.controllerOk && a.controllerOk, srcPops a, sqPush d, sqRegs d, []⟩
  | _, _, some (d, _), _, _, _, _, _, _ => some ⟨true, [], none, [d], []⟩
  | _, _, _, some (pd, _), _, _, _, _, _ => some ⟨true, [], none, [], [pd]⟩
  | _, _, _, _, some (_, d, a, b, _), _, _, _, _ => some ⟨false, sqPops a ++ sqPops b, sqPush d, sqRegs d, []⟩
  | _, _, _, _, _, some (_, d, a, _), _, _, _ => some ⟨false, sqPops a, sqPush d, sqRegs d, []⟩
  | _, _, _, _, _, _, some (_, d, a, b, _), _, _ => some ⟨false, sqPops a ++ sqPops b, none, [d], []⟩
  | _, _, _, _, _, _, _, some (d, a, _), _ => some ⟨false, sqPops a, sqPush d, sqRegs d, []⟩
  | _, _, _, _, _, _, _, _, some (_, _, d, a, _) => some ⟨false, sqPops a, sqPush d, sqRegs d, []⟩
  | _, _, _, _, _, _, _, _, _ =>
    match i with
    | .ins d a b => some ⟨a.controllerOk && b.controllerOk, srcPops a ++ srcPops b, none, [d], []⟩
    | .lix d _ => some ⟨true, [], none, [d], []⟩
    | .cmp _ pd a b _ => some ⟨a.controllerOk && b.controllerOk, srcPops a ++ srcPops b, none, [], [pd]⟩
    | .cmpi _ pd _ _ => some ⟨true, [], none, [], [pd]⟩
    | .sel d _ _ a b => some ⟨a.controllerOk && b.controllerOk, srcPops a ++ srcPops b, none, [d], []⟩
    | .fclass _ d a => some ⟨false, sqPops a, none, [d], []⟩
    | .fpack _ d a b => some ⟨false, sqPops a ++ sqPops b, sqPush d, sqRegs d, []⟩
    | .icvtf64 _ _ _ d _ => some ⟨false, [], sqPush d, sqRegs d, []⟩
    | .fcmp _ pd a b => some ⟨false, sqPops a ++ sqPops b, none, [], [pd]⟩
    | _ => none

end Sys2Proof.Statements

namespace Sys2Proof.Statements

open Sys2Proof.Machine

/-! ### Memory as the core in focus reads it -/

/-- End of the address space of the core in focus (07 R215, 14 R358). -/
def spaceEnd (s : State) : Nat :=
  match s.focus with
  | .element _ _ => 0xC000
  | .controller _ => 0x400000

/-- The byte at an address as an instruction of the core in focus reads it (07 R220). -/
def byteAt (s : State) (a : Nat) : Byte :=
  match s.focus with
  | .element d p => s.emByte (elemKey d p) (s.elem (elemKey d p)).fir.slot a
  | .controller d => Memory.get (s.ctrl d).sram a

/-- The byte of the memory itself: element memory or SRAM. -/
def rawByte (s : State) (a : Nat) : Byte :=
  match s.focus with
  | .element d p => Memory.get (s.elem (elemKey d p)).mem a
  | .controller d => Memory.get (s.ctrl d).sram a

/-- The memory of the core in focus has its canonical form. -/
def ownMemoryWf (s : State) : Prop :=
  match s.focus with
  | .element d p => Memory.wf (s.elem (elemKey d p)).mem = true
  | .controller d => Memory.wf (s.ctrl d).sram = true

/-- The n bytes from an address up, lowest first, as a number (07 R216). -/
def bytesAt (s : State) (a n : Nat) : Nat := ((List.range n).map fun i => (byteAt s (a + i)).toNat * 256 ^ i).sum

/-- Size and signedness of a load width (06 Table 6-4, 07 Table 7-5). -/
def widthInfo : LoadWidth → Nat × Bool
  | .s8 => (1, true)
  | .z8 => (1, false)
  | .s16 => (2, true)
  | .z16 => (2, false)
  | .s32 => (4, true)
  | .z32 => (4, false)
  | .d64 => (8, false)

/-- The value that a load writes. -/
def extended (wd : LoadWidth) (v : Nat) : DWord :=
  BitVec.ofInt 64 (if (widthInfo wd).2 ∧ 2 ^ (8 * (widthInfo wd).1 - 1) ≤ v then (v : Int) - 2 ^ (8 * (widthInfo wd).1) else v)

/-- Bytes that a store width stores. -/
def storeBytesOf : StoreWidth → Nat
  | .b8 => 1
  | .b16 => 2
  | .b32 => 4
  | .b64 => 8

/-- LD and LDX: width, destination, effective address (07 R216, R217). -/
def loadOf (s : State) : Instr → Option (LoadWidth × BitVec 5 × DWord)
  | .ld wd d a off => some (wd, d, s.reg a + off.signExtend 64)
  | .ldx wd d a b => some (wd, d, s.reg a + s.reg b * BitVec.ofNat 64 (widthInfo wd).1)
  | _ => none

/-- ST and STX: width, stored register, effective address. -/
def storeOf (s : State) : Instr → Option (StoreWidth × BitVec 5 × DWord)
  | .st wd d a off => some (wd, d, s.reg a + off.signExtend 64)
  | .stx wd d a b => some (wd, d, s.reg a + s.reg b * BitVec.ofNat 64 (storeBytesOf wd))
  | _ => none

/-- Whether a byte may not be stored to: the constant window and the retire bitmaps of an element (07 R215). -/
def protectedByte (s : State) (a : Nat) : Bool :=
  match s.focus with
  | .element d p => decide (a < 0x400) || inBitmap (s.elem (elemKey d p)) a
  | .controller _ => false

/-- Every byte of every memory but those of the core in focus at `a` to `a + n - 1` is as before. -/
def SameMemoryBut (s u : State) (a n : Nat) : Prop :=
  (∀ k x, (OnElem s k → x < a ∨ a + n ≤ x) → Memory.get (u.elem k).mem x = Memory.get (s.elem k).mem x) ∧
    (∀ d x, (s.focus = .controller d → x < a ∨ a + n ≤ x) → Memory.get (u.ctrl d).sram x = Memory.get (s.ctrl d).sram x) ∧
    u.phys = s.phys

/-- Every register of a controller but its core and its memory is as before, and so is the special state of elements. -/
def SameSpecialButSram (s u : State) : Prop :=
  (∀ k, (u.elem k).x = (s.elem k).x ∧ (u.elem k).xt = (s.elem k).xt ∧ (u.elem k).xc = (s.elem k).xc ∧
    (u.elem k).q = (s.elem k).q ∧ (u.elem k).acc = (s.elem k).acc ∧ (u.elem k).tiles = (s.elem k).tiles ∧
    (u.elem k).mprog = (s.elem k).mprog ∧ (u.elem k).mq = (s.elem k).mq ∧ (u.elem k).wins = (s.elem k).wins) ∧
    (∀ d, { u.ctrl d with core := (s.ctrl d).core, sram := (s.ctrl d).sram } = s.ctrl d)

/-! ### Exceptions -/

/-- The pc that a trap records: the RPT while it runs (14 R360). -/
def trapPc (c : CoreRegs) : DWord :=
  match c.rpt with
  | some r => r.pc
  | none => c.pc

/-- The controller of die d has taken a trap with a code and a faulting address (14 R360): the four words of the record
at TRAPBASE, tl, the counter, the loop levels kept aside, and the pc at TRAPBASE + 64 × code; nothing else. -/
def Trapped (s u : State) (d code : Nat) (addr : DWord) : Prop :=
  let c := s.ctrl d
  let m := (u.ctrl d).sram
  let t := c.trapbase.toNat
  Memory.read m t 8 = (trapPc c.core).toNat ∧
    Memory.read m (t + 8) 8 = code + (if c.core.rpt.isSome then 256 else 0) ∧
    Memory.read m (t + 16) 8 = addr.toNat ∧ Memory.read m (t + 24) 8 = (c.trapcnt + 1).toNat ∧
    (∀ a, a < t ∨ t + 32 ≤ a → Memory.get m a = Memory.get c.sram a) ∧
    u = s.setCtrl d { c with
      sram := m, tl := true, trapcnt := c.trapcnt + 1, shadow := c.core.loops
      core := { c.core with pc := c.trapbase + BitVec.ofNat 64 (64 * code), loops := [], rpt := none } }

/-- The windows of an element with the iterations that its firing has issued taken back (02 R51, R54): the entry of its
context closed if the firing opened it, else its N lowered by them. -/
def windowsBack (e : Element) : Tab Win :=
  match findWin e e.fir.slot (e.fir.tag.extractLsb' 18 14) with
  | none => e.wins
  | some j =>
    match tabGet e.wins (winKey e.fir.slot j) with
    | none => e.wins
    | some w =>
      if e.fir.opened then tabDel e.wins (winKey e.fir.slot j)
      else tabSet e.wins (winKey e.fir.slot j) { w with n := w.n - BitVec.ofNat 18 e.fir.advances }

/-- The firing of element k has been aborted with a fault code (02 R51): the sends are discarded, the holds and recorded
frees dropped, its window advances undone, its entry is FAULTED with its operands intact, the element is idle, and one fault
record with that code has been written. No memory, register or accumulator changes. -/
def Aborted (s u : State) (k code : Nat) : Prop :=
  let e := s.elem k
  let e' := u.elem k
  e'.fir.status = .idle ∧ e'.fir.sends = [] ∧ e'.fir.holds = [] ∧ e'.fir.frees = [] ∧
    (∀ en, e.fir.place < 64 → tabGet e.store e.fir.place = some en →
      tabGet e'.store e.fir.place = some { en with st := .faulted }) ∧
    (e.fir.place ≥ 64 → e.fir.place < 72 → nth e'.ends.toList (e.fir.place - 64) .ended = .faulted) ∧
    e'.wins = windowsBack e ∧
    e'.mem = e.mem ∧ e'.acc = e.acc ∧ e'.core.s = e.core.s ∧ e'.core.p = e.core.p ∧ u.phys = s.phys ∧
    ∃ r, u.levee = s.levee ++ [r] ∧ r.die = k / 6400 ∧ r.record.w0.toNat % 256 = code ∧
      r.record.w0.toNat / 65536 % 4 = 1

/-! ### Token instructions -/

/-- Every check of 09 R260 and R258 passes for n tokens on port o: bound, not a return channel but for TAGRET, no EOS,
not tagged for STOP and SENDB, leading to a req input for MREQ, and room in the buffer. -/
def MaySend (s : State) (k o n : Nat) (tagret stopOrBulk mreq : Bool) : Prop :=
  ∃ b, s.outChannel k o = some b ∧ (b.kind = .ret → tagret = true) ∧ b.closed = false ∧
    (∀ x ∈ (s.elem k).fir.sends, x.port = o → x.tok.kind ≠ .eos) ∧ (b.kind = .tagged → stopOrBulk = false) ∧
    (mreq = true → ∃ d ∈ b.dests, d.kind = .memActor ∧ d.din = 0) ∧ (s.elem k).fir.sends.length + n ≤ 256

/-- The send buffer with tokens appended, and nothing else. -/
def withSends (s : State) (k : Nat) (l : List Send) : State :=
  s.setElem k { s.elem k with fir := { (s.elem k).fir with sends := (s.elem k).fir.sends ++ l } }

/-- A token of a firing: kind, payload, tag, level, arm and fin as given; the colour is its element's. -/
def firingToken (s : State) (k : Nat) (kind : TokKind) (payload : DWord) (tag : Word) (level : Nat) (arm fin : Bool) : Token :=
  { payload := payload, tag := tag, kind := kind, level := level, arm := arm, colour := (s.elem k).colour, fin := fin }

/-- The tokens of a bulk message: n data tokens of 8 bytes each and a level-1 stop (09 R264). -/
def bulkTokens (s : State) (k o base n : Nat) : List Send :=
  ((List.range n).map fun f =>
    { port := o, tok := firingToken s k .data (BitVec.ofNat 64 (bytesAt s (base + 8 * f) 8)) ((s.elem k).xt.truncate 32) 0 false false }) ++
    [{ port := o, tok := firingToken s k .stop 0 ((s.elem k).xt.truncate 32) 1 false false }]

/-! ### Stream and matrix instructions -/

/-- A firing that has begun an effect is no longer clean (02 R52). -/
def unclean (e : Element) : Element := { e with fir := { e.fir with clean := false } }

/-- An address of n bytes that a queued matrix command may name (09 R279): aligned to 16, inside element memory, and for
a write outside the constant window and the retire bitmaps. -/
def MatrixAddr (e : Element) (a n : Nat) (write : Bool) : Prop :=
  a % 16 = 0 ∧ a + n ≤ 0xC000 ∧ (write = true → 0x400 ≤ a ∧ ∀ i, i < n → inBitmap e (a + i) = false)

/-- The queued command of a matrix instruction, with the bytes its address needs and whether it writes them. -/
def matrixOf (s : State) : Instr → Option (MCmd × Option (DWord × Nat × Bool))
  | .mma .e2m1 sc c acc ta tb a => some (.mma .e2m1 sc c acc ta tb (s.reg a).toNat, some (s.reg a, 32, false))
  | .mma mf sc c acc ta tb _ => some (.mma mf sc c acc ta tb 0, none)
  | .msr c acc ta tb => some (.msr c acc ta tb, none)
  | .mldm a => some (.mldm (s.reg a).toNat, some (s.reg a, 16, false))
  | .mzero acc => some (.mzero acc, none)
  | .mstore acc a => some (.mstore acc (s.reg a).toNat, some (s.reg a, 256, true))
  | .mloada acc a => some (.mloada acc (s.reg a).toNat, some (s.reg a, 256, false))
  | .mfill t => some (.mfill t, none)
  | .mempty t => some (.mempty t, none)
  | _ => none

/-! ### Controller -/

/-- A controller address of n bytes aligned to n (14 R358). -/
def SramAddr (a : DWord) (n : Nat) : Prop := a.toNat % n = 0 ∧ a.toNat + n ≤ 0x400000

/-- The latched events after a write of v to evpend: a 1 clears the bits of Table 14-3 that are latched. -/
def clearedEvents (latched : BitVec 12) (v : DWord) : BitVec 12 :=
  BitVec.ofFnLE fun n : Fin 12 => latched.getLsbD n.val && !(v.getLsbD n.val && [3, 5, 6, 7, 8, 9, 11].contains n.val)

/-- Bit n of evpend (14 Table 14-3): latched, or the present state of a level source. -/
def eventBit (s : State) (d n : Nat) : Bool :=
  let c := s.ctrl d
  c.latched.getLsbD n ||
    match n with
    | 0 => decide (c.mbox[0] ≠ [])
    | 1 => decide (c.mbox[1] ≠ [])
    | 2 => c.tickets.any fun t => match t.phase with | .done _ => true | _ => false
    | 4 => (List.range 16).any fun g => decide ((s.head (d * 16 + g)).st = .holding)
    | 10 => decide (c.mbox[2].length < 64) && decide (c.mbox[3].length < 64)
    | _ => false

end Sys2Proof.Statements

open Sys2Proof Sys2Proof.Machine Sys2Proof.Statements

/-! ## Registers, predicates, floats -/

/-- Table 7-1 (07 R195 to R197), two sources: with its operands ready, every instruction of the table writes the table's
result to its destination and goes on. -/
def Obligations.TwoSourceIntegerResult : Prop :=
  ∀ i d a b f, intTwo i = some (d, a, b, f) → ∀ s t vals,
    Ready s (d.controllerOk && a.controllerOk && b.controllerOk) (srcPops a ++ srcPops b) (sqPush d) t vals →
      exec i s = .next (t.idst d (f (t.src a vals) (t.src b (srcRest a vals)))).advance

/-- Table 7-1 (07 R195), one source. Immediates (07 R198 to R201) on every core: ADDI to LUI write their result and go on,
LIX writes its 44-bit value and goes on at PC + 8, and INS replaces a field of its destination with its operands ready. -/
def Obligations.OneSourceAndImmediateResult : Prop :=
  (∀ i d a f, intOne i = some (d, a, f) → ∀ s t vals,
    Ready s (d.controllerOk && a.controllerOk) (srcPops a) (sqPush d) t vals →
      exec i s = .next (t.idst d (f (t.src a vals))).advance) ∧
  ((∀ i d f, immediate i = some (d, f) → ∀ s, exec i s = .next (s.setReg d (f s.reg)).advance) ∧
    (∀ d v s, exec (.lix d v) s = .next ((s.setReg d (BitVec.ofInt 64 v.toInt)).advance 8)) ∧
    (∀ d a b s t vals, Ready s (a.controllerOk && b.controllerOk) (srcPops a ++ srcPops b) none t vals →
      exec (.ins d a b) s =
        .next (t.setReg d (fieldPut (t.reg d) (t.src a vals) (t.src b (srcRest a vals)))).advance))

/-- Compares, predicate operations and SEL (07 R202 to R205): the condition of Table 7-3 at 64 bits or, with .w, at 32;
Table 7-4; both sources of SEL are read and one is written. -/
def Obligations.CompareAndSelectResult : Prop :=
  (∀ cc pd a b w s t vals, Ready s (a.controllerOk && b.controllerOk) (srcPops a ++ srcPops b) none t vals →
    exec (.cmp cc pd a b w) s = .next (t.setPred pd
      (if w then condition cc ((t.src a vals).truncate 32) ((t.src b (srcRest a vals)).truncate 32)
        else condition cc (t.src a vals) (t.src b (srcRest a vals)))).advance) ∧
    (∀ cc pd a v s, exec (.cmpi cc pd a v) s = .next (s.setPred pd (condition cc (s.reg a) (v.signExtend 64))).advance) ∧
    (∀ i pd f, predicateOp i = some (pd, f) → ∀ s, exec i s = .next (s.setPred pd (f s.core.pred)).advance) ∧
    (∀ d pn p a b s t vals, Ready s (a.controllerOk && b.controllerOk) (srcPops a ++ srcPops b) none t vals →
      exec (.sel d pn p a b) s = .next (t.setReg d
        (if t.core.pred p ≠ pn then t.src a vals else t.src b (srcRest a vals))).advance)

/-- Majors 0x10 and 0x11 (08 R226 to R232) on an element with its operands ready: each lane of the result is the lane
operation on the lanes of the sources, FMA, FMS and FNMA read the old destination as the addend and round once, FCLASS
writes the class bytes, FSUM2, FPACK and FUNPACK their words. Conversions and FCMP (08 R233 to R238) on an element with
its operands ready: the destination takes the converted lanes; in mode rs, and only there, the firing's count of draws
goes on by the number of lanes. FEXP2 and FLOG2 give what Table 8-3 says of special inputs, 2^k for an integer k and k for
2^k (R227); elsewhere they round a series of 256 fraction bits, which the model takes for the exact value (log 9). -/
def Obligations.FloatAndConversionResult : Prop :=
  ((∀ i fmt d a b op, floatTwo i = some (fmt, d, a, b, op) → ∀ s t vals,
    Ready s false (sqPops a ++ sqPops b) (sqPush d) t vals →
      exec i s = .next (t.fdst d (byLanes fmt fun j =>
        op (laneFormat fmt) (laneAt fmt (t.fsrc a vals) j) (laneAt fmt (t.fsrc b (sqRest a vals)) j))).advance) ∧
    (∀ i fmt d a op, floatOne i = some (fmt, d, a, op) → ∀ s t vals, Ready s false (sqPops a) (sqPush d) t vals →
      exec i s = .next (t.fdst d (byLanes fmt fun j => op (laneFormat fmt) (laneAt fmt (t.fsrc a vals) j))).advance) ∧
    (∀ i fmt d a b f, fused i = some (fmt, d, a, b, f) → ∀ s t vals,
      Ready s false (sqPops a ++ sqPops b) none t vals →
        exec i s = .next (t.setReg d ((byLanes fmt fun j =>
          let v := fun w => valOf (laneFormat fmt) (laneAt fmt w j)
          roundN (laneFormat fmt) (f ((v (t.fsrc a vals)).mul (v (t.fsrc b (sqRest a vals)))) (v ((t.reg d).truncate 32)))).zeroExtend
            64)).advance) ∧
    (∀ i d a f, floatWord i = some (d, a, f) → ∀ s t vals, Ready s false (sqPops a) (sqPush d) t vals →
      exec i s = .next (t.fdst d (f (t.fsrc a vals))).advance) ∧
    (∀ fmt d a b s t vals, Ready s false (sqPops a ++ sqPops b) (sqPush d) t vals →
      exec (.fpack fmt d a b) s = .next (t.fdst d (packed fmt (t.fsrc a vals) (t.fsrc b (sqRest a vals)))).advance) ∧
    (∀ fmt d a s t vals, Ready s false (sqPops a) none t vals →
      exec (.fclass fmt d a) s = .next (t.setReg d (classesOf (t.showsErratum 1) fmt (t.fsrc a vals))).advance) ∧
    ∀ fm : FFormat, fm ≠ .e2m1 →
      fexp2Lane fm .nan = fm.nan ∧ fexp2Lane fm (.inf true) = 0 ∧ fexp2Lane fm (.inf false) = infinityOf fm false ∧
      (∀ neg e, fexp2Lane fm (.fin neg 0 e) = fm.bias * 2 ^ fm.frac) ∧
      (∀ k : Int, k.natAbs < 1024 → fexp2Lane fm (intVal k) = roundN fm (.fin false 1 k)) ∧
      flog2Lane fm .nan = fm.nan ∧ flog2Lane fm (.inf true) = fm.nan ∧ flog2Lane fm (.inf false) = infinityOf fm false ∧
      (∀ neg e, flog2Lane fm (.fin neg 0 e) = infinityOf fm true) ∧
      (∀ m e, 0 < m → flog2Lane fm (.fin true m e) = fm.nan) ∧
      ∀ (l : Nat) (e : Int), flog2Lane fm (.fin false (2 ^ l) e) = roundN fm (intVal (l + e))) ∧
  ((∀ i rm n d a f, conversion i = some (rm, n, d, a, f) → ∀ s t vals, Ready s false (sqPops a) (sqPush d) t vals →
    exec i s = .next ((t.useDraws rm n).idst d (f t.draw (t.fsrc a vals))).advance) ∧
    (∀ dst rm sgn d a s t vals, Ready s false [] (sqPush d) t vals →
      exec (.icvtf64 dst rm sgn d a) s = .next ((t.useDraws rm 1).fdst d
        (rounded dst rm (t.draw 0) (if sgn then (t.reg a).toInt else (t.reg a).toNat))).advance) ∧
    (∀ cc pd a b s t vals, Ready s false (sqPops a ++ sqPops b) none t vals →
      exec (.fcmp cc pd a b) s = .next (t.setPred pd
        (floatCondition cc (valOf .fp32 (t.fsrc a vals).toNat) (valOf .fp32 (t.fsrc b (sqRest a vals)).toNat))).advance) ∧
    ∀ s rm n k, OnElem s k → ((s.useDraws rm n).elem k).fir.stoch =
      (s.elem k).fir.stoch + (if rm = .rs then BitVec.ofNat 32 n else 0))

/-- The frame of every register-only instruction with its operands ready: no byte of any memory, no special register, no
accumulator and no controller register changes, and of the scalar registers and predicates only the destination. -/
def Obligations.RegisterFrame : Prop :=
  ∀ i sh, shapeOf i = some sh → ∀ s t vals, Ready s sh.ctl sh.pops sh.push t vals →
    ∃ u, exec i s = .next u ∧ SameMemory s u ∧ SameSpecial s u ∧ SameRegs s u sh.regs sh.preds

/-- s0 reads zero and discards writes, p0 reads true and discards writes, and every other register holds what was last
written (06 R155). -/
def Obligations.HardwiredRegisters : Prop :=
  ∀ (s : State) (v : DWord) (b : Bool),
    s.reg 0 = 0 ∧ s.core.pred 0 = true ∧ s.setReg 0 v = s.setCore s.core ∧ s.setPred 0 b = s.setCore s.core ∧
      (∀ r, r ≠ 0 → (s.setReg r v).reg r = v ∧ ∀ q, q ≠ r → (s.setReg r v).reg q = s.reg q) ∧
      (∀ n, n ≠ 0 → (s.setPred n b).core.pred n = b ∧ ∀ q, q ≠ n → (s.setPred n b).core.pred q = s.core.pred q)

/-- Branches, jumps and calls (07 R206 to R208, R210): where each goes, what the link register takes, and that a taken BR
or JMP leaves every innermost level that its target is outside of. -/
def Obligations.ControlTransfer : Prop :=
  ∀ (s : State), let pc := s.core.pc
    (∀ pn p (off : BitVec 22), s.core.pred p ≠ pn → ∃ u, exec (.br pn p off) s = .next u ∧
      u.core.pc = pc + BitVec.ofInt 64 (4 * off.toInt) ∧ u.core.s = s.core.s ∧ u.core.p = s.core.p ∧ OnlyCore s u ∧
      u.core.loops = s.core.loops.dropWhile fun l =>
        decide (u.core.pc.toNat < l.start.toNat ∨ l.stop.toNat < u.core.pc.toNat)) ∧
    (∀ pn p off, s.core.pred p = pn → exec (.br pn p off) s = .next s.advance) ∧
    (∀ off : BitVec 22, ∃ u, exec (.jmp off) s = .next u ∧
      u.core.pc = pc + BitVec.ofInt 64 (4 * off.toInt) ∧ u.core.s = s.core.s ∧ u.core.p = s.core.p ∧ OnlyCore s u ∧
      u.core.loops = s.core.loops.dropWhile fun l =>
        decide (u.core.pc.toNat < l.start.toNat ∨ l.stop.toNat < u.core.pc.toNat)) ∧
    (∀ off : BitVec 22, ∃ u, exec (.call off) s = .next u ∧ OnlyCore s u ∧ u.core.p = s.core.p ∧
      u.core.pc = pc + BitVec.ofInt 64 (4 * off.toInt) ∧ u.core.loops = s.core.loops ∧ u.reg 31 = pc + 4 ∧
      ∀ r, r ≠ 31 → u.reg r = s.reg r) ∧
    (∀ a, ∃ u, exec (.callr a) s = .next u ∧ OnlyCore s u ∧ u.core.p = s.core.p ∧
      u.core.pc = s.reg a ∧ u.core.loops = s.core.loops ∧ u.reg 31 = pc + 4 ∧ ∀ r, r ≠ 31 → u.reg r = s.reg r) ∧
    (∀ a, ∃ u, exec (.jr a) s = .next u ∧ OnlyCore s u ∧ u.core = { s.core with pc := s.reg a }) ∧
    ∃ u, exec .ret s = .next u ∧ OnlyCore s u ∧ u.core = { s.core with pc := s.reg 31 }

/-- Bank and loop rule at the end of an instruction (07 R210), shown by NOP: with no repetition running, the next instruction
stands at PC + 4 unless the innermost level ends here; then it repeats from its start, or the level is deactivated and the
same rule applies to an outer level that ends at the same place. NOP changes nothing else. LOOP (07 R209): where no check of
the rule fails, a count above zero opens a level from PC + 4 to the end and goes on at its start, a count of zero goes on
after the body; nothing else changes. Where a check fails, the core in focus faults and the loop levels of the fault's own
rule apply. That a count of zero leaves an outer level that ends at the same place as it is, is the model's reading (log 46,
DEDUCED); the detail word of the faults is its free value (log 33). -/
def Obligations.NopAndLoopInstructions : Prop :=
  (∀ s, s.core.rpt = none → ∃ u, exec .nop s = .next u ∧ OnlyCore s u ∧ u.core.s = s.core.s ∧ u.core.p = s.core.p ∧
    ((∀ l rest, s.core.loops = l :: rest → l.stop ≠ s.core.pc) → u.core.pc = s.core.pc + 4 ∧ u.core.loops = s.core.loops) ∧
    (∀ l rest, s.core.loops = l :: rest → l.stop = s.core.pc → l.left ≠ 1 →
      u.core.pc = l.start ∧ u.core.loops = { l with left := l.left - 1 } :: rest) ∧
    (∀ l, s.core.loops = [l] → l.stop = s.core.pc → l.left = 1 → u.core.pc = s.core.pc + 4 ∧ u.core.loops = []) ∧
    (∀ l m, s.core.loops = [l, m] → l.stop = s.core.pc → l.left = 1 → m.stop ≠ s.core.pc →
      u.core.pc = s.core.pc + 4 ∧ u.core.loops = [m]) ∧
    (∀ l m, s.core.loops = [l, m] → l.stop = s.core.pc → l.left = 1 → m.stop = s.core.pc → m.left ≠ 1 →
      u.core.pc = m.start ∧ u.core.loops = [{ m with left := m.left - 1 }])) ∧
  (∀ (c : BitVec 5) (body : BitVec 16) (s : State), s.core.rpt = none →
    let pc := s.core.pc
    let stop := pc + BitVec.ofNat 64 (4 * body.toNat)
    let last := s.word stop.toNat
    (stop.toNat + 4 ≤ spaceEnd s → last.extractLsb' 28 4 ≠ 0b1111#4 → s.core.loops.length < 2 →
      (∀ l ∈ s.core.loops, l.stop ≠ pc) →
        ∃ u, exec (.loop c body) s = .next u ∧ OnlyCore s u ∧
          u.core = if s.reg c = 0 then { s.core with pc := stop + if last.extractLsb' 26 6 = 0x3B#6 then 8 else 4 }
            else { s.core with pc := pc + 4, loops := { start := pc + 4, stop := stop, left := s.reg c } :: s.core.loops }) ∧
    (spaceEnd s < stop.toNat + 4 → exec (.loop c body) s = .next (s.raise cEmRange (noDetail cEmRange))) ∧
    (stop.toNat + 4 ≤ spaceEnd s → (last.extractLsb' 28 4 = 0b1111#4 ∨ 2 ≤ s.core.loops.length ∨ ∃ l ∈ s.core.loops, l.stop = pc) →
      exec (.loop c body) s = .next (s.raise cIllegal (noDetail cIllegal))))

/-- RPT (07 R211): when each of the n words that follow passes the fetch checks and is no control transfer and no LIX, and no
active level ends inside, the repeat buffer takes those words and their count, or with a count of zero they are passed over.
Within RPT (07 R211): the buffered instruction that completes is followed by the next one, by the first one again while
repetitions remain, or by the word after the buffer. -/
def Obligations.RepeatInstruction : Prop :=
  (∀ (c : BitVec 5) (m : BitVec 4) (s : State), s.core.rpt = none →
    let pc := s.core.pc
    let n := m.toNat + 1
    let addr := fun j : Nat => pc + BitVec.ofNat 64 (4 * (j + 1))
    (∀ j, j < n → (∃ i, s.fetchAt (addr j) = .ok i) ∧ ¬(0x0C ≤ (s.word (addr j).toNat).toNat / 2 ^ 26 ∧
      (s.word (addr j).toNat).toNat / 2 ^ 26 ≤ 0x0F) ∧ (s.word (addr j).toNat).toNat / 2 ^ 26 ≠ 0x3B) →
    (∀ l ∈ s.core.loops, ¬(pc.toNat ≤ l.stop.toNat ∧ l.stop.toNat ≤ pc.toNat + 4 * n)) →
      ∃ u, exec (.rpt c m) s = .next u ∧ OnlyCore s u ∧
        u.core = if s.reg c = 0 then { s.core with pc := addr n }
          else { s.core with pc := pc + 4, rpt := some {
            pc := pc, words := (List.range n).map fun j => s.word (addr j).toNat, idx := 0, left := s.reg c } }) ∧
  (∀ (s : State) (r : Rpt), s.core.rpt = some r → r.idx < r.words.length →
    let after := r.pc + BitVec.ofNat 64 (4 * (r.words.length + 1))
    (s.advance).core =
      if r.idx + 1 < r.words.length then
        { s.core with pc := r.pc + BitVec.ofNat 64 (4 * (r.idx + 2)), rpt := some { r with idx := r.idx + 1 } }
      else if r.left ≠ 1 then { s.core with pc := r.pc + 4, rpt := some { r with idx := 0, left := r.left - 1 } }
      else { s.core with pc := after, rpt := none })

/-! ## Element memory, exceptions -/

/-- Loads (07 R214 to R220): an aligned access inside the memory of the core in focus writes the little-endian bytes,
extended as the width says, and LDC on an element writes constant word k; a load changes no memory and no other register.
Constant words 240 to 247 read the facts of 01 Table 1-4 for the executing firing's slot, and words 248 to 255 read zero,
whatever element memory holds there (07 R220). -/
def Obligations.LoadResult : Prop :=
  ((∀ i s wd d ea, loadOf s i = some (wd, d, ea) → ea.toNat % (widthInfo wd).1 = 0 →
    ea.toNat + (widthInfo wd).1 ≤ spaceEnd s →
      exec i s = .next (s.setReg d (extended wd (bytesAt s ea.toNat (widthInfo wd).1))).advance) ∧
    (∀ (d : BitVec 5) (n : BitVec 8) s k, OnElem s k →
      exec (.ldc d n) s = .next (s.setReg d (BitVec.ofNat 64 (bytesAt s (4 * n.toNat) 4))).advance) ∧
    ∀ (s : State) (d : BitVec 5) v, OnlyCore s (s.setReg d v).advance ∧ SameRegs s (s.setReg d v).advance [d] []) ∧
  (∀ (s : State) k, OnElem s k → ∀ d : BitVec 5, ∀ n : Nat, n < 16 →
    exec (.ldc d (BitVec.ofNat 8 (240 + n))) s =
      .next (s.setReg d (BitVec.ofNat 64 (if n < 8 then s.shape k (s.elem k).fir.slot n % 2 ^ 32 else 0))).advance)

/-- Stores (07 R214 to R218): an aligned access inside the memory of the core in focus that touches no protected byte
stores the low bytes of its register, lowest first, at the computed address, and changes no other byte of any memory, no
register, no predicate and no special register. -/
def Obligations.StoreResult : Prop :=
  ∀ i s wd d ea, storeOf s i = some (wd, d, ea) → ownMemoryWf s →
    ea.toNat % storeBytesOf wd = 0 → ea.toNat + storeBytesOf wd ≤ spaceEnd s →
    (∀ j, j < storeBytesOf wd → protectedByte s (ea.toNat + j) = false) →
      ∃ u, exec i s = .next u ∧
        (∀ j, j < storeBytesOf wd → rawByte u (ea.toNat + j) = (s.reg d).extractLsb' (8 * j) 8) ∧
        SameMemoryBut s u ea.toNat (storeBytesOf wd) ∧ SameSpecialButSram s u ∧ SameRegs s u [] []

/-- The checks of an access (07 R215): a misaligned one raises MISALIGN, then one past the end raises EM_RANGE, then a
store to a protected byte raises EM_RANGE; ea is the detail word, or the faulting address of a trap. -/
def Obligations.AccessFaults : Prop :=
  (∀ i s wd d ea, loadOf s i = some (wd, d, ea) →
    (ea.toNat % (widthInfo wd).1 ≠ 0 → exec i s = .next (s.raiseAt 0x03 ea ea)) ∧
    (ea.toNat % (widthInfo wd).1 = 0 → spaceEnd s < ea.toNat + (widthInfo wd).1 →
      exec i s = .next (s.raiseAt 0x04 ea ea))) ∧
    ∀ i s wd d ea, storeOf s i = some (wd, d, ea) →
      (ea.toNat % storeBytesOf wd ≠ 0 → exec i s = .next (s.raiseAt 0x03 ea ea)) ∧
      (ea.toNat % storeBytesOf wd = 0 → spaceEnd s < ea.toNat + storeBytesOf wd →
        exec i s = .next (s.raiseAt 0x04 ea ea)) ∧
      (ea.toNat % storeBytesOf wd = 0 → (∃ j, j < storeBytesOf wd ∧ protectedByte s (ea.toNat + j) = true) →
        exec i s = .next (s.raiseAt 0x04 ea ea))

/-- Taking a trap (14 R360): an instruction that faults on a controller whose trap level is 0 leaves the trap record at
TRAPBASE and the pc at TRAPBASE + 64 × code; with the trap level at 1 the controller halts, keeps what the second trap
would have recorded, and nothing else changes. -/
def Obligations.TrapEntry : Prop :=
  ∀ (s : State) d code addr detail, s.focus = .controller d → code < 256 →
    ((s.ctrl d).tl = false → Memory.wf (s.ctrl d).sram = true →
      Trapped s (s.raiseAt code addr detail) d code addr ∧
        Trapped s (s.raise code detail) d code (trapPc (s.ctrl d).core)) ∧
    ((s.ctrl d).tl = true → s.raiseAt code addr detail = s.setCtrl d { s.ctrl d with
      halted := some { code := code, pc := trapPc (s.ctrl d).core, addr := addr, told := false } })

/-- A fault aborts the firing of an element (02 R51): whatever raised it. -/
def Obligations.FiringAbort : Prop :=
  ∀ (s : State) d p code addr detail, s.focus = .element d p → code < 256 →
    Aborted s (s.raiseAt code addr detail) (elemKey d p) code ∧ Aborted s (s.raise code detail) (elemKey d p) code

/-- An instruction outside the profile of the core in focus raises ILLEGAL (06 R187): majors 0x10 to 0x19, LDC, DONE, and
the element system instructions on a controller, major 0x1D on an element. -/
def Obligations.ProfileFaults : Prop :=
  (∀ i (s : State) d, s.focus = .controller d → i.isIsa = true → i.controllerOk = false →
    ∃ detail, exec i s = .next (s.raise 0x01 detail)) ∧
    ∀ i (s : State) d p, s.focus = .element d p → i.isIsa = true → i.elementOk = false →
      ∃ detail, exec i s = .next (s.raise 0x01 detail)

/-! ## Streams, tokens, tags, contexts -/

/-- SBIND and SCFG (08 R241, R242) where no check of the rule fails, and SCOUNT (R250): a register names its new binding, an
idle generator takes its parameter, and the destination takes the run's state and what is left of it. SSTART of an idle
generator whose addresses all pass (08 R243), SSTOP of an idle, read, error or drain run, and SWAIT of an idle generator or
of a read run that holds all it has left (R248, R249): the run begins at its base plus offset with nothing popped or pushed;
a stopped run is idle with its parameters kept. -/
def Obligations.StreamBindingAndRuns : Prop :=
  (∀ (s : State) k, OnElem s k → let e := s.elem k
    (∀ q g : Fin 3, (∀ r, r ≠ q → e.q[r] ≠ .gen g) → e.gens[g].st ≠ .drain →
      exec (.sbindGenerator q g) s = .next (s.setElem k { e with q := e.q.set q (.gen g) }).advance) ∧
    (∀ (q : Fin 3) (i : BitVec 3), portMode e i.toNat = .stream → portSlot e i.toNat = e.fir.slot →
      (∀ r, r ≠ q → e.q[r] ≠ .inPort i) → (∀ g : Fin 3, e.gens[g].st = .drain → e.gens[g].drain.toNat / 256 ≠ i.toNat) →
        exec (.sbindInputPort q i) s = .next (s.setElem k { e with q := e.q.set q (.inPort i) }).advance) ∧
    (∀ (q : Fin 3) (o : BitVec 4), s.outChannel k o.toNat ≠ none → (∀ r, r ≠ q → e.q[r] ≠ .outPort o) →
      exec (.sbindOutputPort q o) s = .next (s.setElem k { e with q := e.q.set q (.outPort o) }).advance) ∧
    (∀ q : Fin 3, exec (.sbindUnbind q) s = .next (s.setElem k { e with q := e.q.set q .unbound }).advance) ∧
    (∀ (g : Fin 3) (n : Fin 10) a, e.gens[g].st = .idle →
      (n.val = 0 → (s.reg a).toNat ≤ 0xBFFF) → (1 ≤ n.val → n.val ≤ 4 → 1 ≤ (s.reg a).toNat ∧ (s.reg a).toNat ≤ 4096) →
      (5 ≤ n.val → n.val ≤ 8 → -49152 ≤ (s.reg a).toInt ∧ (s.reg a).toInt ≤ 49152) →
      (n.val = 9 → (s.reg a).toNat < 2048) →
        ∃ u, exec (.scfg g n a) s = .next u ∧ SameRegs s u [] [] ∧ SameMemory s u ∧
          (n.val = 0 → ((u.elem k).gens[g]).base = s.reg a) ∧
          (∀ j : Fin 4, n.val = j.val + 1 → ((u.elem k).gens[g]).cnt[j] = (s.reg a).toNat) ∧
          (∀ j : Fin 4, n.val = j.val + 5 → ((u.elem k).gens[g]).str[j] = (s.reg a).toInt) ∧
          (n.val = 9 → ((u.elem k).gens[g]).drain = (s.reg a).truncate 11) ∧
          ∀ h, h ≠ g → (u.elem k).gens[h] = e.gens[h]) ∧
    (∀ d (g : Fin 3), e.gens[g].st = .idle → exec (.scount d g) s = .next (s.setReg d 0).advance) ∧
    (∀ d (g : Fin 3), exec (.scount d g) s = .next (s.setReg d (scountValue e.gens[g])).advance) ∧
    ∀ d (g : Fin 3), e.gens[g].st = .read → runLength e.gens[g] ≤ 2 ^ 48 → e.gens[g].popped ≤ runLength e.gens[g] →
      exec (.scount d g) s =
        .next (s.setReg d (BitVec.ofNat 64 (2 ^ 61 + (runLength e.gens[g] - e.gens[g].popped)))).advance) ∧
  (∀ (s : State) k, OnElem s k → ∀ g : Fin 3, let x := (s.elem k).gens[g]
    (∀ (m : GenMode) a, m ≠ .drain → x.st = .idle →
      (∀ j, j < runLength x → let ea := runAddr { x with org := x.base.toNat + (s.reg a).toInt } j
        ea % 4 = 0 ∧ 0 ≤ ea ∧ ea + 4 ≤ 0xC000 ∧ (m = .write → 0x400 ≤ ea ∧
          ∀ b, b < 4 → inBitmap (s.elem k) (ea.toNat + b) = false)) →
        ∃ u, exec (.sstart g m a) s = .next u ∧ SameRegs s u [] [] ∧ SameMemory s u ∧
          let y := (u.elem k).gens[g]
          y.st = (if m = .read then .read else .write) ∧ y.org = x.base.toNat + (s.reg a).toInt ∧ y.popped = 0 ∧
            y.pushed = 0 ∧ y.held = [] ∧ y.waiting = [] ∧ y.cnt = x.cnt ∧ y.str = x.str ∧ (u.elem k).fir.clean = false) ∧
    (∀ a, x.st = .idle → portMode (s.elem k) (x.drain.toNat / 256) = .stream →
      portSlot (s.elem k) (x.drain.toNat / 256) = (s.elem k).fir.slot →
      (∀ q : Fin 3, (s.elem k).q[q] ≠ .gen g ∧ (s.elem k).q[q] ≠ .inPort (BitVec.ofNat 3 (x.drain.toNat / 256))) →
      (∀ h : Fin 3, (s.elem k).gens[h].st = .drain → (s.elem k).gens[h].drain.toNat / 256 ≠ x.drain.toNat / 256) →
        ∃ u, exec (.sstart g .drain a) s = .next u ∧ SameRegs s u [] [] ∧ SameMemory s u ∧
          (u.elem k).gens[g].st = .drain ∧ (u.elem k).gens[g].left = x.cnt[0] ∧ (u.elem k).gens[g].t = 0 ∧
            (u.elem k).gens[g].f = 0) ∧
    (x.st = .idle → exec (.sstop g) s = .next s.advance ∧ exec (.swait g) s = .next s.advance) ∧
    (x.st = .read ∨ x.st = .error ∨ (x.st = .drain ∧ x.f = 0) ∨ (x.st = .write ∧ x.waiting = []) →
      ∃ u, exec (.sstop g) s = .next u ∧ SameRegs s u [] [] ∧ SameMemory s u ∧ (u.elem k).gens[g].st = .idle ∧
        (u.elem k).gens[g].base = x.base ∧ (u.elem k).gens[g].cnt = x.cnt ∧ (u.elem k).gens[g].str = x.str) ∧
    (x.st = .read → runLength x - x.popped ≤ 32 → runLength x ≤ x.popped + x.held.length →
      ∃ u, exec (.swait g) s = .next u ∧ SameRegs s u [] [] ∧ SameMemory s u ∧
        (u.elem k).gens[g] = { x with ahead := true } ∧ (u.elem k).fir.status = .running))

/-- One stream operand (08 R244, R245, R251 to R253): a register on a read run pops the oldest element that the run
holds; one on an input port whose head is a data token pops its low 32 bits; a push to a write run joins its waiting
pushes; a push to an output port appends a data token with the firing's tag. -/
def Obligations.StreamOperand : Prop :=
  ∀ (s : State) k, OnElem s k → ∀ q : Fin 3, let e := s.elem k
    (∀ (g : Fin 3) v rest, e.fir.latch = [] → e.q[q] = .gen g → e.gens[g].st = .read → e.gens[g].held = v :: rest →
      e.gens[g].popped + 1 < runLength e.gens[g] →
        ∃ t, Ready s false [q] none t [v] ∧ t.elem k = setGen e g { e.gens[g] with
          popped := e.gens[g].popped + 1, held := rest }) ∧
    (∀ (i : BitVec 3) h, e.fir.latch = [] → e.q[q] = .inPort i → e.ports[i.toNat]'i.isLt = [h] → h.kind = .data →
      s.portEnded k i.toNat = false → ∃ t, Ready s false [q] none t [h.payload.truncate 32] ∧
        (t.elem k).ports[i.toNat]'i.isLt = []) ∧
    (∀ (g : Fin 3) v, e.q[q] = .gen g → ((s.push q v).elem k).gens[g] = { e.gens[g] with
      pushed := e.gens[g].pushed + 1, waiting := e.gens[g].waiting ++ [v] }) ∧
    ∀ (o : BitVec 4) v, e.q[q] = .outPort o → ((s.push q v).elem k).fir.sends = e.fir.sends ++
      [{ port := o.toNat, tok := firingToken s k .data (v.zeroExtend 64) e.fir.tag 0 false false }]

/-- SEND, SENDT, MREQ, STOP, EOS and TAGRET (09 R260 to R266, R269) where no check fails: exactly one token is appended to
the send buffer, with the payload, tag, level, arm and fin that the rule gives; nothing else changes but the stream operands
and the pc. SENDB (09 R264): the tile form, with its slot full and no matrix command left, sends 64 or with scales 66 flits
and a stop, and with .c empties the slot; the memory form sends n flits from an address aligned to 8. -/
def Obligations.SendResult : Prop :=
  (∀ (s : State) k, OnElem s k →
    (∀ (o : BitVec 4) a arm nx t vals, MaySend s k o.toNat 1 false false false → Ready s false (srcPops a) none t vals →
      let xt := (t.elem k).xt
      exec (.send o a arm nx) s = .next (withSends t k [{
        port := o.toNat, tok := firingToken t k .data (t.src a vals)
          (if nx then BitVec.ofNat 32 (xt.toNat / 2 ^ 18 % 2 ^ 14 * 2 ^ 18 + (xt.toNat % 2 ^ 18 + 1) % 2 ^ 18)
            else xt.truncate 32) 0 arm false }]).advance) ∧
    (∀ (o : BitVec 4) a b arm t vals, MaySend s k o.toNat 1 false false false →
      Ready s false (srcPops a ++ srcPops b) none t vals →
        exec (.sendt o a b arm) s = .next (withSends t k [{
          port := o.toNat, tok := firingToken t k .data (t.src a vals) ((t.src b (srcRest a vals)).truncate 32) 0 arm false }]).advance) ∧
    (∀ (o : BitVec 4) a t vals, MaySend s k o.toNat 1 false false true → Ready s false (srcPops a) none t vals →
      exec (.mreq o a) s = .next (withSends t k [{
        port := o.toNat, tok := firingToken t k .data (t.src a vals) ((t.elem k).xt.truncate 32) 0 false false }]).advance) ∧
    (∀ (o : BitVec 4) (level : BitVec 3), MaySend s k o.toNat 1 false true false →
      exec (.stop o level) s = .next (withSends s k [{
        port := o.toNat, tok := firingToken s k .stop 0 ((s.elem k).xt.truncate 32) level.toNat false false }]).advance) ∧
    (∀ o : BitVec 4, MaySend s k o.toNat 1 false false false →
      exec (.eos o) s = .next (withSends s k [{ port := o.toNat, tok := firingToken s k .eos 0 0 0 false false }]).advance) ∧
    ∀ (o : Nat) b a fin t vals, o < 16 → s.outChannel k o = some b → b.kind = .ret →
      (∀ j c, j < o → s.outChannel k j = some c → c.kind ≠ .ret) → MaySend s k o 1 true false false →
      Ready s false (srcPops a) none t vals →
        exec (.tagret a fin) s = .next (withSends t k [{
          port := o, tok := firingToken t k .retire 0 ((t.src a vals).truncate 32) 0 false fin }]).advance) ∧
  (∀ (s : State) k, OnElem s k →
    (∀ (o n : BitVec 4) scale, MaySend s k o.toNat (if scale then 67 else 65) false true false → (s.elem k).mq = [] →
      (s.elem k).tiles[n.toNat]'n.isLt = .full →
        exec (.sendbTile o n scale false) s =
          .next (withSends s k (bulkTokens s k o.toNat (0x9F00 + 528 * n.toNat) (if scale then 66 else 64))).advance ∧
        ∃ u, exec (.sendbTile o n scale true) s = .next u ∧ SameRegs s u [] [] ∧ SameMemory s u ∧
          (u.elem k).fir.sends = (s.elem k).fir.sends ++
            bulkTokens s k o.toNat (0x9F00 + 528 * n.toNat) (if scale then 66 else 64) ∧
          (u.elem k).tiles = (s.elem k).tiles.set n.toNat .empty n.isLt) ∧
    ∀ (o : BitVec 4) a b t vals, Ready s false (srcPops a) none t vals → let base := (t.src a vals).toNat
      let n := (t.reg b).toNat
      MaySend s k o.toNat (n + 1) false true false → 1 ≤ n → n ≤ 255 → base % 8 = 0 → base + 8 * n ≤ 0xC000 →
        exec (.sendbMemory o a b) s = .next (withSends t k (bulkTokens t k o.toNat base n)).advance)

/-- Tags (02 R55, 09 R268, R270): TAGMK, TAGCTX and TAGITER compose and take apart a tag; TAGNEXT issues the next
iteration of the firing's context where its window has room, opening an entry at iteration 0 where none is open. Contexts
(02 R58, 09 R271, R272): CTXNEW asks the sluice of its pool and stalls; granted, it writes the value; CTXFREE of a value
in the pool's range that is allocated is recorded for the commit, and of one that the firing itself has taken it cancels the
hold. Which window entry opens, and that the hold is cancelled at once, are the model's readings (log 23, 67). -/
def Obligations.TagAndContextResult : Prop :=
  (∀ (s : State) k, OnElem s k →
    (∀ d a b t vals, Ready s false (srcPops a ++ srcPops b) none t vals →
      exec (.tagmk d a b) s = .next (t.setReg d (BitVec.ofNat 64 ((t.src a vals).toNat % 2 ^ 14 * 2 ^ 18 +
        (t.src b (srcRest a vals)).toNat % 2 ^ 18))).advance) ∧
    (∀ d a t vals, Ready s false (srcPops a) none t vals →
      exec (.tagctx d a) s = .next (t.setReg d (BitVec.ofNat 64 ((t.src a vals).toNat / 2 ^ 18 % 2 ^ 14))).advance ∧
      exec (.tagiter d a) s = .next (t.setReg d (BitVec.ofNat 64 ((t.src a vals).toNat % 2 ^ 18))).advance) ∧
    (∀ (d : BitVec 5) j w, let e := s.elem k
      let c := e.xt.extractLsb' 18 14
      findWin e e.fir.slot c = some j → tabGet e.wins (winKey e.fir.slot j) = some w → j < winEntries e e.fir.slot →
      (w.n - w.o).toNat < winSize e e.fir.slot →
        ∃ u, exec (.tagnext d) s = .next u ∧ SameRegs s u [d] [] ∧ SameMemory s u ∧
          (d ≠ 0 → u.reg d = BitVec.ofNat 64 (c.toNat * 2 ^ 18 + w.n.toNat)) ∧
          tabGet (u.elem k).wins (winKey e.fir.slot j) = some { w with n := w.n + 1 }) ∧
    ∀ (d : BitVec 5), let e := s.elem k
      let c := e.xt.extractLsb' 18 14
      0 < winEntries e e.fir.slot → winEntries e e.fir.slot ≤ 16 → 0 < winSize e e.fir.slot →
      (∀ j, j < winEntries e e.fir.slot → tabGet e.wins (winKey e.fir.slot j) = none) →
        ∃ u, exec (.tagnext d) s = .next u ∧ SameRegs s u [d] [] ∧
          (d ≠ 0 → u.reg d = BitVec.ofNat 64 (c.toNat * 2 ^ 18)) ∧
          tabGet (u.elem k).wins (winKey e.fir.slot 0) = some { ctx := c, n := 1, o := 0, final := false }) ∧
  (∀ (s : State) k, OnElem s k → let e := s.elem k
    (∀ d a pool v, e.fir.ask = .granted v → ∃ u, exec (.ctxnew d a pool) s = .next u ∧ SameMemory s u ∧
      SameRegs s u [d] [] ∧ (d ≠ 0 → u.reg d = BitVec.ofNat 64 v) ∧ (u.elem k).fir.ask = .none ∧
      (u.elem k).fir.holds = e.fir.holds) ∧
    (∀ d a (pool : BitVec 4) pk, e.fir.ask = .none → s.poolKey e.colour pool.toNat = some pk →
      ∀ t vals, Ready s false (srcPops a) none t vals →
        let r := imgPool (t.imageOf (t.elem k).colour) pool.toNat
        let v := r.base + (t.src a vals).toNat % r.size
        (pk, v) ∉ (t.elem k).fir.holds →
          ∃ u, exec (.ctxnew d a pool) s = .next u ∧ (u.elem k).fir.ask = .asked pk v ∧
            (u.elem k).fir.status = .stalled ∧ (u.pool pk).asks = (t.pool pk).asks ++ [(v, k)]) ∧
    ∀ a (pool : BitVec 4) pk, s.poolKey e.colour pool.toNat = some pk →
      ∀ t vals, Ready s false (srcPops a) none t vals →
        let r := imgPool (t.imageOf (t.elem k).colour) pool.toNat
        let v := (t.src a vals).toNat
        r.base ≤ v → v < r.base + r.size → (pk, v) ∉ (t.elem k).fir.frees →
          (v ∈ (t.pool pk).alloc → (pk, v) ∉ (t.elem k).fir.holds →
            ∃ u, exec (.ctxfree a pool) s = .next u ∧ SameMemory t u ∧ SameRegs t u [] [] ∧
              (u.elem k).fir.frees = (t.elem k).fir.frees ++ [(pk, v)] ∧ u.pools = t.pools) ∧
          ((pk, v) ∈ (t.elem k).fir.holds →
            ∃ u, exec (.ctxfree a pool) s = .next u ∧ SameMemory t u ∧ SameRegs t u [] [] ∧
              (pk, v) ∉ (u.elem k).fir.holds ∧ (∀ h ∈ (u.pool pk).held, h.1 ≠ v) ∧ (u.elem k).fir.frees = (t.elem k).fir.frees))

/-! ## Matrix unit, element system, DONE -/

/-- Queued matrix instructions (09 R278, R279, R282 to R288): with an address that passes the issue checks, or none, a queue
with room takes the command last and the firing is no longer clean; a full queue stalls. MREAD and MWAIT with an empty queue
(09 R281, R289), and MSTAT at any time (R290): MREAD writes one accumulator word, zero-extended, MSTAT the queue's length,
the slots FULL and FILLING, the operation count of the microprogram, and zero in the reserved bits. -/
def Obligations.MatrixInstructions : Prop :=
  (∀ (s : State) k, OnElem s k → ∀ i c need, matrixOf s i = some (c, need) →
    (∀ a n w, need = some (a, n, w) → MatrixAddr (s.elem k) a.toNat n w) →
      ((s.elem k).mq.length < 8 →
        exec i s = .next (s.setElem k (unclean { s.elem k with mq := (s.elem k).mq ++ [c] })).advance) ∧
      (8 ≤ (s.elem k).mq.length → exec i s = .next s.stall)) ∧
  (∀ (s : State) k, OnElem s k → let e := s.elem k
    (e.mq = [] → (∀ d a (acc : BitVec 2), exec (.mread d a acc) s = .next ((s.setElem k (unclean e)).setReg d
      ((nth e.acc.toList (64 * acc.toNat + (s.reg a).toNat % 64) 0).zeroExtend 64)).advance) ∧
      exec .mwait s = .next (s.setElem k (unclean e)).advance) ∧
    (e.mq ≠ [] → (∀ d a acc, exec (.mread d a acc) s = .next s.stall) ∧ exec .mwait s = .next s.stall) ∧
    ∀ d, ∃ v : DWord, exec (.mstat d) s = .next (s.setReg d v).advance ∧
      (e.mq.length < 2 ^ 16 → (v.extractLsb' 0 16).toNat = e.mq.length) ∧
      (e.mq.length < 2 ^ 16 → ∀ n : Fin 16, v.getLsbD (16 + n.val) = decide (e.tiles[n] = .full) ∧
        v.getLsbD (32 + n.val) = decide (e.tiles[n] = .filling)) ∧
      (e.mq.length < 2 ^ 16 → v.extractLsb' 51 13 = 0 ∧
        (v.extractLsb' 48 3).toNat = match e.mprog with | some im => leAt im 12 1 % 8 | none => 0) ∧
      (e.mq.length ≤ 8 → v.extractLsb' 4 12 = 0))

/-- Element system (09 R291 to R297). In a firing whose colour has a region on its die, QSHAPE k writes the fact k of Table
9-9: replica index and count of the slot, width and height of the region, its live elements, the element's index there, its
logical die, the grade word, the region's compute dies, the die's index among them; without a region it writes some value
too. RDID k writes the fact k of Table 9-10. FAULT aborts the firing with USER_FAULT, with its operand as word 3 of the
record. FENCE.E goes on when no accepted push waits and no matrix command is left, and stalls otherwise. PERF k writes the
counter k of Table 9-11, of which 4 and 5 have advanced by a free number of cycles, and 7 is the entries in use. CYC writes
the plot's cycle count, advanced likewise. The free cycles are the model's (log 6). DONE (02 R50, 07 R212): where every
output is accepted it commits: the element is idle with no loop level, its entry is free, its counters 0 and 6 count the
firing and its tokens, its held context values are allocated, no byte of memory changes, and the token of a firing that has
buffered one leaves for its consumers. Where an output is not accepted, the firing waits at DONE and nothing else changes. -/
def Obligations.ElementSystemAndDone : Prop :=
  (∀ (s : State) k, OnElem s k → let e := s.elem k
    let a := e.fir.slot
    let b := s.imageOf e.colour
    (∀ (r : BitVec 5) (n : Fin 10) g, s.regionOf e.colour (k / 6400) = some g →
      exec (.qshape r n) s = .next (s.setReg r (BitVec.ofNat 64 (nth
        [slotField e a 16 4, slotField e a 20 4, g.1.w, g.1.h, s.regionLive g, s.regionIndex g (k / 6400) (k % 6400),
          s.ldie (k / 6400), s.gradeWord, g.2.length, (g.2.findIdx? (· = k / 6400)).getD 0] n.val 0))).advance) ∧
    (∀ (r : BitVec 5) (n : Fin 10), ∃ v, exec (.qshape r n) s = .next (s.setReg r v).advance) ∧
    (∀ (r : BitVec 5) (n : Fin 7), exec (.rdid r n) s = .next (s.setReg r (BitVec.ofNat 64 (nth
      [e.colour, e.load % 64, 1, imgErrata b % 2 ^ 32, imgErrata b / 2 ^ 32, imgGen b, 0x9F00] n.val 0))).advance) ∧
    (∀ x t vals, Ready s false (srcPops x) none t vals → ∃ u r, exec (.fault x) s = .next u ∧ Aborted t u k 0x07 ∧
      u.levee = t.levee ++ [r] ∧ r.record.w3 = t.src x vals) ∧
    (let met := e.mq = [] ∧ ∀ g : Fin 3, e.gens[g].st = .write → e.gens[g].waiting = [];
      (met → exec .fenceE s = .next s.advance) ∧ (¬met → exec .fenceE s = .next s.stall)) ∧
    (∀ (r : BitVec 5) (n : Fin 8), ∃ u, exec (.perf r n) s = .next u ∧ SameMemory s u ∧ SameRegs s u [r] [] ∧
      (r ≠ 0 → ∀ j : Fin 7, n.val = j.val → u.reg r =
        e.perf[j] + if j.val = 4 ∨ j.val = 5 then Config.freeCycles s.free else 0) ∧
      (r ≠ 0 → n.val = 7 → u.reg r = BitVec.ofNat 64 e.store.length)) ∧
    ∀ r : BitVec 5, let p := k / 6400 * 400 + k % 6400 / 16
      ∃ u, exec (.cyc r) s = .next u ∧ SameMemory s u ∧ SameRegs s u [r] [] ∧
        (u.plot p).cycles = (s.plot p).cycles + Config.freeCycles s.free ∧ (r ≠ 0 → u.reg r = (u.plot p).cycles)) ∧
  (∀ (s : State) k, OnElem s k → let e := s.elem k
    (s.commitAccepted k (s.commitSends k) = true → ∃ u, exec .done s = .next u ∧ let e' := u.elem k
      e'.fir = Firing.idle ∧ e'.core.loops = [] ∧ e'.core.rpt = none ∧ SameMemory s u ∧
      e'.perf[0] = e.perf[0] + 1 ∧ e'.perf[6] = e.perf[6] + BitVec.ofNat 64 (s.commitSends k).length ∧
      (tabWf e.store = true → e.fir.place < 64 → tabGet e'.store e.fir.place = none) ∧
      (e.fir.frees = [] → ∀ h ∈ e.fir.holds, h.2 ∈ (u.pool h.1).alloc) ∧
      ∀ x b, e.fir.place < 64 → e.fir.sends = [x] → e.fir.frees = [] → s.srcBind (elemSource k x.port) x.tok.colour e.load = some b →
        u.packets = s.packets ++ (pickDests b x.tok).map (s.packet b x.tok)) ∧
    (s.commitAccepted k (s.commitSends k) = false → exec .done s = .next (s.setElem k
      { e with fir := { e.fir with status := .waitDone } })))

/-! ## The die controller -/

/-- SCMD and SCWAIT (14 R370, R371): SCMD of an aligned address with a free ticket copies the 16 bytes under the next
number and writes that number; SCWAIT of a number that is not outstanding writes a word with status 7, of a completed
command its completion word, which retires the ticket, and of an open command it stalls. CSRR and CSRW (14 R361, R363): a
read writes the register's value, a write of an allowed value sets it, 1s written to evpend clear its latched bits only,
and a number outside the table, a read-only register or a reserved bit is ILLEGAL. Reads of the running counters see them
a free number of cycles on. The free counts are the model's (log 6), and a value out of a register's range being ILLEGAL
too is the model's reading (log 26). -/
def Obligations.TicketAndCsrInstructions : Prop :=
  (∀ (s : State) k, s.focus = .controller k → let c := s.ctrl k
    (∀ d a, SramAddr (s.reg a) 16 → c.tickets.length < 64 → ∃ u, exec (.scmd d a) s = .next u ∧ SameRegs s u [d] [] ∧
      SameMemory s u ∧ (d ≠ 0 → u.reg d = c.nextTicket.zeroExtend 64) ∧ (u.ctrl k).nextTicket = c.nextTicket + 1 ∧
      (u.ctrl k).tickets = c.tickets ++ [{
        num := c.nextTicket, lo := BitVec.ofNat 64 (bytesAt s (s.reg a).toNat 8),
        hi := BitVec.ofNat 64 (bytesAt s ((s.reg a).toNat + 8) 8), phase := .issued }]) ∧
    (∀ d a, SramAddr (s.reg a) 16 → 64 ≤ c.tickets.length → exec (.scmd d a) s = .next s.stall) ∧
    (∀ d a, (s.reg a).toNat % 16 ≠ 0 → exec (.scmd d a) s = .next (s.raiseAt 0x03 (s.reg a) (s.reg a))) ∧
    (∀ d a, (∀ t ∈ c.tickets, t.num ≠ (s.reg a).truncate 16) → exec (.scwait d a) s = .next (s.setReg d 7).advance) ∧
    ∀ d a, ∀ t ∈ c.tickets, t.num = (s.reg a).truncate 16 → (∀ x ∈ c.tickets, x.num = t.num → x = t) →
      (∀ w, t.phase = .done w → ∃ u, exec (.scwait d a) s = .next u ∧ SameRegs s u [d] [] ∧ SameMemory s u ∧
        (d ≠ 0 → u.reg d = w) ∧ (u.ctrl k).tickets = c.tickets.filter fun x => x.num ≠ t.num) ∧
      ((∀ w, t.phase ≠ .done w) → exec (.scwait d a) s = .next s.stall)) ∧
  (∀ (s : State) k, s.focus = .controller k → let c := s.ctrl k
    (∀ d, exec (.csrr d 0x000) s = .next (s.setReg d (if c.tl then 1 else 0)).advance ∧
      exec (.csrr d 0x001) s = .next (s.setReg d c.trapbase).advance ∧
      exec (.csrr d 0x002) s = .next (s.setReg d c.trapcnt).advance ∧
      exec (.csrr d 0x010) s = .next (s.setReg d (BitVec.ofNat 64 (s.ldie k))).advance ∧
      exec (.csrr d 0x011) s = .next (s.setReg d (BitVec.ofNat 64 k)).advance ∧
      exec (.csrr d 0x012) s = .next (s.setReg d (BitVec.ofNat 64 s.gradeWord)).advance ∧
      exec (.csrr d 0x020) s = .next (s.setReg d c.quantum).advance ∧
      exec (.csrr d 0x023) s = .next (s.setReg d c.tcmp).advance ∧
      exec (.csrr d 0x040) s = .next (s.setReg d (BitVec.ofNat 64 c.tickets.length)).advance ∧
      exec (.csrr d 0x050) s = .next (s.setReg d c.spbase).advance ∧
      exec (.csrr d 0x051) s = .next (s.setReg d c.spsize).advance ∧
      exec (.csrr d 0x031) s =
        .next (s.setReg d ((BitVec.ofFnLE fun n : Fin 12 => eventBit s k n.val).zeroExtend 64)).advance ∧
      (∃ u, exec (.csrr d 0x021) s = .next u ∧ SameRegs s u [d] [] ∧ (d ≠ 0 → u.reg d = (u.ctrl k).qcnt)) ∧
      ∃ u, exec (.csrr d 0x022) s = .next u ∧ SameRegs s u [d] [] ∧ (d ≠ 0 → u.reg d = (u.ctrl k).lcnt)) ∧
    (∀ a, (s.reg a).toNat % 512 = 0 → (s.reg a).toNat < 2 ^ 22 →
      exec (.csrw a 0x001) s = .next (s.setCtrl k { c with trapbase := s.reg a }).advance) ∧
    (∀ a, (s.reg a).toNat % 512 ≠ 0 ∨ 2 ^ 22 ≤ (s.reg a).toNat → ∃ detail, exec (.csrw a 0x001) s = .next (s.raise 0x01 detail)) ∧
    (∀ a, (s.reg a).toNat % 2097152 = 0 → exec (.csrw a 0x050) s = .next (s.setCtrl k { c with spbase := s.reg a }).advance ∧
      exec (.csrw a 0x051) s = .next (s.setCtrl k { c with spsize := s.reg a }).advance) ∧
    (∀ a, 1 ≤ (s.reg a).toNat → (s.reg a).toNat ≤ 2 ^ 40 →
      exec (.csrw a 0x020) s = .next (s.setCtrl k { c with quantum := s.reg a }).advance) ∧
    (∀ a, (s.reg a).toNat = 0 ∨ 2 ^ 40 < (s.reg a).toNat → ∃ detail, exec (.csrw a 0x020) s = .next (s.raise 0x01 detail)) ∧
    (∀ a, (s.reg a).toNat % 2097152 ≠ 0 → ∀ n ∈ [0x050#12, 0x051#12],
      ∃ detail, exec (.csrw a n) s = .next (s.raise 0x01 detail)) ∧
    (∀ a, 2 ^ 12 ≤ (s.reg a).toNat → ∃ detail, exec (.csrw a 0x031) s = .next (s.raise 0x01 detail)) ∧
    (∀ a, exec (.csrw a 0x021) s = .next (s.setCtrl k { c with qcnt := s.reg a }).advance ∧
      exec (.csrw a 0x023) s = .next (s.setCtrl k { c with tcmp := s.reg a }).advance) ∧
    (∀ a, (s.reg a).toNat < 2 ^ 12 → exec (.csrw a 0x031) s = .next (s.setCtrl k { c with latched := clearedEvents c.latched (s.reg a) }).advance) ∧
    (∀ d (n : BitVec 12), n ∉ [0x000#12, 0x001#12, 0x002#12, 0x010#12, 0x011#12, 0x012#12, 0x020#12, 0x021#12, 0x022#12,
      0x023#12, 0x031#12, 0x040#12, 0x050#12, 0x051#12] →
        (∃ detail, exec (.csrr d n) s = .next (s.raise 0x01 detail)) ∧
        ∀ a, ∃ detail, exec (.csrw a n) s = .next (s.raise 0x01 detail)) ∧
    ∀ a (n : BitVec 12), n ∈ [0x000#12, 0x002#12, 0x010#12, 0x011#12, 0x012#12, 0x022#12, 0x040#12] →
      ∃ detail, exec (.csrw a n) s = .next (s.raise 0x01 detail))

/-- ERET and WAITEV (14 R364, R365): with the trap level at 0 ERET is ILLEGAL; otherwise it goes on at word 0 of the trap
record with the loop levels restored and the level 0. WAITEV writes the pending events under its mask, whose bits are those
of Table 14-3, and stalls while there is none and the mask is not zero. A trap and the ERET that follows it (14 R360, R364):
on a controller at trap level 0, outside a repetition, whose trap record has stayed as the trap left it, ERET resumes at the
instruction that faulted, with every register and loop level as before the trap; only the counter and the record show that it
was taken. -/
def Obligations.TrapReturnAndEvents : Prop :=
  (∀ (s : State) k, s.focus = .controller k → let c := s.ctrl k
    (c.tl = false → ∃ detail, exec .eret s = .next (s.raise 0x01 detail)) ∧
    (c.tl = true → exec .eret s = .next (s.setCtrl k { c with
      tl := false, shadow := []
      core := { c.core with pc := BitVec.ofNat 64 (bytesAt s c.trapbase.toNat 8), loops := c.shadow, rpt := none } })) ∧
    ∀ d (m : BitVec 12), let v : BitVec 12 := BitVec.ofFnLE fun n : Fin 12 => m.getLsbD n.val && eventBit s k n.val
      (v ≠ 0 ∨ m = 0 → exec (.waitev d m) s = .next (s.setReg d (v.zeroExtend 64)).advance) ∧
      (v = 0 → m ≠ 0 → exec (.waitev d m) s = .next s.stall)) ∧
  (∀ (s : State) k code addr detail, s.focus = .controller k → (s.ctrl k).tl = false → (s.ctrl k).core.rpt = none →
    (s.ctrl k).shadow = [] → Memory.wf (s.ctrl k).sram = true → code < 256 →
      ∃ u, exec .eret (s.raiseAt code addr detail) = .next u ∧
        { u.ctrl k with sram := (s.ctrl k).sram, trapcnt := (s.ctrl k).trapcnt } = s.ctrl k ∧ u.core = s.core)

/-- Mailboxes and XINV (14 R366 to R369): MBXRD stores the oldest record of an inbound mailbox and writes 1, or writes 0;
MBXWR queues the record where the mailbox has room and its target exists, and writes 1, 0 or 2; XINV waits for every die
that is not dead and goes on once all have acknowledged. That a full mailbox is answered ahead of a bad target is the
model's reading (log 27). -/
def Obligations.MailboxesAndXinv : Prop :=
  ∀ (s : State) k, s.focus = .controller k → let c := s.ctrl k
    (∀ d a (b : Fin 5), SramAddr (s.reg a) 32 → b ∈ [0, 1, 4] →
      (c.mbox[b] = [] → exec (.mbxrd d a b) s = .next (s.setReg d 0).advance) ∧
      ∀ r rest, c.mbox[b] = r :: rest → Memory.wf c.sram = true → ∃ u, exec (.mbxrd d a b) s = .next u ∧ SameRegs s u [d] [] ∧
        (d ≠ 0 → u.reg d = 1) ∧ (u.ctrl k).mbox[b] = rest ∧
        bytesAt u (s.reg a).toNat 8 = r.w0.toNat ∧ bytesAt u ((s.reg a).toNat + 8) 8 = r.w1.toNat ∧
        bytesAt u ((s.reg a).toNat + 16) 8 = r.w2.toNat ∧ bytesAt u ((s.reg a).toNat + 24) 8 = r.w3.toNat ∧
        SameMemoryBut s u (s.reg a).toNat 32) ∧
    (∀ d a (b : Fin 5), SramAddr (s.reg a) 32 → b ∈ [2, 3] → let r := readRec c.sram (s.reg a).toNat
      (64 ≤ c.mbox[b].length → exec (.mbxwr d a b) s = .next (s.setReg d 0).advance) ∧
      (c.mbox[b].length < 64 → b = 3 → s.dieOf (r.w0.toNat % 64) = none →
        exec (.mbxwr d a b) s = .next (s.setReg d 2).advance) ∧
      (c.mbox[b].length < 64 → (b = 3 → s.dieOf (r.w0.toNat % 64) ≠ none) → ∃ u, exec (.mbxwr d a b) s = .next u ∧
        SameRegs s u [d] [] ∧ SameMemory s u ∧ (d ≠ 0 → u.reg d = 1) ∧ (u.ctrl k).mbox[b] = c.mbox[b] ++ [r])) ∧
    ∀ kind colour, (c.inval = none → ∃ u i, exec (.xinv kind colour) s = .next u ∧ (u.ctrl k).inval = some i ∧
        i.kind = kind ∧ i.colour = colour.toNat ∧ (∀ d, d < 64 → (d ∈ i.waiting ↔ (s.dieMap d).cls ≠ .dead)) ∧
        SameRegs s u [] [] ∧ u.core.pc = s.core.pc) ∧
      (∀ i, c.inval = some i → i.waiting = [] →
        exec (.xinv kind colour) s = .next (s.setCtrl k { c with inval := none }).advance)

/-! ## Fetch, decode, one step -/

/-- A step runs the decoded instruction (06 R154, 07 R192, R193): with an empty agenda, a running or stalled firing whose
step limit is not reached counts the instruction, if it has not yet, and does what exec does with the instruction that the
bytes at its pc decode to, when the pc is aligned and inside the code extent and the instruction is in the element's
profile; a released controller does what exec does with its instruction; a repetition takes it from the repeat buffer; an
event at the head of the agenda is executed, and a core there takes its turn. The agenda is the model's own (log 1), and
so is the count of an instruction that stalled (log 8). -/
def Obligations.StepRunsDecoded : Prop :=
  (∀ (s : State) d p i, s.agenda = [] → s.focus = .element d p → let k := elemKey d p
    let e := s.elem k
    let a := e.core.pc.toNat
    e.fir.status = .running ∨ e.fir.status = .stalled → e.fir.counted = true ∨ e.fir.steps < stepLimitOf e e.fir.slot →
    let c := if e.fir.counted then s else s.setElem k { e with
      perf := e.perf.set 3 (e.perf[3] + 1), fir := { e.fir with steps := e.fir.steps + 1, counted := true } }
    (e.core.rpt = none → a % 4 = 0 → 0x400 ≤ a → a + 4 ≤ 0xC000 → codeFirst e e.fir.slot ≤ a → a ≤ codeLast e e.fir.slot →
      decodeWords (BitVec.ofNat 32 (bytesAt s a 4))
        (if a + 8 ≤ 0xC000 then some (BitVec.ofNat 32 (bytesAt s (a + 4) 4)) else none) = .ok i →
      i.elementOk = true → step s = exec i c) ∧
    (∀ r, e.core.rpt = some r → decodeWords (nth r.words r.idx 0) none = .ok i → step s = exec i c)) ∧
  (∀ (s : State) d i, s.agenda = [] → s.focus = .controller d → let c := s.ctrl d
    let a := c.core.pc.toNat
    c.released = true → c.halted = none →
    (c.core.rpt = none → a % 4 = 0 → a + 4 ≤ 0x400000 →
      decodeWords (BitVec.ofNat 32 (bytesAt s a 4))
        (if a + 8 ≤ 0x400000 then some (BitVec.ofNat 32 (bytesAt s (a + 4) 4)) else none) = .ok i →
      i.controllerOk = true → step s = exec i s) ∧
    (∀ r, c.core.rpt = some r → decodeWords (nth r.words r.idx 0) none = .ok i → step s = exec i s)) ∧
  (∀ (s : State) e rest, s.agenda = .event e :: rest → e.isIsa = false → step s = exec e { s with agenda := rest }) ∧
  ∀ (s : State) c rest, s.agenda = .core c :: rest → step s = stepCore { s with agenda := rest, focus := c }

/-- The faults of a fetch on an element, in the order of 06 R154 with the check of 07 R193, and the step limit ahead of
them all (07 R192): each aborts the firing with its code. -/
def Obligations.FetchFaults : Prop :=
  ∀ (s : State) d p, s.agenda = [] → s.focus = .element d p → let k := elemKey d p
    let e := s.elem k
    let a := e.core.pc.toNat
    let w : Word := BitVec.ofNat 32 (bytesAt s a 4)
    e.fir.status = .running → e.core.rpt = none → e.fir.counted = false →
    (stepLimitOf e e.fir.slot ≤ e.fir.steps → ∃ u, step s = .next u ∧ Aborted s u k 0x06) ∧
    (e.fir.steps < stepLimitOf e e.fir.slot →
      (a % 4 ≠ 0 → ∃ u, step s = .next u ∧ Aborted s u k 0x03) ∧
      (a % 4 = 0 → a < 0x400 ∨ 0xC000 < a + 4 → ∃ u, step s = .next u ∧ Aborted s u k 0x04) ∧
      (a % 4 = 0 → 0x400 ≤ a → a + 4 ≤ 0xC000 → a < codeFirst e e.fir.slot ∨ codeLast e e.fir.slot < a →
        ∃ u, step s = .next u ∧ Aborted s u k 0x01) ∧
      (a % 4 = 0 → 0x400 ≤ a → a + 4 ≤ 0xC000 → codeFirst e e.fir.slot ≤ a → a ≤ codeLast e e.fir.slot →
        (w.toNat / 2 ^ 28 = 15 → ∃ u, step s = .next u ∧ Aborted s u k 0x02) ∧
        (0x1D ≤ w.toNat / 2 ^ 26 → w.toNat / 2 ^ 26 ≤ 0x3A → ∃ u, step s = .next u ∧ Aborted s u k 0x01)))

/-- Words of the spec's examples, and what each stands for (06 to 09, 14). -/
def Sys2Proof.Statements.exampleWords : List (Word × Instr) :=
  [ (0b000000_00101_00110_00111_00010000000#32, .add (.s 5) (.s 6) (.s 7) true),
    (0b000101_00010_00011_0000000001000101#32, .slli 2 3 true 5),
    (0b000110_00100_00000_0001001000110100#32, .lui 4 0x1234),
    (0b000111_00010_00100_0101111111111111#32, .cmpi .lt 2 4 0x1FFF),
    (0b001000_00111_00010_0110000000000110#32, .ld .z16 7 2 6),
    (0b001101_1000000000000000000000001000#32, .call 8),
    (0b001110_00000_00101_0000000000000000#32, .jr 5),
    (0b010000_00110_00000_0000101100100010#32, .fmul .bf16x2 (.s 6) (.q 0) (.q 1)),
    (0b010100_00000_00101_0000000100000101#32, .scfg 0 5 5),
    (0b010101_00100_10010_0000000000000001#32, .send 2 (.s 9) false true),
    (0b011000_00000_00000_0010001101100001#32, .mma .bf16 false true 1 2 3 0),
    (0b011010_00001_00010_0001100000000100#32, .cmp .lo 1 (.s 2) (.s 3) false),
    (0b011011_00100_00101_0011000000001010#32, .sel 4 true 2 (.s 5) (.s 6)),
    (0b011100_00100_00000_0000000000100000#32, .qshape 4 4),
    (0b011101_00101_10100_0000000000000000#32, .scmd 5 20) ]

/-- Decoding of words written out from the spec's examples. -/
def Obligations.ExampleWordsDecode : Prop :=
  ∀ x ∈ exampleWords, decodeWords x.1 none = .ok x.2 ∧ ∀ v, decodeWords x.1 (some v) = .ok x.2

/-- Decode and encode agree (chapter 6): every well-formed instruction with an encoding, with every operand at every
value, is what the decoder reads from the bytes of its own words, and the decoder leaves the bytes after it. The encoder
is the model's, written from the same tables. -/
def Obligations.DecodeEncode : Prop :=
  ∀ i : Instr, i.isIsa = true → i.wellFormed = true → ∀ rest, decode (encodeBytes i ++ rest) = .ok (i, rest)

/-- No word is ambiguous (06 R186): a word that decodes is the encoding of what it decodes to, so that no field of it is
ignored; an instruction of two words has both of its words so. -/
def Obligations.EncodeDecode : Prop :=
  ∀ (w v : Word) i, decodeWords w (some v) = .ok i →
    i.isIsa = true ∧ i.wellFormed = true ∧ (encode i = [w] ∨ encode i = [w, v])

/-! ## Invariants -/

/-- Every trap base names a whole area inside its controller's SRAM (14 R360, R361), and every step keeps it so. -/
def Obligations.EveryStepKeepsTrapAreas : Prop :=
  ∀ s u, Safety.TrapAreas s → step s = .next u → Safety.TrapAreas u

/-- Every step keeps HBM in its canonical form, so that equal memories are equal data. -/
def Obligations.EveryStepKeepsHbmCanonical : Prop :=
  ∀ s u, Memory.wf s.phys = true → step s = .next u → Memory.wf u.phys = true

/-- A turn of a core keeps its memories canonical: from an empty agenda, a step of the core in focus leaves every element
memory and every controller's SRAM in canonical form, the agenda empty and the focus where it was. -/
def Obligations.CoreTurnKeepsMemories : Prop :=
  let inv := fun s : State => s.agenda = [] ∧ (∀ k, Memory.wf (s.elem k).mem = true) ∧ ∀ d, Memory.wf (s.ctrl d).sram = true
  ∀ s u, inv s → step s = .next u → inv u ∧ u.focus = s.focus

/-- Whether a packet carries a sluice request or a free notice. -/
def Sys2Proof.Statements.isSluice : Cargo → Bool
  | .ask _ _ _ | .notice _ _ _ => true
  | _ => false

/-- An element's instruction other than DONE reaches no controller, no HBM, no launch, no channel, no other element, and no
packet but those that carry sluice requests and free notices (02 R48 to R54): it changes its own element, sluice pools,
notices and requests, and the records of its faults. -/
def Obligations.ElementInstructionIsLocal : Prop :=
  ∀ i (s : State) d p u, s.focus = .element d p → i.isIsa = true → i ≠ .done → exec i s = .next u →
    u.ctrls = s.ctrls ∧ u.phys = s.phys ∧ u.launches = s.launches ∧ u.chans = s.chans ∧
      u.packets.filter (fun x => !isSluice x.cargo) = s.packets.filter (fun x => !isSluice x.cargo) ∧ u.focus = s.focus ∧ u.agenda = s.agenda ∧ ∀ k, k ≠ elemKey d p → u.elem k = s.elem k

/-- Reset (14 R357, Table 14-1): the invariants hold there, and every controller starts released at 0x1000 with its
registers zero, trap level 0, TRAPBASE 0x200, quantum 16,777,216, counters 0, tcmp 2^64 − 1 and empty mailboxes. The spec
gives no reset value for the registers of an element: zero, no stream register bound and no tile slot filled is the model's
choice (log 3), and so is what unwritten memory reads as (log 4). -/
def Obligations.ResetState : Prop :=
  Safety.TrapAreas State.reset ∧ Memory.wf State.reset.phys = true ∧
    (∀ k, Memory.wf (State.reset.elem k).mem = true) ∧ (∀ d, Memory.wf (State.reset.ctrl d).sram = true) ∧
    (∀ k, let e := State.reset.elem k
      (∀ r, e.core.reg r = 0) ∧ (∀ n, n ≠ 0 → e.core.pred n = false) ∧ (∀ j : Fin 4, e.x[j] = 0) ∧ e.xt = 0 ∧ e.xc = 0 ∧
        (∀ j : Fin 256, e.acc[j] = 0) ∧ (∀ j : Fin 16, e.tiles[j] = .empty) ∧ (∀ j : Fin 3, e.q[j] = .unbound) ∧
        (∀ j : Fin 7, e.perf[j] = 0) ∧ e.mprog = none ∧ e.mq = [] ∧ e.configured = false) ∧
    ∀ d, let c := State.reset.ctrl d
      c.core.pc = 0x1000 ∧ (∀ r, c.core.reg r = 0) ∧ c.tl = false ∧ c.trapbase = 0x200 ∧ c.trapcnt = 0 ∧
        c.quantum = 16777216 ∧ c.qcnt = 0 ∧ c.lcnt = 0 ∧ c.tcmp = BitVec.allOnes 64 ∧ c.latched = 0 ∧
        c.released = true ∧ c.halted = none ∧ c.tickets = [] ∧ ∀ b : Fin 5, c.mbox[b] = []

/-! ## Events of elements -/

/-- Firings begin and end (02 R42, R45 to R53; 07 R192). A running firing that would execute an instruction past its step
limit aborts with STEP_LIMIT; one that stands refused at its deferral limit aborts with CTX_EXHAUSTED or TAG_WINDOW. The
oldest READY entry joins the run queue, behind those in it. An actor whose required ports have all ended and which holds no
entry has its end firing READY. An idle open element dispatches the one queued firing of its run queue: the operands, the
tag and the fields of xc are those of its entry, the pc is the entry address of its arm, s0 is zero, p0 is true, no loop
level is active, and the entry is RUNNING. A firing that waits at DONE commits, as DONE does, once its outputs are accepted,
and waits otherwise. A stalled one goes on. -/
def Obligations.FiringEvents : Prop :=
  (∀ (s : State) d p, s.focus = .element d p → let e := s.elem (elemKey d p)
    (e.fir.status = .running → e.fir.counted = false → stepLimitOf e e.fir.slot ≤ e.fir.steps →
      ∃ u, exec .stepLimit s = .next u ∧ Aborted s u (elemKey d p) 0x06) ∧
    (∀ en, e.fir.status ≠ .idle → e.fir.clean = true → e.fir.place < 64 → tabGet e.store e.fir.place = some en →
      defLimitOf e e.fir.slot ≤ en.defcnt →
        (∀ pk v, e.fir.ask = .refused pk v →
          ∃ u, exec (.deferralLimit .context) s = .next u ∧ Aborted s u (elemKey d p) 0x0B) ∧
        (∀ r, s.fetch = .ok (.tagnext r) → winEntries e e.fir.slot ≠ 0 →
          windowRefused e e.fir.slot (e.xt.extractLsb' 18 14) = true →
            ∃ u, exec (.deferralLimit .window) s = .next u ∧ Aborted s u (elemKey d p) 0x0A))) ∧
  ∀ (s : State) die pos, let k := elemKey die pos
    let e := s.elem k
    (∀ p rest en, e.ready = p :: rest → e.runq.length < 16 → tabGet e.store p = some en →
      ∃ u, exec (.runQueueJoin die pos) s = .next u ∧ (u.elem k).ready = rest ∧ (u.elem k).runq = e.runq ++ [p] ∧
        tabGet (u.elem k).store p = some { en with st := .queued } ∧ SameMemory s u) ∧
    (∀ a : Fin 8, e.configured = true → e.cut ≠ .saved → e.ends[a] = .active → slotValid e a = true →
      requiredPorts e a ≠ [] → (∀ i ∈ requiredPorts e a, s.portEnded k i = true) → (∀ x ∈ e.store, x.2.slot ≠ a.val) →
        ∃ u, exec (.endFiringReady die pos a) s = .next u ∧ (u.elem k).ends[a] = .ready false ∧
          (u.elem k).ready = e.ready ++ [64 + a.val] ∧ SameMemory s u) ∧
    (∀ p en, e.configured = true → e.cut = .open → e.copyFault = false → e.fir.status = .idle → e.pend = none →
      e.runq = [p] → p < 64 → tabGet e.store p = some en → en.slot < 8 → slotOrdered e en.slot = false →
      armEntry e en.slot en.arm % 4 = 0 → armEntry e en.slot en.arm + 4 ≤ 0xC000 →
        ∃ u, exec (.dispatch die pos) s = .next u ∧ SameMemory s u ∧ let e' := u.elem k
          e'.runq = [] ∧ tabGet e'.store p = some { en with st := .running } ∧ e'.core.pc.toNat = armEntry e en.slot en.arm ∧
            e'.x = en.payloads ∧ e'.xt = en.tag.zeroExtend 64 ∧ (e'.xc.extractLsb' 16 3).toNat = en.slot ∧
            e'.xc.getLsbD 19 = en.arm ∧ e'.xc.getLsbD 20 = slotUrgent e en.slot ∧ e'.xc.getLsbD 21 = false ∧
            e'.xc.getLsbD 22 = en.retry ∧ e'.xc.toNat / 2 ^ 32 = min en.defcnt 0xFFFF ∧
            (∀ n : Fin 4, e'.xc.getLsbD (4 * n.val + 3) = en.present.getLsbD n.val) ∧
            e'.core.reg 0 = 0 ∧ e'.core.pred 0 = true ∧ e'.core.loops = [] ∧
            e'.fir = { Firing.idle with status := .running, place := p, slot := en.slot, tag := en.tag, retry := en.retry }) ∧
    (e.fir.status = .waitDone →
      (s.commitAccepted k (s.commitSends k) = true →
        exec (.firingCommit die pos) s = .next (s.commit k) ∧ ((s.commit k).elem k).fir = Firing.idle ∧ SameMemory s (s.commit k)) ∧
      (s.commitAccepted k (s.commitSends k) = false → exec (.firingCommit die pos) s = .next s)) ∧
    (e.fir.status = .stalled →
      exec (.streamReadResume die pos) s = .next (s.setElem k { e with fir := { e.fir with status := .running } }))

/-- Tokens and matching (02 R36 to R39, R56, R58; 09 R271). A data token at the head of a flume queue moves into an empty
port queue of the element that it backs. A packet that has reached its target delivers its data token to the end of the
queue of an unordered channel with nothing spilled. The token at the head of the matching port whose turn it is opens an
entry of its tag, in the least free place, where its actor is not ordered, has no entry of that tag and has room. A retire
token of the one outstanding iteration of a context advances that context's window past it. A free notice that has arrived
makes the entry parked for its value READY, last in order. The sluice grants a free value to its oldest request, once that
has arrived, and the requester holds it. That the entry opens in the least of the free places is the model's choice (log 90),
and so is that the sluice serves its oldest request first (log 91). -/
def Obligations.TokenEvents : Prop :=
  (∀ (s : State) d colour c t rest, d.kind = .element → let k := elemKey d.die d.pos
    let e := s.elem k
    s.chanAt d colour (some e.load) = some c → c.queue = t :: rest → c.stuck = false → t.kind = .data → e.configured = true →
    e.cut ≠ .saved → e.colour = colour → portMode e d.din ≠ .unbound → d.din < 8 → portQueue e d.din = [] →
    s.portEnded k d.din = false →
      ∃ u, exec (.tokenArrival (.release d colour)) s = .next u ∧ portQueue (u.elem k) d.din = [t] ∧
        (u.chanAt d colour (some e.load)).map Chan.queue = some c.pop.queue ∧ SameMemory s u) ∧
  (∀ (s : State) i p c t, s.packets[i]? = some p → p.here = p.target → p.via = none → p.cargo = .token t → t.kind = .data →
    s.chanAt p.dest p.colour p.load = some c → c.kind ≠ .ordered → c.spilled = [] →
      ∃ u, exec (.tokenArrival (.packet i)) s = .next u ∧ u.packets = s.packets.eraseIdx i ∧
        (u.chanAt p.dest p.colour p.load).map Chan.queue = some (c.queue ++ [t])) ∧
  (∀ (s : State) die pos h p, let k := elemKey die pos
    let e := s.elem k
    e.configured = true → e.cut ≠ .saved → e.rr < 8 → portMode e e.rr = .matching → portQueue e e.rr = [h] → h.kind = .data →
    slotOrdered e (portSlot e e.rr) = false → (∀ x ∈ e.store, ¬(x.2.slot = portSlot e e.rr ∧ x.2.tag = h.tag)) →
    (e.store.filter fun x => x.2.slot = portSlot e e.rr).length < quotaOf e (portSlot e e.rr) →
    p < 64 → tabGet e.store p = none → (∀ j, j < p → tabGet e.store j ≠ none) →
      ∃ u en, exec (.matchToken die pos) s = .next u ∧ tabGet (u.elem k).store p = some en ∧ en.slot = portSlot e e.rr ∧
        en.tag = h.tag ∧ nth en.payloads.toList (portOperand e e.rr) 0 = h.payload ∧ en.present.getLsbD (portOperand e e.rr) = true ∧
        portQueue (u.elem k) e.rr = [] ∧ (u.elem k).rr = (e.rr + 1) % 8 ∧ SameMemory s u) ∧
  (∀ (s : State) die pos port t j w, let k := elemKey die pos
    let e := s.elem k
    let a := portSlot e port
    portMode e port = .ret → e.cut ≠ .saved → port < 8 → portQueue e port = [t] → t.kind = .retire → t.fin = false →
    findWin e a (t.tag.extractLsb' 18 14) = some j → tabGet e.wins (winKey a j) = some w → w.final = false →
    t.tag.extractLsb' 0 18 = w.o → w.n = w.o + 1 →
      ∃ u, exec (.retireToken die pos port) s = .next u ∧ portQueue (u.elem k) port = [] ∧
        tabGet (u.elem k).wins (winKey a j) = some { w with o := w.n }) ∧
  (∀ (s : State) i n p en, s.notices[i]? = some n → s.arrived (fun c => c = .notice n.pool n.value n.elem) = true →
    (s.elem n.elem).store = [(p, en)] → en.st = .parked → en.park = .context n.pool n.value →
    (∀ (a : Fin 8) w r, (s.elem n.elem).ends[a] ≠ .parked w r) →
      ∃ u, exec (.freeNotice i) s = .next u ∧ u.notices = s.notices.eraseIdx i ∧
        (u.elem n.elem).store = [(p, { en with st := .ready, park := .none })] ∧
        (u.elem n.elem).ready = (s.elem n.elem).ready ++ [p]) ∧
  ∀ (s : State) die pool v k rest, let pk := die * 16 + pool
    (s.pool pk).asks = (v, k) :: rest → s.arrived (fun c => c = .ask pk v k) = true → v ∉ (s.pool pk).alloc →
    (∀ h ∈ (s.pool pk).held, h.1 ≠ v) →
      ∃ u, exec (.sluiceReply die pool) s = .next u ∧ (u.pool pk).asks = rest ∧ (u.pool pk).held = (s.pool pk).held ++ [(v, k)] ∧
        (u.elem k).fir.ask = .granted v ∧ (u.elem k).fir.holds = (s.elem k).fir.holds ++ [(pk, v)]

/-- Value k of row i of tile slot n (09 Table 9-5). -/
def Sys2Proof.Statements.tileBits (m : Mem) (mf : MmaFmt) (n i k : Nat) : Nat :=
  let row := 0x9F00 + 528 * n + 64 * i
  match mf with
  | .f32 => Memory.read m (row + 4 * k) 4
  | .bf16 | .f16 => Memory.read m (row + 2 * k) 2
  | .e4m3 | .e5m2 | .int8 => (Memory.get m (row + k)).toNat
  | .e2m1 => (Memory.get m (row + k / 2)).toNat / 16 ^ (k % 2) % 16

/-- Format, K and G of the operands of MMA (03 Table 3-7). -/
def Sys2Proof.Statements.mmaShape : MmaFmt → FFormat × Nat × Nat
  | .f32 => (.fp32, 16, 8)
  | .bf16 => (.bf16, 32, 8)
  | .f16 => (.fp16, 32, 8)
  | .e4m3 => (.e4m3, 64, 32)
  | .e5m2 => (.e5m2, 64, 32)
  | .e2m1 => (.e2m1, 128, 32)
  | .int8 => (.e4m3, 64, 64)

/-- The scale of row i and group g (09 R275, R276): the slot's scale area, or for groups 2 and 3 of E2M1 the extension, whose
bytes are `ext`, A before B; 127 stands for 1 in an MMA without .sc, and 0xFF is NaN. -/
def Sys2Proof.Statements.scaleOf (m : Mem) (ext : Nat → Nat) (mf : MmaFmt) (sc isB : Bool) (n i g : Nat) : FVal :=
  let b := if sc = false then 127
    else if mf = .e2m1 ∧ 2 ≤ g then ext ((if isB then 16 else 0) + 2 * i + (g - 2))
    else (Memory.get m (0x9F00 + 528 * n + 512 + 2 * i + g)).toNat
  if b = 255 then .nan else .fin false 1 ((b : Int) - 127)

/-- An accumulator word after an MMA (03 R87, R89): group after group its exact sum of scaled products is added with one
rounding; in INT8 mode the one sum wraps. -/
def Sys2Proof.Statements.mmaResult (m : Mem) (ext : Nat → Nat) (mf : MmaFmt) (sc : Bool) (ta tb : Nat) (w : Word) (i j : Nat) :
    Word :=
  let (fm, kk, gg) := mmaShape mf
  if mf = .int8 then
    w + BitVec.ofInt 32 ((List.range 64).map fun k =>
      (Memory.get m (0x9F00 + 528 * ta + 64 * i + k)).toInt * (Memory.get m (0x9F00 + 528 * tb + 64 * j + k)).toInt).sum
  else
    (List.range (kk / gg)).foldl (fun acc g =>
      let product := fun n => (((valOf fm (tileBits m mf ta i (g * gg + n))).mul (valOf fm (tileBits m mf tb j (g * gg + n)))).mul
        (scaleOf m ext mf sc false ta i g)).mul (scaleOf m ext mf sc true tb j g)
      let sum := ((List.range gg).tail.map product).foldl FVal.add (product 0)
      BitVec.ofNat 32 (roundN .fp32 ((valOf .fp32 acc.toNat).add sum))) w

/-- A 16-byte image that MLDM accepts (03 R91). -/
def Sys2Proof.Statements.MicroValid (im : List Byte) : Prop :=
  let n := leAt im 12 1 % 8
  1 ≤ n ∧ n ≤ 4 ∧ leAt im 12 1 / 8 = 0 ∧ leAt im 13 3 = 0 ∧ ∀ j, j < n → let o := leAt im (2 * j) 2
    o / 4096 ≤ 6 ∧ o / 1024 % 4 = 0 ∧ o / 256 % 4 ≤ 1 ∧ o / 16 % 16 ≤ 4 ∧ o % 16 ≤ 4 ∧ (o / 4096 = 6 → o / 16 % 16 = 0 ∧ o % 16 = 0)

/-- One operation of a microprogram on (s, t) (03 R92, Table 3-9). -/
def Sys2Proof.Statements.microApply (o : Nat) (a b c : Word) (p : Word × Word) : Word × Word :=
  let pick := fun n => if n = 0 then a else if n = 1 then b else if n = 2 then p.1 else if n = 3 then p.2 else c
  let x := pick (o / 16 % 16)
  let y := pick (o % 16)
  let vx := valOf .fp32 x.toNat
  let vy := valOf .fp32 y.toNat
  let r : Word :=
    if o / 4096 = 0 then BitVec.ofNat 32 (roundN .fp32 (vx.add vy))
    else if o / 4096 = 1 then BitVec.ofNat 32 (roundN .fp32 (vx.sub vy))
    else if o / 4096 = 2 then BitVec.ofNat 32 (roundN .fp32 (vx.mul vy))
    else if o / 4096 = 3 then BitVec.ofNat 32 (fminmax .fp32 false x.toNat y.toNat)
    else if o / 4096 = 4 then BitVec.ofNat 32 (fminmax .fp32 true x.toNat y.toNat)
    else if o / 4096 = 5 then if floatCondition .gt (valOf .fp32 p.2.toNat) (.fin false 0 0) then x else y
    else c
  if o / 256 % 4 = 0 then (r, p.2) else (p.1, r)

/-- An accumulator word after an MSR (03 R93). -/
def Sys2Proof.Statements.msrResult (m : Mem) (im : List Byte) (ta tb : Nat) (w : Word) (i j : Nat) : Word :=
  (List.range 16).foldl (fun s k =>
    ((List.range (leAt im 12 1 % 8)).foldl (fun p n =>
      microApply (leAt im (2 * n) 2) (BitVec.ofNat 32 (tileBits m .f32 ta i k)) (BitVec.ofNat 32 (tileBits m .f32 tb j k))
        (BitVec.ofNat 32 (leAt im 8 4)) p) (s, 0)).1) w

/-- A matrix command has run: it has left the queue, accumulator acc holds the words f, the others are as before, the tile
slots in `emptied` are empty and the others as before, and no memory changes. -/
def Sys2Proof.Statements.AccumulatorSet (s u : State) (k : Nat) (rest : List MCmd) (acc : BitVec 2) (f : Nat → Word)
    (emptied : List Nat) : Prop :=
  (u.elem k).mq = rest ∧ (u.elem k).mprog = (s.elem k).mprog ∧ SameMemory s u ∧
    (∀ n : Fin 256, (u.elem k).acc[n] = if n.val / 64 = acc.toNat then f (n.val % 64) else (s.elem k).acc[n]) ∧
    ∀ n : Fin 16, (u.elem k).tiles[n] = if n.val ∈ emptied then .empty else (s.elem k).tiles[n]

/-- The engines of an element (08 R244 to R246, 09 R283 to R288): a read run reads its next element, a write run stores
its oldest waiting push, a drain stores a flit in its tile slot and at its stop makes the slot FULL, and the matrix unit
carries out the command at the head of its queue: MMA of every format, with scales and with .c, MSR, MLDM of a valid image,
MZERO, MLOADA, MSTORE, MFILL and MEMPTY. That the engines read words 240 to 255 as the element's last firing did is the
model's reading (log 38, DEDUCED). -/
def Obligations.EngineEvents : Prop :=
  ∀ (s : State) die pos (g : Fin 3), let k := elemKey die pos
    let e := s.elem k
    let x := e.gens[g]
    (x.st = .read → x.popped + x.held.length < runLength x → x.held.length < 8 →
      exec (.generatorRead die pos g) s = .next (s.setElem k (setGen e g { x with
        held := x.held ++ [BitVec.ofNat 32 (s.emRead k e.fir.slot (runAddr x (x.popped + x.held.length)).toNat 4)] }))) ∧
    (∀ v rest, x.st = .write → x.waiting = v :: rest → x.waiting.length ≤ x.pushed → x.pushed < runLength x → Memory.wf e.mem = true →
      let a := (runAddr x (x.pushed - x.waiting.length)).toNat
      ∃ u, exec (.generatorWrite die pos g) s = .next u ∧ (u.elem k).gens[g].waiting = rest ∧
        (u.elem k).gens[g].st = .write ∧ Memory.read (u.elem k).mem a 4 = v.toNat ∧
        ∀ b, b < a ∨ a + 4 ≤ b → Memory.get (u.elem k).mem b = Memory.get e.mem b) ∧
    (∀ h, x.st = .drain → portQueue e (x.drain.toNat / 256) = [h] →
      let n := (x.drain.toNat % 16 + x.t % (x.drain.toNat / 16 % 16 + 1)) % 16
      (h.kind = .data → x.f < 66 → nth e.tiles.toList n .empty ≠ .full → Memory.wf e.mem = true →
        ∃ u, exec (.drainToken die pos g) s = .next u ∧ (u.elem k).gens[g].f = x.f + 1 ∧
          nth (u.elem k).tiles.toList n .empty = .filling ∧ portQueue (u.elem k) (x.drain.toNat / 256) = [] ∧
          Memory.read (u.elem k).mem (0x9F00 + 528 * n + 8 * x.f) 8 = h.payload.toNat) ∧
      (h.kind = .stop → x.f = 64 ∨ x.f = 66 → 2 ≤ x.left → x.stopping = false →
        ∃ u, exec (.drainToken die pos g) s = .next u ∧ (u.elem k).gens[g].f = 0 ∧ (u.elem k).gens[g].t = x.t + 1 ∧
          (u.elem k).gens[g].left = x.left - 1 ∧ nth (u.elem k).tiles.toList n .empty = .full ∧
          portQueue (u.elem k) (x.drain.toNat / 256) = [])) ∧
    (∀ rest (acc : BitVec 2), e.mq = .mzero acc :: rest → ∃ u, exec (.matrixCommandExecute die pos) s = .next u ∧
      AccumulatorSet s u k rest acc (fun _ => 0) []) ∧
    (∀ rest mf sc c (acc : BitVec 2) (ta tb : BitVec 4) a, e.mq = .mma mf sc c acc ta tb a :: rest →
      e.tiles[ta.toNat]'ta.isLt = .full → e.tiles[tb.toNat]'tb.isLt = .full →
        ∃ u, exec (.matrixCommandExecute die pos) s = .next u ∧
          AccumulatorSet s u k rest acc (fun n => mmaResult e.mem (fun x => (s.emByte k e.fir.slot (a + x)).toNat) mf sc ta.toNat
            tb.toNat (nth e.acc.toList (64 * acc.toNat + n) 0) (n / 8) (n % 8)) (if c then [ta.toNat, tb.toNat] else [])) ∧
    (∀ rest c (acc : BitVec 2) (ta tb : BitVec 4) im, e.mq = .msr c acc ta tb :: rest → e.mprog = some im →
      e.tiles[ta.toNat]'ta.isLt = .full → e.tiles[tb.toNat]'tb.isLt = .full →
        ∃ u, exec (.matrixCommandExecute die pos) s = .next u ∧
          AccumulatorSet s u k rest acc (fun n => msrResult e.mem im ta.toNat tb.toNat
            (nth e.acc.toList (64 * acc.toNat + n) 0) (n / 8) (n % 8)) (if c then [ta.toNat, tb.toNat] else [])) ∧
    (∀ rest (acc : BitVec 2) a, e.mq = .mloada acc a :: rest → ∃ u, exec (.matrixCommandExecute die pos) s = .next u ∧
      AccumulatorSet s u k rest acc (fun n => BitVec.ofNat 32 (((List.range 4).map fun x =>
        (s.emByte k e.fir.slot (a + 4 * n + x)).toNat * 256 ^ x).sum)) []) ∧
    (∀ rest a, e.mq = .mldm a :: rest → let im := (List.range 16).map fun n => s.emByte k e.fir.slot (a + n)
      MicroValid im → exec (.matrixCommandExecute die pos) s = .next (s.setElem k { e with mq := rest, mprog := some im })) ∧
    (∀ rest (n : BitVec 4), e.tiles[n.toNat]'n.isLt ≠ .filling →
      (e.mq = .mfill n :: rest → exec (.matrixCommandExecute die pos) s =
        .next (s.setElem k { e with mq := rest, tiles := e.tiles.set n.toNat .full n.isLt })) ∧
      (e.mq = .mempty n :: rest → exec (.matrixCommandExecute die pos) s =
        .next (s.setElem k { e with mq := rest, tiles := e.tiles.set n.toNat .empty n.isLt }))) ∧
    ∀ rest (acc : BitVec 2) a, e.mq = .mstore acc a :: rest → Memory.wf e.mem = true →
      ∃ u, exec (.matrixCommandExecute die pos) s = .next u ∧ (u.elem k).mq = rest ∧
        (∀ n, n < 64 → Memory.read (u.elem k).mem (a + 4 * n) 4 = (nth e.acc.toList (64 * acc.toNat + n) 0).toNat) ∧
        ∀ b, b < a ∨ a + 256 ≤ b → Memory.get (u.elem k).mem b = Memory.get e.mem b

/-! ## Nodes, fabric, controllers -/

/-- Nodes (02 R32 to R34), with a credit on the outlet, outside a cut, and nothing of their inputs in the spillway: a turnout
pairs a data token with its predicate and sends it to the outlet that bit 0 names, or gives it that arm; an unordered
confluence passes the token at an input; an ordered one opens a context at iteration 0 and passes its first data token. Each
takes the tokens from its inputs. -/
def Obligations.NodeEvents : Prop :=
  ∀ (s : State) die node, let key := die * 1600 + node
    let n := s.node key
    n.configured = true → n.saved = false → n.weired = false → s.nodeWeirs die node = false →
    (∀ i c, s.nodeIn die node i = some c → c.spilled = []) →
    (∀ t p b, nodeKind n.active = .split ∨ nodeKind n.active = .arm → s.nodeHead die node 0 = some t → t.kind = .data →
      s.nodeHead die node 1 = some p → p.kind = .data → s.nodeEnded die node 0 = false → s.nodeEnded die node 1 = false →
      let bit := p.payload.getLsbD 0
      let o := if nodeKind n.active = .split then (if bit then 0 else 1) else 0
      let t' := if nodeKind n.active = .split then t else { t with arm := bit }
      s.srcBind { die := die, kind := .node, pos := node, out := o } t.colour n.load = some b → s.credit b t' = true →
        ∃ u, exec (.turnoutPair die node) s = .next u ∧ u.packets = s.packets ++ (pickDests b t').map (s.packet b t') ∧
          (u.nodeIn die node 0).map Chan.queue = (s.nodeIn die node 0).map (fun c => c.pop.queue) ∧
          (u.nodeIn die node 1).map Chan.queue = (s.nodeIn die node 1).map (fun c => c.pop.queue)) ∧
    (∀ t b i, nodeKind n.active = .unorderedConf → s.nodeHead die node i = some t →
      s.srcBind { die := die, kind := .node, pos := node, out := 0 } t.colour n.load = some b → strayStop b t = false →
      s.credit b t = true →
        ∃ u, exec (.unorderedConfluence die node i) s = .next u ∧ u.packets = s.packets ++ (pickDests b t).map (s.packet b t) ∧
          (u.nodeIn die node i).map Chan.queue = (s.nodeIn die node i).map (fun c => c.pop.queue)) ∧
    ∀ t b i, nodeKind n.active = .orderedConf → s.nodeHead die node i = some t → t.kind = .data → n.table = [] →
      1 ≤ (n.active.extractLsb' 2 7).toNat → t.tag.extractLsb' 0 18 = 0 →
      s.srcBind { die := die, kind := .node, pos := node, out := 0 } t.colour n.load = some b → s.credit b t = true →
        ∃ u, exec (.orderedConfluence die node i) s = .next u ∧ u.packets = s.packets ++ (pickDests b t).map (s.packet b t) ∧
          (u.nodeIn die node i).map Chan.queue = (s.nodeIn die node i).map (fun c => c.pop.queue) ∧
          (u.node key).table = [{ ctx := t.tag.extractLsb' 18 14, e := 1, emitted := true, ended := false, slots := [] }]

/-- The fabric (04 R98; 13 R349, R352, R355; 15 R417, R418; 18 R469). A packet moves to a router that its route allows, across
a culvert that is up or none, when the whole packet has room there and no class 0 packet goes first, and counts a refusal
otherwise; one that a failed culvert holds stays, and LINK is recorded once for its colour. After 64 refusals a packet takes
the escape sub-channel and stays in it, where it has no culvert to cross first or crosses that one first by the escape route. A flume queue that is due to spill sends a spill packet of class 2, or latches event
5 where its area is full; a spill write that arrives puts the newest token of the queue, as 16 bytes, at a free place of the
area, and changes no other byte of memory. A link that fails is marked failed at both ends, with event 11 there; one that
loses lanes is degraded, with event 11 and no fault record; a retrain is counted, and may leave the link degraded. The room
of a router is the model's own number (log 15); which routes a packet with a culvert to cross first may take, and when it may
enter the escape sub-channel, are the model's readings (log 16), and so are the 16 bytes and the place of a spilled token (log
45, DEDUCED). -/
def Obligations.FabricEvents : Prop :=
  (∀ (s : State) i p hop c, s.packets[i]? = some p → ((s.nexts p.here).find? fun x => x.1 = hop) = some (hop, c) →
    s.hopAllowed p hop c = true →
    ((∀ l, c = some l → crosses (s.link p.here.die l) = true) →
      let q := if s.routerHasRoom hop p = true ∧ s.yields p hop c = false then
          { p with here := hop, refused := 0, via := if c.isSome && c = p.via then none else p.via }
        else { p with refused := p.refused + 1 }
      exec (.packetForward i hop) s = .next { s with
        packets := match p.cargo with
          | .request _ _ _ _ _ =>
            if q.refused = 0 ∧ q.here = p.target ∧ q.via = none then s.packets.eraseIdx i ++ [q] else s.packets.set i q
          | _ => s.packets.set i q }) ∧
    ∀ l, c = some l → s.link p.here.die l = .failed → ∃ u, exec (.packetForward i hop) s = .next u ∧ u.packets = s.packets ∧
      (s.linkFaults.contains (p.here.die * 5 + l, p.colour) = true → u.levee = s.levee) ∧
      (s.linkFaults.contains (p.here.die * 5 + l, p.colour) = false → ∃ r, u.levee = s.levee ++ [r] ∧
        r.record.w0.toNat % 256 = cLink ∧ r.colour = p.colour)) ∧
  (∀ (s : State) i p, s.packets[i]? = some p → 64 ≤ p.refused → p.escape = false →
    (∀ l, p.via = some l → s.escapeCulvert p.target routerCount p.here = some l) →
    exec (.escapeSubchannel i) s = .next { s with packets := s.packets.set i { p with escape := true } }) ∧
  (∀ (s : State) d colour c failed, (s.chans.find? fun x => x.dest = d && x.colour = colour && x.queue ≠ []) = some c →
    let x := s.depthOf d.die colour c.chan c.load
    s.spillDue c = true → s.spilling d colour c.load isSpill = false →
      (s.spillPlace x (s.areaBytes x / 16) ≠ none → ∃ q, exec (.spillWrite d colour failed) s =
        .next { s with packets := s.packets ++ [q] } ∧ q.cls = 2 ∧ q.cargo = .spill failed ∧ q.dest = d ∧ q.colour = colour) ∧
      (s.spillPlace x (s.areaBytes x / 16) = none → ∃ u, exec (.spillWrite d colour failed) s = .next u ∧
        (u.ctrl d.die).latched.getLsbD 5 = true ∧ u.packets = s.packets ∧ u.chans = s.chans)) ∧
  (∀ (s : State) i p c q y t off, s.packets[i]? = some p → p.here = p.target → p.via = none → p.cargo = .spill false →
    s.chanAt p.dest p.colour p.load = some c → c.queue = q ++ [y, t] → c.spilled = [] → Memory.wf s.phys = true →
    let x := s.depthOf p.dest.die p.colour c.chan p.load
    s.spillPlace x (s.areaBytes x / 16) = some off → let pa := s.spillAddr p.dest.die off
      ∃ u, exec (.tokenArrival (.packet i)) s = .next u ∧ u.packets = s.packets.eraseIdx i ∧
        (u.chanAt p.dest p.colour p.load).map Chan.queue = some (q ++ [y]) ∧
        (u.chanAt p.dest p.colour p.load).map Chan.spilled = some [pa] ∧ Memory.read u.phys pa 16 = tokenNat t % 2 ^ 128 ∧
        ∀ a, a < pa ∨ pa + 16 ≤ a → Memory.get u.phys a = Memory.get s.phys a) ∧
  (∀ (s : State) d l, d < 64 → l < 5 → s.link d l = .inService ∨ s.link d l = .degraded →
    (∃ u, exec (.link d l) s = .next u ∧ u.link d l = .failed ∧ (u.ctrl d).latched.getLsbD 11 = true ∧
      (∀ d' l', linkPeer d l = some (d', l') → u.link d' l' = .failed ∧ (u.ctrl d').latched.getLsbD 11 = true)) ∧
    (∃ u, exec (.laneLoss d l) s = .next u ∧ u.link d l = .degraded ∧ (u.ctrl d).latched.getLsbD 11 = true ∧
      u.levee = s.levee) ∧
    (∃ u, exec (.laneRetrain d l false) s = .next u ∧ u.link d l = s.link d l ∧
      tabGet (u.tel d).retrains l = some ((tabGet (s.tel d).retrains l).getD 0 + 1)) ∧
    ∃ u, exec (.laneRetrain d l true) s = .next u ∧ u.link d l = .degraded ∧
      tabGet (u.tel d).retrains l = some ((tabGet (s.tel d).retrains l).getD 0 + 1))

/-! ## Memory actors -/

/-- A memory actor that may form and issue requests (14 R386, 15 R414, R423). -/
def Sys2Proof.Statements.maRuns (m : MemActor) : Prop :=
  m.st = .running ∧ m.weir = .none ∧ m.saved = false ∧ m.drained = true

/-- Requests (04 R99, R100, R103, R108, R110; 13 R350; 15 R412 to R414): a read actor forms the request of its run that comes
next, with the address of the pattern, and owes its response. A formed request whose pages are in the micro-TLB and in reach,
with no uncorrectable request of the actor in flight and room reserved for its answer, is issued: it is in flight, and one
packet of class 2 leaves for each 64-byte block that it touches. A miss begins a walk of its page, if the walker has room; as
the walk ends the leaf of the page is kept, or the actor stalls with XLATE at that request. A data token on start begins a
run, one on data is the next unit, one on after releases the next gated segment; each is taken from its input. The record of
a request in flight is the model's own (log 20). -/
def Obligations.MemoryActorRequests : Prop :=
  ∀ (s : State) die slot, let key := die * 64 + slot
    let m := s.ma key
    let c := maCfg m.active
    (∀ start tag i, maRuns m → m.cur = none → c.kind = .read → c.index = false → m.run = some (start, tag, i) →
      m.tlb = [] → m.skipRest = false → m.skipUnit = false → m.dropAddrs = false → s.maIn die slot 4 = none →
      (c.vbase : Int) ≤ patternVa c start.toNat i → patternVa c start.toNat i + c.unit ≤ c.vbase + c.len →
        ∃ u r, exec (.memoryRequestIssue die slot) s = .next u ∧ (u.ma key).cur = some r ∧ r.index = m.nextIdx ∧ r.tag = tag ∧
          r.va = (patternVa c start.toNat i).toNat % 2 ^ 64 ∧ (u.ma key).nextIdx = m.nextIdx + 1 ∧
          (u.ma key).resp = m.resp ++ [.req m.nextIdx] ∧
          (u.ma key).run = if i + 1 < runTotal c then some (start, tag, i + 1) else none) ∧
    (∀ r pas, maRuns m → m.cur = some r → r.skip = false → r.outOfRange = false → translateAll m c r = some pas →
      s.reaches die m c pas = true → (∀ x ∈ m.flight, x.st ≠ .uncorrectable) → s.canReserve die slot { r with pas := pas } = true →
        ∃ u l, exec (.memoryRequestIssue die slot) s = .next u ∧ (u.ma key).cur = none ∧
          (u.ma key).flight = m.flight ++ [{ r with pas := pas }] ∧ u.phys = s.phys ∧ u.packets = s.packets ++ l ∧
          l.length = (reqBlocks { r with pas := pas }).length ∧
          ∀ p ∈ l, p.cls = 2 ∧ ∃ b ∈ reqBlocks { r with pas := pas },
            p.cargo = .request die slot r.index b (requestFlits c { r with pas := pas } b)) ∧
    (∀ r, slot < 64 → maRuns m → m.cur = some r → r.skip = false → r.outOfRange = false → m.tlb = [] → m.stall = none →
      (m.walking = none → (s.walks die).length < 256 → exec (.addressTranslation die slot) s =
        .next (s.setMa key { m with walking := some (r.va % 2 ^ 57 / 65536 * 65536) })) ∧
      ∀ page, m.walking = some page → (∀ n, n < 64 → n ≠ slot → (s.ma (die * 64 + n)).walking = none) →
        (∀ l, s.walk die m.colour r.va c.kind.access = .page l → ∃ u, exec (.addressTranslation die slot) s = .next u ∧
          (u.ma key).walking = none ∧
          (u.ma key).tlb = [{ colour := m.colour, va := l.va, size := l.size, pa := l.pa, r := l.r, w := l.w, a := l.a }]) ∧
        ∀ cause lvl, s.walk die m.colour r.va c.kind.access = .xlate cause lvl →
          ∃ u x, exec (.addressTranslation die slot) s = .next u ∧ (u.ma key).st = .stalled ∧ (u.ma key).stall = some x ∧
            x.code = 0x10 ∧ x.tag = r.tag ∧ x.index = r.index) ∧
    (∀ t, m.st = .running → m.saved = false → m.drained = true → m.dropAddrs = false → m.run = none →
      s.maHead die slot 3 = some t → t.kind = .data →
        ∃ u, exec (.startToken die slot) s = .next u ∧ (u.ma key).run = some (t.payload, t.tag, 0) ∧
          (u.maIn die slot 3).map Chan.queue = (s.maIn die slot 3).map fun x => x.pop.queue) ∧
    (∀ t, m.st = .running → m.saved = false → m.weir ≠ .sent → c.kind ≠ .read → c.unit ≤ 8 → m.unit = none → m.cur = none →
      s.maHead die slot 1 = some t → t.kind = .data →
        ∃ u, exec (.writeDataToken die slot) s = .next u ∧
          (u.ma key).unit = some [BitVec.ofNat 64 (t.payload.toNat % 2 ^ (8 * c.unit))] ∧
          (u.maIn die slot 1).map Chan.queue = (s.maIn die slot 1).map fun x => x.pop.queue) ∧
    ∀ t, m.st ≠ .unconfigured → m.saved = false → s.maHead die slot 4 = some t → t.kind = .data →
      ∃ u, exec (.afterToken die slot) s = .next u ∧ (u.ma key).after = m.after + 1 ∧
        (u.maIn die slot 4).map Chan.queue = (s.maIn die slot 4).map fun x => x.pop.queue

/-- Requests performed and answered (04 R105 to R114, R124): where the request packet of the last granule of the one request
in flight stands at its home, that granule is performed: the bytes of the unit at its address are read, written, or read and
replaced by the sum, the new value or the compare-and-swap of Table 4-6, and no other byte changes; a packet of class 1 goes
back. The next token of a response leaves on resp with a credit. A performed store whose answers have come back is
acknowledged and leaves the list. A closed segment whose stores are all acknowledged sends its completion, with the number of
its units and its tag, on done. The record of a request in flight is the model's own (log 20). -/
def Obligations.MemoryActorResults : Prop :=
  ∀ (s : State) die slot, let key := die * 64 + slot
    let m := s.ma key
    let c := maCfg m.active
    (∀ r pa, m.flight = [r] → r.st = .issued → r.left = [0] → r.pas = [pa] → c.unit ≤ 8 → paSpace pa ≠ 2 →
      s.bad.contains (pa / 8) = false → Memory.wf s.phys = true → s.requestHome die slot r.index (pa / 64) = true →
      s.behindAtomic die slot r 0 = false → s.answerRoom die slot r 0 = true →
        let old := Memory.read (s.granuleMem pa) pa c.unit
        let v := (nth r.data 0 0).toNat % 2 ^ (8 * c.unit)
        ∃ u r' q, exec (.memoryPerform die slot r.index 0) s = .next u ∧ (u.ma key).flight = [r'] ∧ r'.st = .performed ∧
          r'.left = [] ∧ (∀ a, a < pa ∨ pa + c.unit ≤ a → Memory.get u.phys a = Memory.get s.phys a) ∧
          (c.kind = .read → u.phys = s.phys ∧ r'.got = r.got ++ [(0, BitVec.ofNat 64 old)]) ∧
          (inRetire pa = true → u.phys = s.phys) ∧
          (inRetire pa = false → c.kind = .write → Memory.read u.phys pa c.unit = v) ∧
          (c.kind = .atomic → r'.got = r.got ++ [(0, BitVec.ofNat 64 old)]) ∧
          (inRetire pa = false → c.kind = .atomic →
            (c.op = .add → Memory.read u.phys pa c.unit = (old + (nth r.data 0 0).toNat) % 2 ^ (8 * c.unit)) ∧
            (c.op = .swap → Memory.read u.phys pa c.unit = v) ∧
            (c.op = .cas → Memory.read u.phys pa c.unit = if old = r.cmp.toNat % 2 ^ (8 * c.unit) then v else old)) ∧
          u.packets = s.packets.filter (fun p => !isBlockRequest die slot r.index (pa / 64) p.cargo) ++ [q] ∧ q.cls = 1 ∧
          ∃ n, q.cargo = .response die slot r.index (pa / 64) n) ∧
    (∀ t rest b, m.st ≠ .unconfigured → m.saved = false → m.weir ≠ .sent → m.out = t :: rest → t.colour = m.colour →
      s.srcBind { die := die, kind := .memActor, pos := slot, out := 0 } m.colour m.load = some b → strayStop b t = false →
      s.credit b t = true →
        ∃ u, exec (.memoryResponse die slot) s = .next u ∧ (u.ma key).out = rest ∧
          u.packets = s.packets ++ (pickDests b t).map (s.packet b t)) ∧
    (∀ r, m.flight = [r] → c.kind ≠ .read → r.acked = false → r.st = .performed → m.resp = [] →
      s.answered die slot r.index = true →
        ∃ u, exec (.storeAcknowledgement die slot r.index) s = .next u ∧ (u.ma key).flight = [] ∧ u.phys = s.phys) ∧
    ∀ x rest b tag, m.st ≠ .unconfigured → m.saved = false → m.weir ≠ .sent → m.segs = x :: rest → x.closed = some tag →
      (∀ r ∈ m.flight, r.seg = x.num → r.acked = true) → m.cur = none →
      s.srcBind { die := die, kind := .memActor, pos := slot, out := 1 } m.colour m.load = some b →
      s.credit b (maToken m.colour (BitVec.ofNat 64 x.units) tag) = true →
        ∃ u, exec (.completionSegment die slot) s = .next u ∧ (u.ma key).segs = rest ∧
          u.packets = s.packets ++ (pickDests b (maToken m.colour (BitVec.ofNat 64 x.units) tag)).map
            (s.packet b (maToken m.colour (BitVec.ofNat 64 x.units) tag))

/-! ## Faults, controllers, launches -/

/-- Fault records and repairs (06 R186; 15 R402 to R406, R409). The record of a die that is due for mailbox 0 enters it when
it has room, and is then an open fault of the host's list. A fault token that is due leaves on the fault channel of the load in which the
fault arose, with a credit: a data token with the handle and the tag of its record. A request of the repair channel, of kind RESUME for an
element of a live die, becomes a repair token. A repair token of kind RESUME that reaches a FAULTED entry of a tagged actor,
with all its operands, between firings, makes it READY with retry set. A word that is no instruction aborts the firing that
would execute it, below its step limit, with the code of its fetch fault. -/
def Obligations.FaultEvents : Prop :=
  (∀ (s : State) die x, s.levee = [x] → x.die = die → x.toBox = true → x.toChannel = false → (s.box die 0).length < 256 →
    ∃ u, exec (.faultRecordDelivery die) s = .next u ∧ u.box die 0 = s.box die 0 ++ [x.record] ∧ u.levee = [] ∧
      ∃ f, u.hw.faultsOpen = s.hw.faultsOpen ++ [f] ∧ f.record = x.record ∧ f.die = die ∧ f.colour = x.colour) ∧
  (∀ (s : State) die x b, s.levee = [x] → x.die = die → x.toBox = false → x.toChannel = true →
    s.faultChannel x.colour x.load = some b → s.srcBind b.source x.colour x.load = some b →
    s.credit b (faultTokenOf x.colour x.record) = true →
      ∃ u t, exec (.faultToken die) s = .next u ∧ u.levee = [] ∧ u.packets = s.packets ++ (pickDests b t).map (s.packet b t) ∧
        t.kind = .data ∧ t.colour = x.colour ∧ t.tag = x.record.w2.extractLsb' 32 32 ∧
        t.payload.extractLsb' 0 8 = x.record.w0.extractLsb' 0 8 ∧ t.payload.extractLsb' 32 32 = x.record.w0.extractLsb' 32 32) ∧
  (∀ (s : State) colour c t rest d, (s.chans.find? fun x => x.colour = colour && s.isRepair x && x.queue ≠ []) = some c →
    s.chanAt c.dest c.colour c.load = some c → c.queue = t :: rest → c.stuck = false → t.kind = .data →
    (s.out (c.dest.die * 16 + c.dest.pos)).subst = none → t.payload.toNat < 2 ^ 31 → t.payload.toNat / 2 ^ 14 % 2 = 0 →
    t.payload.toNat / 2 ^ 15 % 8192 < 6400 → s.dieOf (t.payload.toNat / 2 ^ 8 % 64) = some d →
      ∃ u, exec (.repairRequest colour) s = .next u ∧ u.repairs = s.repairs ++ [{
        dest := d * 6400 + t.payload.toNat / 2 ^ 15 % 8192, isMa := false, slot := t.payload.toNat / 2 ^ 28 % 8, tag := t.tag,
        kind := 0, subst := 0, colour := colour }] ∧
        (u.chanAt c.dest c.colour c.load).map Chan.queue = some c.pop.queue) ∧
  (∀ (s : State) r p en, s.repairs = [r] → r.isMa = false → r.kind = 0 → let e := s.elem r.dest
    e.fir.status = .idle → e.colour = r.colour → e.configured = true → e.cut ≠ .saved →
    findEntry e r.slot r.tag = some (p, en) → en.st = .faulted → en.present = requiredMask e en.slot → tabGet e.store p = some en →
    slotOrdered e en.slot = false →
      ∃ u, exec (.repairToken 0) s = .next u ∧ u.repairs = [] ∧ SameMemory s u ∧ (u.elem r.dest).ready = e.ready ++ [p] ∧
        tabGet (u.elem r.dest).store p = some { en with st := .ready, retry := true }) ∧
  ∀ (s : State) d p code, s.focus = .element d p → let f := (s.elem (elemKey d p)).fir
    f.status = .running ∨ f.status = .stalled → f.counted = true ∨ f.steps < stepLimitOf (s.elem (elemKey d p)) f.slot →
    s.fetch = .error code → code < 256 →
    ∃ u, exec .nonInstruction s = .next u ∧ Aborted s u (elemKey d p) code

/-- What reaches a controller (14 R361, R366, R369): the cycles pass in which lcnt reaches tcmp, with event 3, and qcnt counts
the same cycles; or those in which qcnt reaches quantum, with event 6, and lcnt counts them, where no launch waits for a
region or the die is not L0. A record waiting in another controller's mailbox 3 enters mailbox 1 of the die that it names, and
one at an outfall mailbox 4, when there is room. A die that an invalidation of XINV has reached, and that has no request left
of an earlier one, acknowledges it, with no entry in its scope left in the micro-TLBs of its memory actors. -/
def Obligations.ControllerEvents : Prop :=
  (∀ (s : State) die, let c := s.ctrl die
    c.lcnt ≠ c.tcmp → ∃ u, exec (.timer die) s = .next u ∧ (u.ctrl die).lcnt = c.tcmp ∧
      (u.ctrl die).qcnt = c.qcnt + (c.tcmp - c.lcnt) ∧ (u.ctrl die).latched.getLsbD 3 = true ∧
      (∀ n, n ≠ 3 → n ≠ 6 → (u.ctrl die).latched.getLsbD n = c.latched.getLsbD n) ∧ u.elems = s.elems) ∧
  (∀ (s : State) die, let c := s.ctrl die
    s.dieOf 0 ≠ some die ∨ (∀ l ∈ s.launches, waits l = false) → c.qcnt ≠ c.quantum →
      ∃ u, exec (.quantum die) s = .next u ∧ (u.ctrl die).qcnt = c.quantum ∧
        (u.ctrl die).lcnt = c.lcnt + (c.quantum - c.qcnt) ∧ (u.ctrl die).latched.getLsbD 6 = true ∧
        (∀ n, n ≠ 3 → n ≠ 6 → (u.ctrl die).latched.getLsbD n = c.latched.getLsbD n) ∧ u.elems = s.elems ∧
        u.launches = s.launches) ∧
  (∀ (s : State) die src r rest, src < 64 → s.box src 3 = r :: rest → s.dieOf (r.w0.toNat % 64) = some die →
    (s.box die 1).length < 64 → ∃ u, exec (.mailboxDelivery die 1 src) s = .next u ∧ u.box die 1 = s.box die 1 ++ [r] ∧
      u.box src 3 = rest) ∧
  (∀ (s : State) die src r, src < 16 → (s.out (die * 16 + src)).message = some r → (s.box die 4).length < 64 →
    ∃ u, exec (.mailboxDelivery die 4 src) s = .next u ∧ u.box die 4 = s.box die 4 ++ [r] ∧
      (u.out (die * 16 + src)).message = none) ∧
  ∀ (s : State) die acker i, (s.ctrl die).inval = some i → acker ∈ i.waiting →
    s.arrived (fun c => c = .inval die acker) = true → s.staleOn acker = false →
      ∃ u, exec (.xinvAcknowledged die acker) s = .next u ∧ (u.ctrl die).inval = some { i with waiting := i.waiting.erase acker } ∧
        ∀ n, n < 64 → ∀ t ∈ (u.ma (acker * 64 + n)).tlb, inScope i t = false

/-- Headgates and streams (13 R326 to R328; 16 R443): a descriptor of an open launch takes an idle headgate, which streams if
its load is resident there and holds otherwise. The next token that the host has sent is held by a holding headgate with room,
and by a streaming one that holds nothing enters its channel with a credit; behind EOS the headgate is idle. Held tokens of a
streaming headgate leave in arrival order. A stop for a channel that is not ordered goes no further, which is the model's
choice (log 69). The scheduler and the loader (13 R330 to R332, R335, R337): a waiting launch whose rectangle may be granted,
whose first load can be placed and finds room in the spillways, and which no launch ahead of it could take plots from, is
granted it: it has the rectangle and its dies, and every plot of the rectangle on them is its colour's. A granted launch whose
plan fits, in a region that is quiet, is written and active under that plan; the load that follows an active one is staged,
and its staging closed on every die. All of it needs the loader's controller running (14 R360). The order of waiting launches
is the model's reading (log 59). -/
def Obligations.HeadgatesAndScheduler : Prop :=
  ((∀ (s : State) i d l, s.hw.descs[i]? = some d → s.launch d.colour = some l → l.lid = d.lid → l.st ≠ .finishing →
    (s.head d.gate).st = .idle →
      ∃ u, exec (.headgateDescriptor i) s = .next u ∧ u.hw.descs = s.hw.descs.eraseIdx i ∧
        (u.head d.gate).colour = some d.colour ∧ (u.head d.gate).lid = d.lid ∧
        (u.head d.gate).st = if s.resident l d.gate then .streaming else .holding) ∧
  (∀ (s : State) die gate t rest, let key := die * 16 + gate
    (s.head key).fresh = t :: rest →
    ((s.head key).st = .holding → (s.head key).held.length < 64 →
      ∃ u, exec (.headgateToken die gate) s = .next u ∧ (u.head key).held = (s.head key).held ++ [t] ∧ (u.head key).fresh = rest) ∧
    ∀ b, (s.head key).st = .streaming → (s.head key).colour = some t.colour → (s.head key).held = [] →
      s.srcBind (headSource key) t.colour (s.sourceLoad (headSource key) t.colour) = some b →
        (strayStop b t = false → s.credit b t = true →
          ∃ u, exec (.headgateToken die gate) s = .next u ∧ (u.head key).fresh = rest ∧
            u.packets = s.packets ++ (pickDests b t).map (s.packet b t) ∧
            (u.head key).st = if t.kind = .eos then .idle else .streaming) ∧
        (strayStop b t = true → ∃ u, exec (.headgateToken die gate) s = .next u ∧ (u.head key).fresh = rest ∧
          u.packets = s.packets ∧ (u.head key).st = .streaming)) ∧
  ∀ (s : State) die gate t rest l b, let key := die * 16 + gate
    s.gateLaunch key = some l → (s.head key).st = .streaming → (s.head key).held = t :: rest → t.colour = l.colour →
    s.srcBind (headSource key) l.colour (s.sourceLoad (headSource key) l.colour) = some b → strayStop b t = false →
    s.credit b t = true →
      ∃ u, exec (.heldTokenRelease die gate) s = .next u ∧ (u.head key).held = rest ∧
        u.packets = s.packets ++ (pickDests b t).map (s.packet b t)) ∧
  ((∀ (s : State) colour rect plan l, s.launch colour = some l → waits l = true → l.st = .waiting → s.rectSuits l rect = true →
    s.rectChosen l rect = true → s.grantable l rect = true → s.behind l rect = false →
    let dies := s.rectDies rect l.die0
    s.planGood (s.imageOf colour) colour (l.load % 64) rect dies plan = true →
    s.spillRoom (s.imageOf colour) (l.load % 64) dies plan = true → s.loaderRuns = true →
      ∃ u, exec (.regionSchedule colour rect plan) s = .next u ∧ u.launch colour = some { l with rect := some rect, dies := dies } ∧
        u.elems = s.elems ∧ ∀ d ∈ dies, ∀ p, p < 400 → rectHolds rect d p = true → (u.plot (d * 400 + p)).colour = some colour) ∧
  (∀ (s : State) colour plan l rect, s.launch colour = some l → l.st = .waiting → l.rect = some rect →
    let b := s.imageOf colour
    s.fit l b (l.load % 64) plan = .good → s.regionQuiet l = true → s.regionStill l = true → s.poolsRoom b l.dies = true →
    s.imageBad l = false → s.loaderRuns = true →
      ∃ u, exec (.loaderWake colour plan) s = .next u ∧ u = s.writeLaunch l b plan ∧
        u.launch colour = some { l with st := .active, plan := plan, absent := false }) ∧
  ∀ (s : State) colour plan l n, s.launch colour = some l → l.st = .active → (∀ d ∈ l.dies, s.armedAt d colour = false) →
    let b := s.imageOf colour
    nextLoad l (imgLoads b) = some (some n) → s.stagedAll l (nextKey l n) = false → s.switching l (nextKey l n) = false →
    s.fit l b n plan = .good → s.imageBad l = false → s.loaderRuns = true →
      ∃ u, exec (.loaderWake colour plan) s = .next u ∧ u = s.stageLoad l b n plan ∧
        ∀ d ∈ l.dies, (u.staging d colour).isOpen = false ∧ (u.staging d colour).closed = true)

/-- From one load to the next (13 R336 to R342). The first data token of the control channel selects the load that follows,
none, or a bad number. An element whose actors have all ended, in an armed switch, sends a switch token to every consumer of
an output that feeds the element itself, behind its EOS, with a credit; on any other output it sends none before it switches. An element without
an active bank takes its staged one once its units are quiet; one with an active bank that may switch takes it, and its
endpoints of the old load are gone. Once every memory actor of the old load has drained,
outside a cut, the drained notice leaves on class 0; when it has arrived it raises event 7 and is recorded. A complete load
goes on to the load whose switch has begun; with no successor it finishes its launch with status 0, and with a bad selection
with status 3, but where a fault that holds nothing is in force it stays. A finishing launch whose outfalls are empty has its
completion message, with its status, load, lid and generation, at its outfall, and is open no more. That an element
appends the switch tokens of an output which feeds it before it switches is the model's reading (log 40), and so is the sender
of a drained notice (log 41). -/
def Obligations.LoadEvents : Prop :=
  (∀ (s : State) colour c t rest, (s.chans.find? fun x => x.colour = colour && x.load = some (s.activeLoad colour) &&
      s.isControl x && x.queue ≠ []) = some c → c.queue = t :: rest → c.stuck = false → t.kind = .data →
    (s.out (c.dest.die * 16 + c.dest.pos)).selected = none → s.launch colour ≠ none → let v := t.payload.toNat % 65536
      ∃ u, exec (.loadSelect colour) s = .next u ∧ (u.out (c.dest.die * 16 + c.dest.pos)).selected = some v ∧
        (u.launch colour).map Launch.select = some (if v < imgLoads (s.imageOf colour) then .next v
          else if v = 0xFFFF then .none else .bad)) ∧
  (∀ (s : State) die pos o colour b, let e := s.elem (elemKey die pos)
    let src : Source := { die := die, kind := .element, pos := pos, out := o }
    let t := markerToken .switch colour
    e.colour = colour → e.cut = .open → e.configured = true → e.fir.status = .idle → s.lateSwitch src colour = none →
    (∀ n, n < 8 → n ∈ validSlots e.active → nth e.ends.toList n .active = .ended) →
    s.srcBind src colour e.load = some b → b.closed = true → b.switched = false → b.weired = false →
    (s.staging die colour).armed = true → s.credit b t = true →
      (s.feedsItself (elemKey die pos) o = true →
        ∃ u, exec (.switchToken src colour) s = .next u ∧ u.packets = s.packets ++ b.dests.map (s.packet b t) ∧
          (u.srcBind src colour e.load).map Bind.switched = some true) ∧
      (s.feedsItself (elemKey die pos) o = false → exec (.switchToken src colour) s = .next s)) ∧
  (∀ (s : State) die pos colour, let k := elemKey die pos
    let e := s.elem k
    pos < 6400 → e.armed = true → e.configured = false → e.cut = .open → unitsQuiet e = true → (s.plot (die * 400 + pos / 16)).colour = some colour →
    (s.staging die colour).armed = true → validSlots e.staged ≠ [] → s.bad = [] →
      ∃ u, exec (.elementSwitch die pos) s = .next u ∧ (u.elem k).configured = true ∧ (u.elem k).active = e.staged ∧
        (u.elem k).colour = colour ∧ (u.elem k).load = (s.staging die colour).load ∧ u.phys = s.phys) ∧
  (∀ (s : State) die pos, let k := elemKey die pos
    let e := s.elem k
    pos < 6400 → e.configured = true → s.mayElementSwitch k = true → validSlots e.staged ≠ [] → s.bad = [] →
      ∃ u, exec (.elementSwitch die pos) s = .next u ∧ (u.elem k).configured = true ∧ (u.elem k).active = e.staged ∧
        (u.elem k).colour = e.colour ∧ (u.elem k).load = (s.staging die e.colour).load ∧ u.phys = s.phys ∧
        ∀ c ∈ u.chans, ¬(c.colour = e.colour ∧ c.load = some e.load ∧ c.dest.kind = .element ∧ c.dest.die = die ∧ c.dest.pos = pos)) ∧
  (∀ (s : State) die colour l n, s.launch colour = some l → s.noticeLoad die colour = some n →
    (s.packets.find? (isNotice die colour) = none → s.drainedAll l n = true → (∀ d ∈ l.dies, (s.staging d colour).weir = false) →
      (n ∉ (s.staging die colour).drained ∨ s.waitingSlots die colour ≠ []) → s.firmwareRuns (l.dies.headD l.die0) = true →
        ∃ q, exec (.drainedNotice die colour) s = .next { s with packets := s.packets ++ [q] } ∧ q.cls = 0 ∧
          q.cargo = .drained die colour ∧ q.colour = 0) ∧
    ∀ q, s.packets.find? (isNotice die colour) = some q → q.here = q.target → q.via = none →
      ∃ u, exec (.drainedNotice die colour) s = .next u ∧ (u.ctrl die).latched.getLsbD 7 = true ∧
        n ∈ (u.staging die colour).drained) ∧
  (∀ (s : State) colour l, s.launch colour = some l → l.st = .active → s.loaderRuns = true → l.absent = false →
    s.faultChannel colour l.load = none → s.loadDone l = true →
    (∀ n, nextLoad l (imgLoads (s.imageOf colour)) = some (some n) → s.switching l (nextKey l n) = true →
      ∃ u, exec (.loadComplete colour) s = .next u ∧
        u.launch colour = some { l with load := nextKey l n, select := .default, plan := l.nextPlan } ∧ u.elems = s.elems) ∧
    (∀ n, nextLoad l (imgLoads (s.imageOf colour)) = n → (n = none ∨ n = some none) →
      (s.faultInForce colour = false → ∃ u, exec (.loadComplete colour) s = .next u ∧
        u.launch colour = some { l with st := .finishing, status := if n = none then 3 else 0, detail := (0, 0) } ∧
        u.elems = s.elems) ∧
      (s.faultInForce colour = true → exec (.loadComplete colour) s = .next s))) ∧
  ∀ (s : State) colour l, s.launch colour = some l → l.st = .finishing → l.status ≠ 2 → s.outfallsEmpty colour = true →
    let key := nth l.dies l.cdie (l.woke.getD l.die0) * 16 + l.cof
    (s.out key).message = none →
      ∃ u r, exec (.completionMessage colour) s = .next u ∧ (u.out key).message = some r ∧ u.launch colour = none ∧
        r.w0 = l.detail.1 ∧ r.w1 = l.detail.2 ∧ r.w3.toNat = (l.lid.toNat * 2 ^ 32 + l.gen) % 2 ^ 64 ∧
        r.w2.toNat = (colour * 2 ^ 60 + l.load % 64 * 2 ^ 54 + l.status % 256 * 2 ^ 40) % 2 ^ 64

/-! ## Stream commands -/

/-- A command of a ticket that may be performed now: issued, arrived at its die, none before it to its die unperformed,
reserved bits zero, a live die (14 R372, R374). -/
def Sys2Proof.Statements.Issued (s : State) (die ticket : Nat) (c : Cmd) (d : Nat) : Prop :=
  (∃ t, s.ticket die ticket = some t ∧ t.phase = .issued ∧ c = cmdOf die t ∧ s.heldUp die t c = false) ∧
    s.arrived (isCommand die ticket) = true ∧ c.rsv = 0 ∧ s.dieOf c.ldie = some d

/-- The state in which a command that has arrived is performed: its packet is consumed. -/
def Sys2Proof.Statements.taken (s : State) (die ticket : Nat) : State := s.consume (isCommand die ticket)

/-- An event performs a command and posts its completion word with status 0 and a value, in a state that meets P. -/
def Sys2Proof.Statements.Completes (i : Instr) (s : State) (die ticket : Nat) (c : Cmd) (value : Nat) (P : State → Prop) : Prop :=
  ∃ u, exec i s = .next (u.finish die ticket c.code 0 value) ∧ P u

/-- An event performs a command on some places, whose completion word is posted later, with a value. -/
def Sys2Proof.Statements.Performs (i : Instr) (s : State) (die ticket : Nat) (value : Nat) (ps : List Nat) (P : State → Prop) :
    Prop :=
  ∃ u, exec i s = .next (u.setPhase die ticket (.performed value ps)) ∧ P u

/-- No REBAL.MOVE of a colour is under way (13 R347). -/
def Sys2Proof.Statements.NoMoves (s : State) (colour : Nat) : Prop := ∀ x ∈ s.moves, x.2.1 ≠ colour

/-- Elements of a die other than those at some positions, and everything in HBM, are as before. -/
def Sys2Proof.Statements.OnlyElems (s u : State) (d : Nat) (ps : List Nat) : Prop :=
  (∀ k, (∀ p ∈ ps, k ≠ elemKey d p) → u.elem k = s.elem k) ∧ u.mas = s.mas ∧ u.phys = s.phys ∧ u.ctrls = s.ctrls

/-- Nodes of a die other than those at some positions, elements and HBM are as before. -/
def Sys2Proof.Statements.OnlyNodes (s u : State) (d : Nat) (ns : List Nat) : Prop :=
  (∀ k, (∀ n ∈ ns, k ≠ nodeKey d n) → u.node k = s.node k) ∧ u.elems = s.elems ∧ u.phys = s.phys ∧ u.ctrls = s.ctrls

/-- The event that performs a command (Table 14-7): a command of a reserved code is answered by STREAM_COMMAND_COMPLETE. -/
def Sys2Proof.Statements.commandFor (die ticket : Nat) (c : Cmd) : Instr :=
  match c.code with
  | 0x01 =>
    match cfgDest c with
    | 0 => .cfgWriteElementMemory die ticket
    | 1 => .cfgWriteStagedBlock die ticket
    | 2 => .cfgWriteActiveBlock die ticket
    | 3 => .cfgWriteStagingArea die ticket
    | 4 => .cfgWriteStagedNode die ticket
    | 5 => .cfgWriteActiveNode die ticket
    | _ => .streamCommandComplete die ticket
  | 0x02 => if c.fl % 2 = 0 then .cfgBankImage die ticket else .cfgBankConstants die ticket
  | 0x03 => if c.fl % 2 = 0 then .loadStageOpen die ticket else .loadStageClose die ticket
  | 0x04 => .loadCommit die ticket
  | 0x05 => .loadAbort die ticket
  | 0x06 => .loadSwitch die ticket
  | 0x07 => .regionGrant die ticket
  | 0x08 => .regionFree die ticket
  | 0x09 => .maSet die ticket
  | 0x0A => .maStart die ticket
  | 0x0B => if c.fl % 2 = 0 then .maResumeHalt die ticket else .maResumeFault die ticket
  | 0x0C => .maHalt die ticket
  | 0x0D => .chanBind die ticket
  | 0x0E => .chanDepth die ticket
  | 0x0F => .inject die ticket
  | 0x10 =>
    match c.arg / 8 % 8 with
    | 0 => .repairResume die ticket
    | 1 => .repairSkip die ticket
    | 2 => .repairSubst die ticket
    | 3 => .repairAbort die ticket
    | _ => .streamCommandComplete die ticket
  | 0x11 => .weir die ticket
  | 0x12 => .colourRead die ticket
  | 0x13 => .stateSave die ticket
  | 0x14 => .stateLoad die ticket
  | 0x15 => if c.fl % 2 = 0 then .sluiceSet die ticket else .sluiceClear die ticket
  | 0x16 => .rebalMove die ticket
  | 0x17 => .plotClock die ticket
  | 0x18 =>
    match c.fl % 4 with
    | 0 => .genMarkHold die ticket
    | 1 => .genMarkRelease die ticket
    | 2 => .genMarkQuery die ticket
    | _ => .streamCommandComplete die ticket
  | 0x19 => .xlateRoot die ticket
  | _ => .streamCommandComplete die ticket

/-- CFG.WRITE and CFG.BANK (14 R377 to R379): bytes go to every element that the command names, to its staged block while
the staging is open and to its memory and its active block while it is unconfigured; node configurations likewise; the
staging area is memory of the die; descriptors are set while the staging is open. The value of a CFG.WRITE is the bytes
written. That the reserved bits of a block read as zero however they are written is the model's reading (log 75). -/
def Obligations.ConfigurationCommands : Prop :=
  ∀ (s : State) die ticket c d, Issued s die ticket c d →
    (cfgOk c = true → c.code = 1 → ∀ b, s.cfgBytes c d = .inl b →
      (∀ ps, s.elemTargets d c = .places ps →
        (cfgDest c = 0 → c.arg % 8 = 0 → c.arg + cfgLen c ≤ emEnd → (∀ p ∈ ps, (s.elem (elemKey d p)).configured = false) →
          Completes (.cfgWriteElementMemory die ticket) s die ticket c (cfgLen c * ps.length) fun u =>
            OnlyElems s u d ps ∧ ∀ p ∈ ps, (u.elem (elemKey d p)).mem = Memory.writeBytes (s.elem (elemKey d p)).mem c.arg b ∧
              (u.elem (elemKey d p)).active = (s.elem (elemKey d p)).active) ∧
        (cfgDest c = 1 → c.arg + cfgLen c ≤ 512 → (s.staging d c.colour).isOpen = true →
          Completes (.cfgWriteStagedBlock die ticket) s die ticket c (cfgLen c * ps.length) fun u =>
            OnlyElems s u d ps ∧ ∀ p ∈ ps, u.elem (elemKey d p) =
              { s.elem (elemKey d p) with staged := writeBlock (s.elem (elemKey d p)).staged c.arg b }) ∧
        (cfgDest c = 2 → c.arg + cfgLen c ≤ 512 → (∀ p ∈ ps, (s.elem (elemKey d p)).configured = false) →
          Completes (.cfgWriteActiveBlock die ticket) s die ticket c (cfgLen c * ps.length) fun u =>
            OnlyElems s u d ps ∧ ∀ p ∈ ps, u.elem (elemKey d p) =
              { s.elem (elemKey d p) with
                active := writeBlock (s.elem (elemKey d p)).active c.arg b, colour := c.colour })) ∧
      (cfgDest c = 3 → c.arg * 4096 + cfgLen c ≤ 2 ^ 28 →
        Completes (.cfgWriteStagingArea die ticket) s die ticket c (cfgLen c) fun u =>
          u.phys = Memory.writeBytes s.phys (s.control d (c.arg * 4096)) b ∧ u.elems = s.elems ∧ u.nodes = s.nodes) ∧
      ∀ ns, s.nodeTargets d c = .places ns → c.arg = 0 → cfgLen c = 8 → (nodeWord b).toNat < 2 ^ 9 →
        (cfgDest c = 4 → (s.staging d c.colour).isOpen = true →
          Completes (.cfgWriteStagedNode die ticket) s die ticket c (8 * ns.length) fun u =>
            OnlyNodes s u d ns ∧ ∀ n ∈ ns, (u.node (nodeKey d n)).staged = nodeWord b ∧ (u.node (nodeKey d n)).stagedValid = true ∧
              (u.node (nodeKey d n)).active = (s.node (nodeKey d n)).active) ∧
        (cfgDest c = 5 → (∀ n ∈ ns, (s.node (nodeKey d n)).configured = false) →
          Completes (.cfgWriteActiveNode die ticket) s die ticket c (8 * ns.length) fun u =>
            OnlyNodes s u d ns ∧ ∀ n ∈ ns, (u.node (nodeKey d n)).active = nodeWord b ∧
              (u.node (nodeKey d n)).staged = (s.node (nodeKey d n)).staged)) ∧
    ∀ ps, c.code = 2 → c.arg = 0 → s.elemTargets d c = .places ps → (s.staging d c.colour).isOpen = true →
      (∀ off n, c.fl = 0 → c.opd = n * 2 ^ 32 + off → off % 64 = 0 → n % 8 = 0 → n ≤ 39680 → off + n ≤ 2 ^ 28 → off < 2 ^ 28 →
        Completes (.cfgBankImage die ticket) s die ticket c 0 fun u =>
          OnlyElems s u d ps ∧ ∀ p ∈ ps, u.elem (elemKey d p) = { s.elem (elemKey d p) with imgDesc := some (off, n) }) ∧
      (c.fl = 1 → c.opd + 960 ≤ 2 ^ 28 →
        Completes (.cfgBankConstants die ticket) s die ticket c 0 fun u =>
          OnlyElems s u d ps ∧ ∀ p ∈ ps, u.elem (elemKey d p) = { s.elem (elemKey d p) with constDesc := some c.opd })

/-- LOAD and REGION (14 R380 to R384): opening and closing a staging; LOAD.COMMIT configures the elements that have a valid
slot; LOAD.ABORT leaves no element of the load configured, and its value counts them and the staged ones; LOAD.SWITCH arms,
with no move of the colour under way; REGION.GRANT gives the plots of a rectangle to the colour and REGION.FREE takes them
back. That the value of LOAD.ABORT counts an element once which stands in both banks is the model's reading (log 54, DEDUCED). -/
def Obligations.LoadAndRegionCommands : Prop :=
  ∀ (s : State) die ticket c d, Issued s die ticket c d → let g := s.staging d c.colour
    (c.code = 3 → c.tgt = 0 → c.arg < 64 → c.opd = 0 →
      (c.fl = 0 → g.isOpen = false → g.armed = false →
        Completes (.loadStageOpen die ticket) s die ticket c 0 fun u =>
          (u.staging d c.colour).isOpen = true ∧ loadNumber (u.staging d c.colour).load = c.arg ∧ u.phys = s.phys ∧
            u.ctrls = s.ctrls) ∧
      (c.fl = 1 → g.isOpen = true → loadNumber g.load = c.arg →
        Completes (.loadStageClose die ticket) s die ticket c (s.stagedElems d c.colour).length fun u =>
          u.staging d c.colour = { g with isOpen := false, closed := true } ∧ u.elems = s.elems ∧ u.phys = s.phys)) ∧
    (∀ ps, c.code = 4 → c.fl = 0 → c.arg < 64 → c.opd = 0 → s.elemTargets d c = .places ps →
      (∀ p ∈ ps, (s.elem (elemKey d p)).configured = false) → (∀ p ∈ s.committable d ps, unitsQuiet (s.elem (elemKey d p)) = true) →
        Completes (.loadCommit die ticket) s die ticket c (s.committable d ps).length fun u =>
          u.phys = s.phys ∧ ∀ p ∈ s.committable d ps, let e := u.elem (elemKey d p)
            e.configured = true ∧ loadNumber e.load = c.arg ∧ e.colour = c.colour ∧ e.cut = .open ∧
              e.active = (s.elem (elemKey d p)).active ∧ e.mem = (s.elem (elemKey d p)).mem) ∧
    (c.code = 5 → c.fl = 0 → c.tgt = 0 → c.arg < 64 → c.opd = 0 → g.armed = false →
      let active := s.elemsOfLoad d c.colour c.arg
      let staged := if (g.isOpen || g.closed) ∧ loadNumber g.load = c.arg then s.stagedElems d c.colour else []
      Completes (.loadAbort die ticket) s die ticket c (active ++ staged.filter (· ∉ active)).length fun u =>
        u.phys = s.phys ∧ ∀ p, p < 6400 → (s.elem (elemKey d p)).colour = c.colour →
          loadNumber (s.elem (elemKey d p)).load = c.arg → (u.elem (elemKey d p)).configured = false) ∧
    (c.code = 6 → c.fl = 0 → c.tgt = 0 → c.arg < 64 → c.opd = 0 → g.isOpen = false → g.closed = true → loadNumber g.load = c.arg →
      g.armed = false → NoMoves s c.colour → Performs (.loadSwitch die ticket) s die ticket 0 [] fun u =>
        u.staging d c.colour = { g with armed := true } ∧ u.phys = s.phys ∧ ∀ p ∈ s.regionElems d c.colour,
          let e := s.elem (elemKey d p)
          u.elem (elemKey d p) =
            { e with armed := e.configured || validSlots e.staged ≠ [] || e.constDesc.isSome }) ∧
    (c.code = 7 → c.fl = 0 → c.tgt = 0 → c.arg = 0 → c.opd < 2 ^ 32 → c.colour ≠ 0 → rectGood (grantRect c) = true →
      (∀ p x, p < 400 → rectHolds (grantRect c) d p = true → (s.plot (d * 400 + p)).colour = some x → x = c.colour) →
        Completes (.regionGrant die ticket) s die ticket c ((List.range 400).filter (rectHolds (grantRect c) d)).length fun u =>
          u.elems = s.elems ∧ u.phys = s.phys ∧ ∀ p, p < 400 → (u.plot (d * 400 + p)).colour =
            if rectHolds (grantRect c) d p then some c.colour else (s.plot (d * 400 + p)).colour) ∧
    (c.code = 8 → c.fl = 0 → c.tgt = 0 → c.arg = 0 → c.opd = 0 → s.regionBusy d c.colour = false →
      Completes (.regionFree die ticket) s die ticket c (s.regionPlots d c.colour).length fun u =>
        u.regionPlots d c.colour = [] ∧ u.phys = s.phys ∧ ∀ p, p < 400 → p ∉ s.regionPlots d c.colour →
          u.plot (d * 400 + p) = s.plot (d * 400 + p))

/-- Refused commands (14 R372, R373): a command with a reserved bit set, or for a die that no compute die is, completes
with status 1 and value 0, its packet consumed, and changes nothing else; so does a command of a reserved code; and none is
performed before its packet has arrived, or while an earlier one of its issuer to its die is not. The order of the statuses is
the model's reading (log 44). -/
def Obligations.CommandsRefused : Prop :=
  ∀ (s : State) die ticket t, s.ticket die ticket = some t → t.phase = .issued → let c := cmdOf die t
    (s.heldUp die t c = false → s.arrived (isCommand die ticket) = true → (c.rsv ≠ 0 ∨ s.dieOf c.ldie = none) →
      exec (commandFor die ticket c) s = .next ((taken s die ticket).finish die ticket c.code 1 0)) ∧
    (s.heldUp die t c = false → s.arrived (isCommand die ticket) = true → c.code = 0 ∨ 0x19 < c.code →
      exec (.streamCommandComplete die ticket) s = .next ((taken s die ticket).finish die ticket c.code 1 0)) ∧
    (s.heldUp die t c = true ∨ s.arrived (isCommand die ticket) = false → exec (commandFor die ticket c) s = .next s)

/-- Memory actors of a die other than those in some slots, elements, nodes and HBM are as before. -/
def Sys2Proof.Statements.OnlyMas (s u : State) (d : Nat) (ns : List Nat) : Prop :=
  (∀ k, (∀ n ∈ ns, k ≠ maKey d n) → u.ma k = s.ma k) ∧ u.elems = s.elems ∧ u.nodes = s.nodes ∧ u.phys = s.phys ∧ u.ctrls = s.ctrls

/-- The index of the first request that MA.RESUME reissues: that at which the first of the slots is stalled, or the first that
it has not issued. -/
def Sys2Proof.Statements.resumesAt (s : State) (d : Nat) (ns : List Nat) : Nat :=
  match ns with
  | [] => 0
  | n :: _ => ((s.ma (maKey d n)).stall.map Stall.index).getD (issuedCount (s.ma (maKey d n)))

/-- MA.SET, MA.START, MA.RESUME and MA.HALT (14 R385, R386; 15 R413): a good block of 64 bytes becomes the active bank of an
unconfigured slot, or its staged bank; configured slots run, and halted ones too; running ones halt. A slot stalled by a
translation fault at the request that it forms runs again, or is halted as it was before, with no entry of its micro-TLB
left that translates that request; that, and its value, are the model's readings (log 55, DEDUCED). -/
def Obligations.MemoryActorCommands : Prop :=
  ∀ (s : State) die ticket c d, Issued s die ticket c d →
    (∀ b, c.code = 9 → c.arg = 0 → c.opd < 2 ^ 32 → c.opd % 64 = 0 → c.tgt ≠ allTargets → s.slotTargets d c = .places [c.tgt] →
      s.sramBytes c c.opd 64 = some b → blockReserved (blockMem b) = true → blockRanges (blockMem b) = true →
      blockRules (blockMem b) = true → let m := s.ma (maKey d c.tgt)
        (c.fl = 0 → m.st = .unconfigured → s.cmpRule (blockMem b) d c.tgt c.colour none = true →
          Completes (.maSet die ticket) s die ticket c 0 fun u =>
            OnlyMas s u d [c.tgt] ∧ (u.ma (maKey d c.tgt)).active = blockMem b ∧ (u.ma (maKey d c.tgt)).st = .configured ∧
              (u.ma (maKey d c.tgt)).colour = c.colour ∧ (u.ma (maKey d c.tgt)).staged = m.staged) ∧
        (c.fl = 1 → (s.staging d c.colour).isOpen = true →
          s.cmpRule (blockMem b) d c.tgt c.colour (some (s.staging d c.colour).load) = true →
            Completes (.maSet die ticket) s die ticket c 0 fun u =>
              OnlyMas s u d [c.tgt] ∧
                u.ma (maKey d c.tgt) = { m with staged := blockMem b, stagedValid := true, colour := c.colour })) ∧
    ∀ ns, c.arg = 0 → c.opd = 0 → s.slotTargets d c = .places ns →
      (c.code = 0x0A → c.fl = 0 →
        (∀ n ∈ ns, let m := s.ma (maKey d n); m.st = .configured ∧ m.colour = c.colour ∧ m.saved = false) →
          Completes (.maStart die ticket) s die ticket c 0 fun u => OnlyMas s u d ns ∧ ∀ n ∈ ns, (u.ma (maKey d n)).st = .running ∧
            (u.ma (maKey d n)).active = (s.ma (maKey d n)).active) ∧
      (c.code = 0x0C → c.fl = 0 → (∀ n ∈ ns, let m := s.ma (maKey d n); m.st = .running ∧ m.saved = false) →
        Performs (.maHalt die ticket) s die ticket (ns.map fun n => issuedCount (s.ma (maKey d n))).sum ns fun u =>
          OnlyMas s u d ns ∧ ∀ n ∈ ns, u.ma (maKey d n) = { s.ma (maKey d n) with st := .halted }) ∧
      (c.code = 0x0B → c.fl = 0 → (∀ n ∈ ns, let m := s.ma (maKey d n); m.st = .halted ∧ m.saved = false) →
        Completes (.maResumeHalt die ticket) s die ticket c (resumesAt s d ns) fun u =>
          OnlyMas s u d ns ∧ ∀ n ∈ ns, u.ma (maKey d n) = { s.ma (maKey d n) with st := .running }) ∧
      ∀ x, c.code = 0x0B → c.fl = 1 → ns = [c.tgt] → let m := s.ma (maKey d c.tgt)
        m.st = .stalled → m.saved = false → m.stall = some x → x.kind = .request → x.code = 0x10 →
          Completes (.maResumeFault die ticket) s die ticket c x.index fun u =>
            OnlyMas s u d ns ∧ ∃ l, u.ma (maKey d c.tgt) =
                { m with st := if x.halted then .halted else .running, stall := none, tlb := l } ∧
              (∀ t ∈ l, t ∈ m.tlb) ∧ ∀ r, m.cur = some r → translateAll { m with tlb := l } (maCfg m.active) r = none

/-- CHAN.BIND, CHAN.DEPTH and INJECT (14 R387 to R389): the sources that a command names are bound to a channel with its
consumer, or unbound; a depth replaces the channel's earlier one where the colour holds a plot of the die, with every target
named that of each channel of the colour which has a consumer on the die in that bank (R372); an injected token leaves its source with a credit, and
waits without one. Second bindings of one source and the gates that a binding holds follow the model's reading (log 43). -/
def Obligations.ChannelCommands : Prop :=
  ∀ (s : State) die ticket c d, Issued s die ticket c d → let v := taken s die ticket
    (∀ x kind, let load := if bitOf c.arg 7 then some (s.staging d c.colour).load else none
      let xs := s.sourcesOf c d x
      c.code = 0x0D → bindOk c = true → bindSource c d = some x → chanKind (c.opd / 2 ^ 26 % 4) = some kind →
      (∀ z ∈ xs, s.sourceExists z = true ∧ s.sourceOwned z c.colour = true) →
      (if bitOf c.arg 7 then (s.staging d c.colour).isOpen = true else ∀ z ∈ xs, s.sourceIdle z c.colour = true) →
        (∀ y, c.opd / 2 ^ 23 % 8 < 4 → s.bindDest c = some y → s.destExists y = true → s.destOwned y c.colour = true →
          Completes (.chanBind die ticket) s die ticket c 0 fun u =>
            (∀ z ∈ xs, ∃ b ∈ u.binds, b.source = z ∧ b.load = load ∧ b.colour = c.colour ∧ b.chan = c.opd / 2 ^ 28 ∧
              b.kind = kind ∧ y ∈ b.dests) ∧
            (xs = [x] → (∀ b ∈ s.binds, b.source = x → b.load = load → b.colour = c.colour → b.chan ≠ c.opd / 2 ^ 28) →
              ∀ b ∈ u.binds, b.source = x → b.load = load → b.colour = c.colour → b.chan = c.opd / 2 ^ 28 ∧ b.dests = [y]) ∧
            (xs ≠ [] → ∃ z ∈ u.chans, z.dest = y ∧ z.colour = c.colour ∧ z.load = load) ∧ u.elems = s.elems ∧
            u.packets = v.packets) ∧
        (c.opd / 2 ^ 23 % 8 = 4 → Completes (.chanBind die ticket) s die ticket c 0 fun u =>
          (∀ z ∈ xs, ∀ b ∈ u.binds, ¬(b.source = z ∧ b.load = load ∧ b.colour = c.colour)) ∧ u.chans = s.chans ∧
            u.elems = s.elems)) ∧
    (let load := if c.fl = 1 then some (s.staging d c.colour).load else s.depthLoad d c.colour c.tgt;
      c.code = 0x0E → s.holdsPlot d c.colour = true → c.tgt ≠ allTargets → c.fl < 2 → c.arg = 0 → c.opd / 2 ^ 18 % 2 ^ 14 = 0 → 1 ≤ c.opd % 2 ^ 17 → c.opd % 2 ^ 17 ≤ 65536 →
      c.opd / 2 ^ 32 * 65536 < (s.ctrl d).spsize.toNat →
      (if c.fl = 1 then (s.staging d c.colour).isOpen = true else v.chanEmpty d c.colour c.tgt load = true) →
        Completes (.chanDepth die ticket) s die ticket c 0 fun u =>
          (∃ x ∈ u.depths, x.die = d ∧ x.colour = c.colour ∧ x.chan = c.tgt ∧ x.load = load ∧ x.depth = c.opd % 2 ^ 17 ∧
            x.spillable = bitOf c.opd 17 ∧ x.offset = c.opd / 2 ^ 32 ∧
            ∀ y ∈ u.depths, y.die = d → y.colour = c.colour → y.chan = c.tgt → y.load = load → y = x) ∧
          u.chans = s.chans ∧ u.binds = s.binds) ∧
    (let bank := fun n => if c.fl = 1 then some (s.staging d c.colour).load else s.depthLoad d c.colour n;
      c.code = 0x0E → s.holdsPlot d c.colour = true → c.tgt = allTargets → c.fl < 2 → c.arg = 0 → c.opd / 2 ^ 18 % 2 ^ 14 = 0 → 1 ≤ c.opd % 2 ^ 17 →
      c.opd % 2 ^ 17 ≤ 65536 → c.opd / 2 ^ 32 * 65536 < (s.ctrl d).spsize.toNat →
      (c.fl = 1 → (s.staging d c.colour).isOpen = true) →
      (c.fl = 0 → ∀ z ∈ s.chans, z.dest.die = d → z.colour = c.colour → z.load = bank z.chan →
        v.chanEmpty d c.colour z.chan z.load = true) →
        Completes (.chanDepth die ticket) s die ticket c 0 fun u =>
          (∀ z ∈ s.chans, z.dest.die = d → z.colour = c.colour → z.load = bank z.chan → ∃ x ∈ u.depths, x.die = d ∧
            x.colour = c.colour ∧ x.chan = z.chan ∧ x.load = z.load ∧ x.depth = c.opd % 2 ^ 17 ∧ x.spillable = bitOf c.opd 17 ∧
            x.offset = c.opd / 2 ^ 32 ∧ ∀ y ∈ u.depths, y.die = d → y.colour = c.colour → y.chan = z.chan → y.load = z.load → y = x) ∧
          u.chans = s.chans ∧ u.binds = s.binds) ∧
    ∀ x b t y, let load := s.sourceLoad x c.colour
      c.code = 0x0F → c.fl = 0 → (c.arg / 16 = 0 ∨ c.arg / 16 = 3) → c.opd < 2 ^ 32 → c.opd % 16 = 0 → c.tgt ≠ allTargets →
      bindSource c d = some x → s.sramBytes c c.opd 16 = some b → s.sourceExists x = true → s.sourceOwned x c.colour = true →
      leAt b 14 2 = 0 → injectToken b c.colour = some t → s.srcBind x c.colour load = some y →
      (t.kind = .stop → y.kind = .ordered) → y.closed = false →
        (v.credit y t = true → Completes (.inject die ticket) s die ticket c 0 fun u =>
          u.packets = v.packets ++ (pickDests y t).map (v.packet y t) ∧ SameMemory s u) ∧
        (v.credit y t = false → exec (.inject die ticket) s = .next s)

/-- REPAIR (14 R390; 15 R407, R408) of a FAULTED entry of an element between firings: RESUME and SUBST make the entry of a
tagged actor READY with retry set, SUBST with the substitute as its first payload; SKIP drops the entry; ABORT finishes the
launch of the colour with status 2. -/
def Obligations.RepairCommands : Prop :=
  ∀ (s : State) die ticket c d p en, let k := elemKey d c.tgt
    let e := s.elem k
    let slot := c.arg % 8
    Issued s die ticket c d → c.code = 0x10 → c.fl = 0 → c.arg < 64 → c.tgt ≠ allTargets →
    s.elemTargets d c = .places [c.tgt] → e.fir.status = .idle → e.configured = true → e.cut ≠ .saved →
    findEntry e slot (BitVec.ofNat 32 c.opd) = some (p, en) → en.st = .faulted →
      (c.arg / 8 = 0 → c.opd < 2 ^ 32 → en.present = requiredMask e en.slot → slotOrdered e en.slot = false →
        Completes (.repairResume die ticket) s die ticket c 0 fun u => SameMemory s u ∧
          (u.elem k).ready = e.ready ++ [p] ∧ tabGet (u.elem k).store p = some { en with st := .ready, retry := true }) ∧
      (∀ b, c.arg / 8 = 2 → s.sramBytes c (c.opd / 2 ^ 32) 8 = some b → en.present = requiredMask e en.slot →
        slotOrdered e en.slot = false → Completes (.repairSubst die ticket) s die ticket c 0 fun u => SameMemory s u ∧
          (u.elem k).ready = e.ready ++ [p] ∧ tabGet (u.elem k).store p =
            some { en with st := .ready, retry := true, payloads := en.payloads.set 0 (BitVec.ofNat 64 (bytesToNat b)) }) ∧
      (c.arg / 8 = 1 → c.opd < 2 ^ 32 → tabWf e.store = true → Completes (.repairSkip die ticket) s die ticket c 0 fun u =>
        SameMemory s u ∧ tabGet (u.elem k).store p = none) ∧
      ∀ l, c.arg / 8 = 3 → c.opd < 2 ^ 32 → s.launch e.colour = some l →
        Completes (.repairAbort die ticket) s die ticket c 0 fun u =>
          ∃ l', l' ∈ u.launches ∧ l'.colour = e.colour ∧ l'.lid = l.lid ∧ l'.st = .finishing ∧ l'.status = 2 ∧ u.phys = s.phys

/-- WEIR with no move of the colour under way, COLOUR.READ, SLUICE.SET, GEN.MARK, XLATE.ROOT, PLOT.CLOCK (14 R391, R392, R394,
R396 to R398; 12 R324): what each changes and its value. A release that leaves a generation without a hold unloads it where
a newer one of its name is resident. -/
def Obligations.ColourAndRootCommands : Prop :=
  ∀ (s : State) die ticket c d, Issued s die ticket c d →
    (c.code = 0x11 → c.fl < 2 → c.arg = 0 → c.opd = 0 → c.tgt = allTargets → NoMoves s c.colour →
      Completes (.weir die ticket) s die ticket c (s.weirSources d c.colour) fun u => u.phys = s.phys ∧
        (u.staging d c.colour).weir = true ∧
        (∀ n, n < 16 → (s.head (d * 16 + n)).colour = some c.colour → (s.head (d * 16 + n)).st = .streaming →
          (u.head (d * 16 + n)).st = .holding) ∧
        ∀ p, p < 6400 → let e := s.elem (elemKey d p)
          e.configured = true → e.colour = c.colour → e.cut = .open →
            u.elem (elemKey d p) = if c.fl = 1 then { e with cut := .closed } else e) ∧
    (c.code = 0x12 → c.fl = 0 → c.tgt = 0 → c.arg = 0 → c.opd = 0 →
      let v := taken s die ticket
      exec (.colourRead die ticket) s = .next (v.finish die ticket c.code 0 (v.inFlight c.colour))) ∧
    (c.code = 0x15 → c.arg = 0 → c.tgt < 16 → c.opd < 2 ^ 31 → c.opd / 2 ^ 14 % 4 = 0 → s.holdsPlot d c.colour = true →
      poolInUse (s.pool (d * 16 + c.tgt)) = false →
      (c.fl = 0 → 1 ≤ c.opd / 2 ^ 16 → c.opd % 2 ^ 14 + c.opd / 2 ^ 16 ≤ 16384 →
        s.poolOverlap d c.colour c.tgt (c.opd % 2 ^ 14) (c.opd / 2 ^ 16) = false →
          Completes (.sluiceSet die ticket) s die ticket c 0 fun u => u.elems = s.elems ∧ u.pool (d * 16 + c.tgt) =
            { Pool.reset with valid := true, colour := c.colour, base := c.opd % 2 ^ 14, size := c.opd / 2 ^ 16 }) ∧
      (c.fl = 1 → Completes (.sluiceClear die ticket) s die ticket c 0 fun u =>
        u.elems = s.elems ∧ u.pool (d * 16 + c.tgt) = Pool.reset)) ∧
    (∀ r, let is (r : Resident) : Bool := r.index = c.opd % 2 ^ 32 && r.gen = c.opd / 2 ^ 32
      c.code = 0x18 → c.tgt = 0 → c.arg = 0 → c.ldie = 0 → s.store.find? is = some r →
        (c.fl = 0 → Completes (.genMarkHold die ticket) s die ticket c (r.holds + 1) fun u =>
          u.store.find? is = some { r with holds := r.holds + 1 } ∧ u.elems = s.elems) ∧
        (c.fl = 1 → r.holds ≠ 0 → Completes (.genMarkRelease die ticket) s die ticket c (r.holds - 1) fun u => u.elems = s.elems ∧
          (2 ≤ r.holds ∨ (∀ q ∈ s.store, q.name = r.name → q.gen ≤ r.gen) →
            u.store.find? is = some { r with holds := r.holds - 1 }) ∧
          (r.holds = 1 → s.store.filter is = [r] → (∃ q ∈ s.store, q.name = r.name ∧ r.gen < q.gen) →
            u.store.find? is = none)) ∧
        (c.fl = 2 → Completes (.genMarkQuery die ticket) s die ticket c r.holds fun u =>
          u.store.find? is = some r ∧ u.elems = s.elems)) ∧
    (c.code = 0x19 → c.tgt = 0 → c.arg = 0 → c.opd % 2 ^ 16 = 0 → c.opd < 2 ^ 52 →
      c.fl < 2 → paSpace c.opd = 0 → s.paExists c.opd = true →
        Performs (.xlateRoot die ticket) s die ticket 0 [] fun u =>
          tabGet u.roots (d * 16 + c.colour) = some (if c.fl = 0 then none else some c.opd) ∧
          (∀ n, n < 64 → ∀ x ∈ (u.ma (maKey d n)).tlb, x.colour ≠ c.colour) ∧ u.phys = s.phys ∧ u.elems = s.elems) ∧
    ∀ ps, c.code = 0x17 → c.fl = 0 → c.arg = 0 → c.opd < 2 ^ 26 → c.opd / 2 ^ 11 % 32 = 0 → s.clockTargets d c = .places ps →
      400 ≤ clockMhz c → clockMhz c ≤ 1400 → 550 ≤ clockMv c → clockMv c ≤ 850 →
      (∀ p ∈ ps, clockMhz c ≤ (s.plot (d * 400 + p)).binned ∧ Config.binMillivolts (d * 400 + p) (clockMhz c) ≤ clockMv c) →
        exec (.plotClock die ticket) s = .next ((taken s die ticket).setPhase die ticket (.performed (clockMhz c) ps))

/-- What step 3 of a move waits for (13 R347; 02 R53; 09 R281): no firing of the slot, no FAULTED entry of it, no cut or switch of
the colour on its dies, room for its entries on the target, no free notice on its way to a firing of it, and nothing of an earlier
bank in a target without one. -/
def Sys2Proof.Statements.moveGoes (s : State) (colour : Nat) (m : Move) : Prop :=
  let e := s.elem m.src
  (e.fir.status = .idle ∨ e.fir.slot ≠ m.slot) ∧ slotFaulted e m.slot = false ∧ s.calm (m.src / 6400) colour = true ∧
    s.calm (m.dst / 6400) colour = true ∧ moveRoom e (s.elem m.dst) m = true ∧ s.noticeComes m = false ∧
    ((s.elem m.dst).configured = true ∨ unitsQuiet (s.elem m.dst) = true)

/-- STATE.SAVE, STATE.LOAD and REBAL.MOVE as they are performed (14 R393, R395; 13 R346, R347; 15 R423, R426), and completions
that follow (14 R373, R376). A save that may be made at once leaves its element, or its memory actor, unconfigured and saved;
a load leaves an element configured, open where fl[1] is 1 and otherwise frozen, and a memory actor as its area and what is kept
of it give it. A move begins by a slot of quota 0 on the target, to which all that was sent to the replica goes; its copy travels on
class 0, and as it arrives the entries and outputs of the replica are gone from where it was. A LOAD.SWITCH completes once
everything of the colour on the die runs the staged load. A clock reaches the point asked for, but where a thermal limit holds
the plot lower (18 R471). When saves happen, the layout of a memory actor's area and what is
kept beside an area are the model's readings (log 18, 36), and so is when the target's slot is reserved (log 78). That a load with
fl[1] = 0 leaves the element configured and frozen is the model's choice (log 80, DESIGN CHOICE), and so is from when to when a
thermal limit holds (log 99). -/
def Obligations.LongCommands : Prop :=
  (∀ (s : State) die ticket c d, Issued s die ticket c d →
    (∀ l, c.code = 0x13 → c.fl < 2 → c.arg = 0 → c.opd < 2 ^ 36 → c.opd % 4096 = 0 → s.saveTargets d c = .places l →
      let t := (((taken s die ticket).setStaging d c.colour { s.staging d c.colour with area := c.opd }).spillDie d
        c.colour).saveGates d c.colour
      Performs (.stateSave die ticket) s die ticket (areaSize * l.length) l fun u =>
        (u.staging d c.colour).area = c.opd ∧ u.ctrls = s.ctrls ∧
        (c.fl = 0 → l = [c.tgt] → c.tgt ≠ allTargets → t.maySave d c.tgt = true →
          (u.elem (elemKey d c.tgt)).cut = .saved ∧ (u.elem (elemKey d c.tgt)).configured = false) ∧
        (c.fl = 1 → l = [c.tgt] → t.maySaveMa d c.tgt = true →
          (u.ma (maKey d c.tgt)).saved = true ∧ (u.ma (maKey d c.tgt)).st = .unconfigured)) ∧
    (∀ l, c.code = 0x14 → c.fl < 4 → c.arg = 0 → c.opd < 2 ^ 36 → c.opd % 4096 = 0 → s.loadTargets d c = .places l →
      (∀ p ∈ l, s.mayLoad d c p = true) →
      (c.fl % 2 = 0 → ∀ p ∈ l, s.areaBad d (elemArea c.opd p) = false ∧ unitsQuiet (s.elem (elemKey d p)) = true) →
      (c.fl % 2 = 1 → ∀ p ∈ l, s.areaBad d (maArea c.opd p) = false) →
        Performs (.stateLoad die ticket) s die ticket (areaSize * l.length) l fun u => u.phys = s.phys ∧ u.ctrls = s.ctrls ∧
          (c.fl % 2 = 0 → l = [c.tgt] → c.tgt ≠ allTargets → (u.elem (elemKey d c.tgt)).configured = true ∧
            (u.elem (elemKey d c.tgt)).cut = if bitOf c.fl 1 then .open else .frozen) ∧
          (c.fl % 2 = 1 → l = [c.tgt] → ∃ m, (∀ kept, tabGet s.mas (savedMa c.colour (maKey d c.tgt)) = some kept → m = kept) ∧
            u.ma (maKey d c.tgt) =
              { maOfArea (s.areaMem d (maArea c.opd c.tgt)) m with saved := false, weir := .none, tlb := [], walking := none })) ∧
    ∀ p m l, c.code = 0x16 → c.fl = 0 → c.arg < 8 → c.opd < 2 ^ 22 → c.opd % 2 ^ 13 < 6400 →
      s.elemTargets d c = .places [p] → s.moveOf c d p = some m → s.launch c.colour = some l → s.moveAllowed l m = true →
      (s.elem m.dst).configured = true ∨ unitsQuiet (s.elem m.dst) = true →
        Performs (.rebalMove die ticket) s die ticket 0 [p] fun u => u.phys = s.phys ∧ (∀ k, k ≠ m.dst → u.elem k = s.elem k) ∧
          (u.elem m.dst).configured = true ∧
          (Memory.wf (s.elem m.dst).active = true → slotValid (u.elem m.dst) m.dslot = true ∧ quotaOf (u.elem m.dst) m.dslot = 0) ∧
          ∀ b ∈ u.binds, b.colour = c.colour → ∀ y ∈ b.dests, y.kind = .element → elemKey y.die y.pos = m.src →
            y.din ∉ slotIns (s.elem m.src) m.slot) ∧
  ∀ (s : State) die ticket t v ps d, s.ticket die ticket = some t → t.phase = .performed v ps → let c := cmdOf die t
    let g := s.staging d c.colour
    s.dieOf c.ldie = some d →
      (c.code ∉ [0x06, 0x0C, 0x13, 0x16, 0x17] →
        exec (.streamCommandComplete die ticket) s = .next (s.finish die ticket c.code 0 v)) ∧
      (c.code = 0x0C →
        ((∀ n ∈ ps, quietMa (s.ma (maKey d n)) = true) →
          exec (.streamCommandComplete die ticket) s = .next (s.finish die ticket c.code 0 v)) ∧
        ((∃ n ∈ ps, quietMa (s.ma (maKey d n)) = false) → exec (.streamCommandComplete die ticket) s = .next s)) ∧
      (c.code = 0x06 →
        (g.armed = true → s.allSwitched d c.colour g.load = true →
          Completes (.streamCommandComplete die ticket) s die ticket c (s.activeElems d c.colour g.load).length fun u =>
            (u.staging d c.colour).armed = false ∧ (u.staging d c.colour).closed = false ∧ u.elems = s.elems) ∧
        (g.armed = true → s.allSwitched d c.colour g.load = false → exec (.streamCommandComplete die ticket) s = .next s) ∧
        (g.armed = false → exec (.streamCommandComplete die ticket) s =
          .next (s.finish die ticket c.code 0 (s.elemsOfLoad d c.colour c.arg).length))) ∧
      (∀ p m l r, c.code = 0x16 → ps = [p] → s.moveOf c d p = some m → (s.elem m.src).configured = true →
        (s.elem m.src).colour = c.colour → moveGoes s c.colour m → s.launch c.colour = some l →
        replicaAt l.plan (m.src / 6400) (m.src % 6400) m.slot = some r → m.src ≠ m.dst →
          ((∀ q ∈ s.packets, isMoved m q.cargo = false) → ∃ q, exec (.streamCommandComplete die ticket) s =
            .next { s with packets := s.packets ++ [q] } ∧ q.cls = 0 ∧ isMoved m q.cargo = true) ∧
          ∀ q, s.packets.find? (fun q => isMoved m q.cargo) = some q → q.here = q.target → q.via = none →
            Completes (.streamCommandComplete die ticket) s die ticket c v fun u => u.phys = s.phys ∧
              (∀ x ∈ (u.elem m.src).store, x.2.slot ≠ m.slot) ∧ (∀ x ∈ u.packets, isMoved m x.cargo = false) ∧
              ∀ b ∈ u.binds, b.colour = c.colour → b.load = some (s.elem m.src).load →
                ∀ o ∈ slotOuts (s.elem m.src) m.slot, b.source ≠ elemSource m.src o) ∧
      ∀ p, c.code = 0x17 → ps = [p] → let x := s.plot (d * 400 + p)
        let mhz := match x.limit with
          | some n => Nat.min (clockMhz c) n
          | none => clockMhz c
        Completes (.streamCommandComplete die ticket) s die ticket c mhz fun u =>
          (u.plot (d * 400 + p)).mhz = mhz ∧ (u.plot (d * 400 + p)).asked = clockMhz c ∧
            (u.plot (d * 400 + p)).mv = clockMv c ∧ u.elems = s.elems

/-! ## Pre-emption -/

/-- The conditions of R341 for a launch in a cut (15 R428), saved targets counted as they are saved: its elements, memory
actors and channels have ended, no load follows, and no fault holds it open. -/
def Sys2Proof.Statements.EndsInCut (s : State) (l : Launch) : Prop :=
  s.savedEnded l = true ∧ s.savedMasEnded l = true ∧ s.loadDone l = true ∧ s.lastLoad l = true ∧ s.faultInForce l.colour = false

/-- A cut and a resume (15 R419 to R429; 13 R333, R350): an element whose dispatch is closed freezes between firings, as a
weir leaves behind its last commit on each output, for which it waits for the credits; a memory actor at the weir stops issuing
and, once it has drained and has the credits, puts weirs on resp and done; when everything is saved and nothing is in flight the launch is saved and its region free; a launch that
is complete before its cut ends instead; a saved launch that may be granted resumes, where a load that was staged can be staged
again. That the weirs of an element or a memory actor leave together, and that it neither freezes nor sends any of them while one
channel has no credit, is the model's reading (log 49, DEDUCED). The firmware's part in a cut is done inside the event, which is
the model's choice (log 36); where a resume places elements is its reading (log 63). -/
def Obligations.CutEvents : Prop :=
  (∀ (s : State) die pos, let k := elemKey die pos
    (s.elem k).configured = true → (s.elem k).cut = .closed → (s.elem k).fir.status = .idle →
      (s.weirElement k ≠ none → ∃ u l, exec (.elementFreeze die pos) s = .next u ∧ u.elem k = { s.elem k with cut := .frozen } ∧
        u.packets = s.packets ++ l ∧ (∀ x ∈ l, x.cargo = .token (markerToken .weir (s.elem k).colour)) ∧ u.phys = s.phys) ∧
      (s.weirElement k = none → exec (.elementFreeze die pos) s = .next s)) ∧
  (∀ (s : State) die slot, let k := maKey die slot
    let m := s.ma k
    m.st ≠ .unconfigured → m.saved = false → (s.staging die m.colour).weir = true →
      (m.weir = .none → exec (.memoryActorWeir die slot) s = .next (s.setMa k { m with weir := .stopping })) ∧
      (let sent := s.tryEmits (markerToken .weir m.colour) (s.maWeirOuts die slot);
        m.weir = .stopping → s.maDrained die slot = true →
          (sent ≠ none → ∃ u l, exec (.memoryActorWeir die slot) s = .next u ∧ u.ma k = { m with weir := .sent } ∧
            u.packets = s.packets ++ l ∧ (∀ x ∈ l, x.cargo = .token (markerToken .weir m.colour)) ∧ u.phys = s.phys) ∧
          (sent = none → exec (.memoryActorWeir die slot) s = .next s)) ∧
      (m.weir = .stopping → s.maDrained die slot = false → exec (.memoryActorWeir die slot) s = .next s)) ∧
  (∀ (s : State) colour l, s.launch colour = some l → l.st = .cutting → ¬EndsInCut s l →
    s.loaderRuns = true → let t := (l.dies.filter s.firmwareRuns).foldl (fun t d => t.firmwareSave colour d) s
    ¬EndsInCut t l →
      (t.allSaved l = true → t.switchDue l = false → t.outfallsWeired colour = true → t.inFlight colour = 0 →
        ∃ u l', exec (.cutComplete colour) s = .next u ∧ l' ∈ u.launches ∧ l'.colour = colour ∧ l'.st = .saved ∧
          l'.rect = none ∧ l'.arrival = t.arrivals ∧ u.arrivals = t.arrivals + 1 ∧
          ∀ d ∈ l.dies, u.regionPlots d colour = []) ∧
      (t.allSaved l = false ∨ t.inFlight colour ≠ 0 → exec (.cutComplete colour) s = .next t)) ∧
  (∀ (s : State) colour l, s.launch colour = some l → l.st = .cutting → s.loaderRuns = true → EndsInCut s l →
    exec (.cutCompletionWins colour) s = .next ((s.dropSaves colour).endLoad l) ∧
      exec (.cutComplete colour) s = .next ((s.dropSaves colour).endLoad l)) ∧
  ∀ (s : State) colour rect plan l, s.launch colour = some l → l.st = .saved → s.loaderRuns = true → waits l = true → s.rectSuits l rect = true →
    s.rectChosen l rect = true → s.grantable l rect = true → s.behind l rect = false →
    s.planGood (s.imageOf colour) colour (loadNumber l.load) rect l.dies plan = true → s.resumeGood l rect plan = true →
    s.stagesAgain l rect plan = true → (s.grant l rect l.dies).regionQuiet l = true → (s.grant l rect l.dies).regionStill l = true →
      exec (.launchResume colour rect plan) s = .next ((s.grant l rect l.dies).resume l plan)

/-! ## The Eolo transport -/

/-- A frame that its session takes next (16 R433, R434). -/
def Sys2Proof.Statements.Taken (s : State) (f : Frame) (x : Session) : Prop :=
  s.frameSession f = some x ∧ tookOf x f = .take

/-- A request is answered with a status and data, and takes no journal entry (16 R437, R438). -/
def Sys2Proof.Statements.Answered (i : Instr) (s : State) (f : Frame) (x : Session) (status : Nat) (data : List Byte)
    (P : State → Prop) : Prop :=
  ∃ u : State, exec i s = .next (u.reply x.num f false status data) ∧ u.hw.journal = s.hw.journal ∧ P u

/-- A request is performed, journalled and answered (16 R439, R445). -/
def Sys2Proof.Statements.Journalled (i : Instr) (s : State) (f : Frame) (x : Session) (status : Nat) (data : List Byte)
    (P : State → Prop) : Prop :=
  ∃ (u : State) (e : JEntry), exec i s = .next (u.reply x.num f false status data) ∧ u.hw.journal.getLast? = some e ∧ e.jseq = s.hw.jseq ∧
    e.session = x.num ∧ e.seq = f.seq ∧ e.code = f.code.toNat ∧ e.status = status ∧ e.rid = f.rid ∧ P u

/-- Whether an address lies in the mirror of the next journal entry, in L0's die control space (16 R445; its place is the model's,
log 61). -/
def Sys2Proof.Statements.InMirror (s : State) (a : Nat) : Bool :=
  decide (mirrorAt s.hw.jseq ≤ a) && decide (a < mirrorAt s.hw.jseq + 64)

/-- The event that takes a frame, by its type and code (Table 16-2). -/
noncomputable def Sys2Proof.Statements.frameFor (f : Frame) : Instr :=
  if f.type.toNat ≠ 0 then .eoloAck f
  else
    match f.code.toNat with
    | 0x02 => .bye f
    | 0x03 => .eoloWrite f
    | 0x04 => .eoloRead f
    | 0x05 => .image f
    | 0x06 => .unload f
    | 0x07 => .launch f
    | 0x08 => .stream f
    | 0x09 =>
      match kindByte f with
      | 0 => .queryIdentity f
      | 1 => .queryLiveMap f
      | 2 => .queryQuote f
      | 3 => .queryKey f
      | 4 => .querySetPort f
      | _ => .eoloAck f
    | 0x0A =>
      match kindByte f with
      | 0 => .regionOpen f
      | 1 => .regionAbort f
      | _ => .eoloAck f
    | 0x0B => .journal f
    | 0x0C => .eoloRepair f
    | 0x0D =>
      match bodyWord f 0 / 2 ^ 6 % 4 with
      | 0 => .peerWindow f
      | 1 => .peerBind f
      | 3 => .peerInboundGrant f
      | _ => .eoloAck f
    | _ => .eoloAck f

/-- Sessions and sequence (16 R433 to R436, R446): a good HELLO opens a session with the mask it asks for; BYE closes one
and ends no launch; a frame of no open session is discarded; one ahead of its turn is held, one behind is acknowledged
again; an acknowledgement drops what it names; the timer sends again what is unacknowledged, and after 64 tries closes the
session; an unknown code is answered with status 1, and a repeated request from its entry. A reply waits for its
acknowledgement under the next number, its body filled with zero bytes to a multiple of 8 (Table 16-1). An acknowledgement of its own taking no number is the model's reading (log 39). -/
def Obligations.HostTransport : Prop :=
  (∀ (s : State) f, s.frameGood f = true → f.type.toNat = 0 → f.code.toNat = 1 → f.session = 0 → f.seq = 0 →
    let w := bodyWord f 0
    s.hw.recovery = false → f.body.length = 8 → w < 2 ^ 32 → w % 256 ≤ 1 → 1 ≤ w / 2 ^ 8 % 256 →
    (bitOf w 16 = true → f.source ∈ s.hw.part.mgmt) →
      (s.hw.sessions.length < 64 → ∃ (u : State) (y : Session), exec (.hello f) s = .next u ∧ y ∈ u.hw.sessions ∧ y.num = s.newNumber ∧
        y.mask.toNat = w / 2 ^ 16 % 2 ^ 16 ∧ y.ack = 1 ∧ u.launches = s.launches) ∧
      (64 ≤ s.hw.sessions.length → exec (.hello f) s = .next (s.replyLoose f 3))) ∧
  (∀ (s : State) f x, Taken s f x → f.type.toNat = 0 →
    (f.code.toNat = 2 → f.body = [] → ∃ u : State, exec (.bye f) s = .next u ∧ u.session x.num = none ∧ u.launches = s.launches) ∧
    (knownRequest f = false → Answered (.eoloAck f) s f x 1 [] fun u => u.launches = s.launches ∧ u.phys = s.phys) ∧
    ∀ e, s.repeated f = some e →
      (f.code.toNat = 3 → 24 ≤ f.body.length → bodyWord f 0 < 16 → bodyWord f 1 % 8 = 0 → x.may (bodyWord f 0) = true →
        ∃ u : State, exec (.eoloWrite f) s = .next (u.reply x.num f true e.status []) ∧ u.phys = s.phys ∧ u.hw.journal = s.hw.journal) ∧
      (f.code.toNat = 7 → f.body.length = 24 → s.descriptorOk 0 f = true → (descriptorOf 0 f).colour ≠ 0 →
        x.may (descriptorOf 0 f).colour = true →
          ∃ u : State, exec (.launch f) s = .next (u.reply x.num f true e.status []) ∧ u.launches = s.launches ∧ u.hw.journal = s.hw.journal)) ∧
  (∀ (s : State) f, s.hw.recovery = false →
    (s.frameSession f = none → exec (frameFor f) s = .next s) ∧
    ∀ x, s.frameSession f = some x → f.type.toNat ≠ 3 → (f.type.toNat = 0 → f.code.toNat ≠ 1) →
      (tookOf x f = .discard → exec (frameFor f) s = .next s) ∧
      (tookOf x f = .hold → ∃ (u : State) (y : Session), exec (frameFor f) s = .next u ∧ u.session x.num = some y ∧ y.ack = x.ack ∧
        y.held = x.held ++ [f] ∧ u.launches = s.launches ∧ u.phys = s.phys) ∧
      (tookOf x f = .again → ∃ (u : State) (y : Session), exec (frameFor f) s = .next u ∧ u.session x.num = some y ∧ y.ack = x.ack ∧
        y.held = x.held ∧ u.launches = s.launches ∧ u.phys = s.phys)) ∧
  (∀ (s : State) f x, s.frameSession f = some x → f.type.toNat = 3 → (f.ack - firstUnacked x).toNat ≤ x.sent →
    ∃ (u : State) (y : Session), exec (.eoloAck f) s = .next u ∧ u.session x.num = some y ∧ y.ack = x.ack ∧ y.window = f.window.toNat ∧
      y.unacked = x.unacked.drop (f.ack - firstUnacked x).toNat ∧ u.hw.journal = s.hw.journal) ∧
  (∀ (s : State) n x, s.session n = some x → 0 < x.sent →
    (64 ≤ x.tries → ∃ u : State, exec (.eoloRetransmit n) s = .next u ∧ u.session n = none ∧ u.launches = s.launches) ∧
    (x.tries < 64 → ∃ (u : State) (y : Session), exec (.eoloRetransmit n) s = .next u ∧ u.session n = some y ∧ y.tries = x.tries + 1 ∧
      u.hw.outbox = s.hw.outbox ++ (x.unacked.take x.sent).map fun g => { g with ack := x.ack })) ∧
  ∀ (s : State) n x f dup status data, s.session n = some x → data.length ≤ 8184 →
    ∃ (y : Session) (g : Frame), (s.reply n f dup status data).session n = some y ∧ y.seq = x.seq + 1 ∧ y.unacked = x.unacked ++ [g] ∧ g.seq = x.seq ∧
      g.type = 1 ∧ g.code = f.code ∧ g.rid = f.rid ∧ g.body = wholeWords (wordBytes status ++ data) ∧ g.flags = if dup then 2 else 0

/-- WRITE, READ, IMAGE, UNLOAD and STREAM (16 R440, R441, R443; 12 R322, R324): the granules that a request names are
written or read, and no other byte changes but the mirror of the journal's entry; an image is kept until it is whole, and a
whole good one is resident; a frame of it at an offset that is not the next is answered with status 3, drops the partial image
and takes no journal entry, which is the model's reading (log 39); an unused image is unloaded; the tokens of a stream wait at
its headgate, and the answer with them. -/
def Obligations.HostDataRequests : Prop :=
  ∀ (s : State) f x, Taken s f x → f.type.toNat = 0 →
    (∀ l, f.code.toNat = 3 → 24 ≤ f.body.length → bodyWord f 0 < 16 → bodyWord f 1 % 8 = 0 → x.may (bodyWord f 0) = true →
      s.repeated f = none → s.granules (bodyWord f 0) (bodyWord f 1) .write (f.body.length / 8 - 2) = .inl l →
        Journalled (.eoloWrite f) s f x 0 [] fun u => u.launches = s.launches ∧ u.elems = s.elems ∧
          (∀ a, InMirror s a = false → (∀ pa ∈ l, a < pa ∨ pa + 8 ≤ a) → Memory.get u.phys a = Memory.get s.phys a) ∧
          ∀ pa, l = [pa] → inRetire pa = false → Memory.wf s.phys = true → (∀ i, i < 8 → InMirror s (pa + i) = false) →
            Memory.read u.phys pa 8 = bodyWord f 2) ∧
    (∀ l b, f.code.toNat = 4 → f.body.length = 24 → bodyWord f 0 < 16 → bodyWord f 1 % 8 = 0 → bodyWord f 2 % 8 = 0 →
      8 ≤ bodyWord f 2 → bodyWord f 2 ≤ 8184 → x.may (bodyWord f 0) = true →
      s.granules (bodyWord f 0) (bodyWord f 1) .read (bodyWord f 2 / 8) = .inl l → s.hostReadAll l = some b →
        Answered (.eoloRead f) s f x 0 b fun u => u.phys = s.phys ∧ u.launches = s.launches) ∧
    (f.code.toNat = 5 → 24 ≤ f.body.length → bodyWord f 0 < 2 ^ 32 → bodyWord f 1 = x.img.length →
      (x.img = [] ∨ bodyWord f 0 = x.imgLen) → let got := x.img ++ f.body.drop 16
        (got.length < bodyWord f 0 → ∃ (u : State) (y : Session), exec (.image f) s = .next u ∧ u.session x.num = some y ∧ y.img = got ∧
          y.imgLen = bodyWord f 0 ∧ u.store = s.store) ∧
        (bodyWord f 0 ≤ got.length → got.length < bodyWord f 0 + 8 → s.repeated f = none → let b := got.take (bodyWord f 0)
          let word := wordBytes (s.imageIndex (graphName b) + imgGen b * 2 ^ 32)
          (s.checkImage b = none → (∀ r ∈ s.store, r.name = graphName b → r.gen ≤ imgGen b) →
            Journalled (.image f) s f x 0 word fun u => ∃ r ∈ u.store, r.name = graphName b ∧ r.gen = imgGen b) ∧
          ∀ r, s.checkImage b = some r → Journalled (.image f) s f x 6 (word ++ (refuses r s).data) fun u => u.store = s.store)) ∧
    (f.code.toNat = 5 → 24 ≤ f.body.length → bodyWord f 0 < 2 ^ 32 → bodyWord f 1 ≠ x.img.length →
      Answered (.image f) s f x 3 [] fun u => u.store = s.store ∧ u.launches = s.launches ∧
        (u.session x.num).map Session.img = some []) ∧
    (∀ r, f.code.toNat = 6 → f.body.length = 8 → s.repeated f = none →
      (s.store.find? fun q => q.index = bodyWord f 0 % 2 ^ 32 && q.gen = bodyWord f 0 / 2 ^ 32) = some r →
        (r.holds = 0 → Journalled (.unload f) s f x 0 [] fun u =>
          (∀ q ∈ u.store, ¬ (q.index = bodyWord f 0 % 2 ^ 32 ∧ q.gen = bodyWord f 0 / 2 ^ 32)) ∧ u.launches = s.launches) ∧
        (r.holds ≠ 0 → ∃ data, Journalled (.unload f) s f x 6 data fun u => u.store = s.store)) ∧
    ∀ d ts, let w := bodyWord f 0
      let colour := w / 2 ^ 32 % 16
      let key := d * 16 + w / 2 ^ 36 % 16
      let k := s.streamKey colour key
      f.code.toNat = 8 → 24 ≤ f.body.length → f.body.length % 16 = 8 → f.body.length ≤ 8184 → w < 2 ^ 46 → x.may colour = true →
      s.dieOf (w / 2 ^ 40 % 64) = some d → s.streamOpen colour (BitVec.ofNat 32 w) key = true → streamTokens f colour = some ts →
      (s.head k).answer = none → ts ≠ [] →
        ∃ u : State, exec (.stream f) s = .next u ∧ u.hw.journal = s.hw.journal ∧ u.head k =
          { s.head k with fresh := ts, answer := some (x.num, f.rid), eosSeen := ts.any fun t => t.kind = .eos }

/-- LAUNCH and REGION (16 R442; 13 R326 to R328): the first descriptor of a colour opens a launch on the newest
generation, with a stream where it is a LAUNCH; one more brings a stream to an open launch; a descriptor with another
launch's colour is answered with status 3, one with colour 0 with status 2; REGION with kind 1 aborts. The statuses that
the rules leave to a choice are the model's readings (log 39). -/
def Obligations.LaunchRequests : Prop :=
  ∀ (s : State) f x, Taken s f x → f.type.toNat = 0 →
    (∀ die, let d := descriptorOf 0 f
      let key := die * 16 + d.gate
      f.code.toNat = 7 → f.body.length = 24 → s.descriptorOk 0 f = true → s.dieOf d.ldie = some die →
      (d.colour = 0 → Answered (.launch f) s f x 2 [] fun u => u.launches = s.launches) ∧
      (d.colour ≠ 0 → x.may d.colour = true → s.repeated f = none →
        (∀ r, s.launch d.colour = none → s.newest d.image = some r → d.load < imgLoads r.bytes → s.gateBusy key d.colour = false →
          (d.gate = 15 → hasFaultChannel r.bytes d.load = false) →
            Journalled (.launch f) s f x 0 [] fun u => u.launches = s.launches ++ [openedLaunch s d r die x.num] ∧
              u.hw.descs = s.hw.descs ++ [{ gate := key, colour := d.colour, lid := d.lid }] ∧ u.arrivals = s.arrivals + 1) ∧
        (∀ l, s.launch d.colour = some l → l.lid ≠ d.lid →
          Journalled (.launch f) s f x 3 [] fun u => u.launches = s.launches ∧ u.hw.descs = s.hw.descs) ∧
        ∀ l r, s.launch d.colour = some l → l.lid = d.lid → s.newest d.image = some r → d.load < imgLoads (s.imageOf l.colour) →
          s.gateBusy key d.colour = false → d.gate ≠ 15 → l.dies ≠ [] → die ∈ l.dies →
            Journalled (.launch f) s f x 0 [] fun u => u.launches = s.launches ∧
              u.hw.descs = s.hw.descs ++ [{ gate := key, colour := d.colour, lid := d.lid }])) ∧
    let d := descriptorOf 1 f
    f.code.toNat = 0x0A → f.body.length = 32 → bodyWord f 0 < 256 → s.descriptorOk 1 f = true → d.colour ≠ 0 →
    x.may d.colour = true → s.repeated f = none →
      (∀ r die, kindByte f = 0 → s.dieOf d.ldie = some die → s.launch d.colour = none → s.newest d.image = some r →
        d.load < imgLoads r.bytes →
          Journalled (.regionOpen f) s f x 0 [] fun u => u.launches = s.launches ++ [openedLaunch s d r die x.num] ∧
            u.hw.descs = s.hw.descs) ∧
      (∀ l, kindByte f = 1 → s.launch d.colour = some l → l.lid = d.lid → (l.st = .active ∨ l.st = .waiting) →
        s.loaderRuns = true →
        Journalled (.regionAbort f) s f x 0 [] fun u => ∃ l' ∈ u.launches, l'.colour = d.colour ∧ l'.lid = l.lid ∧
          l'.st = .finishing ∧ l'.status = 2) ∧
      (kindByte f = 1 → s.launch d.colour = none → Journalled (.regionAbort f) s f x 7 [] fun u => u.launches = s.launches)

/-- QUERY, JOURNAL, REPAIR and PEER (16 R444, R447, R449, R450, R453 to R455): the identity, the live map, the quote and the key
are reported and change nothing; the port is for the next boot; entries come from a jseq on; a repair that resumes an entry
makes it READY, at a die whose controller runs; windows, grants and outfall bindings are set. That a repair acts as its frame
is taken, with no packet of its own, is the model's reading (log 36), the keys under which windows and bindings stand are its
own (log 64), the bytes of the live map its layout (log 65), and the signature of a quote and the key its free values
(log 19). -/
def Obligations.HostQueriesAndSettings : Prop :=
  ∀ (s : State) f x, Taken s f x → f.type.toNat = 0 →
    (f.code.toNat = 9 → bodyWord f 0 < 256 →
      (kindByte f = 0 → f.body.length = 8 → Answered (.queryIdentity f) s f x 0 (wordBytes s.identityNat ++
        wordBytes (s.hw.boot % 2 ^ 32)) fun u => u.phys = s.phys) ∧
      (kindByte f = 1 → f.body.length = 8 → Answered (.queryLiveMap f) s f x 0 s.liveMapBytes fun u => u.phys = s.phys) ∧
      (kindByte f = 2 → f.body.length = 40 → let b := s.quoteBody (f.body.drop 8)
        Answered (.queryQuote f) s f x 0 (b ++ (Config.quoteSignature b).toList) fun u => u.hw.meas = s.hw.meas) ∧
      (kindByte f = 3 → f.body.length = 8 →
        Answered (.queryKey f) s f x 0 (Config.identityKey.toList ++ Config.identityCertificate) fun u => u.hw.meas = s.hw.meas) ∧
      (kindByte f = 4 → f.body.length = 16 → bodyWord f 1 < 65536 → x.may 0 = true →
        Answered (.querySetPort f) s f x 0 [] fun u => u.hw.nextPort = bodyWord f 1 ∧ u.hw.udpPort = s.hw.udpPort)) ∧
    (∀ e rest, f.code.toNat = 0x0B → f.body.length = 16 → 1 ≤ bodyWord f 1 → bodyWord f 1 < 128 → s.hw.journal.head? = some e →
      (s.hw.journal.filter fun e => bodyWord f 0 ≤ e.jseq) = rest → rest ≠ [] →
        Answered (.journal f) s f x (if bodyWord f 0 < e.jseq then 8 else 0)
          (wordBytes ((rest.head?.map JEntry.jseq).getD 0) ++ (rest.take (bodyWord f 1)).flatMap entryBytes) fun u => u.phys = s.phys) ∧
    (∀ r p en d, f.code.toNat = 0x0C → s.repairDie f = some d → s.firmwareRuns d = true →
      s.liveElem (r.dest / 6400) (r.dest % 6400) = true → repairFields f = true → x.may (bodyWord f 3) = true → s.repeated f = none →
      s.namedRepair f = some r → r.isMa = false → r.kind = 0 → let e := s.elem r.dest
      e.fir.status = .idle → e.colour = r.colour → e.configured = true → e.cut ≠ .saved → findEntry e r.slot r.tag = some (p, en) →
      en.st = .faulted → en.present = requiredMask e en.slot → slotOrdered e en.slot = false →
        Journalled (.eoloRepair f) s f x 0 [] fun u => (∀ k, (u.elem k).mem = (s.elem k).mem) ∧ u.ctrls = s.ctrls ∧
          (∀ a, InMirror s a = false → Memory.get u.phys a = Memory.get s.phys a) ∧ (u.elem r.dest).ready = e.ready ++ [p] ∧
          tabGet (u.elem r.dest).store p = some { en with st := .ready, retry := true }) ∧
    ∀ k, f.code.toNat = 0x0D → x.may 0 = true → s.repeated f = none → s.peerKey f = some k →
      (bodyWord f 0 / 2 ^ 6 % 4 = 0 → windowOk f = true → s.optInUse (k / 16) (k % 16) = false →
        Journalled (.peerWindow f) s f x 0 [] fun u => tabGet u.windows k = some (windowOf f) ∧ u.inbound = s.inbound) ∧
      (bodyWord f 0 / 2 ^ 6 % 4 = 0 → windowOk f = true → s.optInUse (k / 16) (k % 16) = true →
        Journalled (.peerWindow f) s f x 3 [] fun u => u.windows = s.windows) ∧
      (bodyWord f 0 / 2 ^ 6 % 4 = 3 → windowOk f = true →
        Journalled (.peerInboundGrant f) s f x 0 [] fun u => tabGet u.inbound k = some (windowOf f) ∧ u.windows = s.windows) ∧
      (bodyWord f 0 / 2 ^ 6 % 4 = 1 → f.body.length = 24 → bodyWord f 0 < 2 ^ 12 → bodyWord f 1 < 16 → bodyWord f 2 < 2 ^ 32 →
        Journalled (.peerBind f) s f x 0 [] fun u =>
          (u.out k).peer = some { gate := bodyWord f 1, lid := BitVec.ofNat 32 (bodyWord f 2), sent := 0 } ∧ u.windows = s.windows)

/-- Events to the host (16 R444, R445, R448; 14 R360, R366): the completion of an ended launch is journalled and the
launch is forgotten; a fault, the second trap of a controller and a record of mailbox 2 are each told once. The session
that HALT and MESSAGE go to is the model's reading (log 39). -/
def Obligations.HostEvents : Prop :=
  (∀ (s : State) i l, s.launches[i]? = some l → l.st = .ended → (s.out (completionOutfall l)).message ≠ some (completionBody l) →
    ∃ (u : State) (e : JEntry), exec (.completion i) s = .next u ∧ u.launches = dropNth s.launches i ∧ u.hw.journal.getLast? = some e ∧
      e.code = 0x80 ∧ e.summary = recBytes (completionBody l) ∧ e.jseq = s.hw.jseq ∧ u.elems = s.elems) ∧
  (∀ (s : State) die f n, s.hw.faultsOpen = [f] → f.die = die → f.told = false → f.channel = false →
    s.firmwareRuns die = true → s.eventSession ((s.launch f.colour).map Launch.session) f.colour = some n →
      ∃ u : State, exec (.eoloFault die) s = .next (u.sendMessage n tEvent 0x81 0 false (recBytes f.record)) ∧
        u.hw.faultsOpen = if f.past then [] else [{ f with told := true }]) ∧
  (∀ (s : State) die h n, (s.ctrl die).halted = some h → s.lowestSession 0 = some n → h.told = false →
    ∃ u : State, exec (.halt die) s = .next (u.sendMessage n tEvent 0x82 0 false
        (wordBytes (s.ldie die % 64 + h.code * 2 ^ 8) ++ wordBytes h.pc.toNat ++ wordBytes h.addr.toNat)) ∧
      (u.ctrl die).halted = some { h with told := true } ∧ u.elems = s.elems) ∧
  ∀ (s : State) die n r rest, s.lowestSession 0 = some n → die < 64 → s.box die 2 = r :: rest →
    ∃ u : State, exec (.message die) s = .next (u.sendMessage n tEvent 0x83 0 false (recBytes r)) ∧ u.box die 2 = rest ∧ u.elems = s.elems

/-- The words of a telemetry block of 1,024 bytes (18 R469), of a die whose controller writes it, from the state before and
after: lcnt, which is 1 ms of it for each update up to this one, corrected and uncorrected errors, retrains of the links, power, the hottest plot, thermal events, faults by code,
stepping, and zero. -/
def Sys2Proof.Statements.telemetryWords (s u : State) (die : Nat) : List Nat :=
  [1000000 * ((s.tel die).updates + 1) % 2 ^ 64, (u.tel die).corrected, (s.tel die).uncorrected] ++
    (List.range 5).map (fun l => (tabGet (s.tel die).retrains l).getD 0) ++
    [(Config.freePower die s.free).toNat, (s.hottest die).1 % 65536 + (s.hottest die).2 * 65536, (s.tel die).thermal] ++
    (List.range 21).map (fun c => (tabGet (s.tel die).faults (c + 1)).getD 0) ++ [s.hw.part.stepping] ++ List.replicate 95 0

/-- Boot, telemetry and thermal limits (16 R451, R452; 18 R466, R469, R471): a reset counts a boot and keeps no session,
launch, image, journal entry or packet, but keeps the port and, with no failure found, the retirement list; a die with
fewer than 6,000 live elements is no compute die and has no logical number; a controller writes its die's block at its place,
that of position d at 0x3_000F_FFF0_0000 + 1,024 × d, at each 1 ms of its lcnt, and no byte outside its block and those of the
router-only dies whose stack it owns; at 105 °C a plot's clock is limited to 25 MHz less than it runs at, not below 400, and below
100 °C a limit rises by 25 MHz to what was asked. The encoding of the failures that self-test finds is the model's (log 65), the
errors corrected since the last update and the power are its free values (log 6), and from when to when a limit holds is its
choice (log 99). -/
def Obligations.BootAndPhysics : Prop :=
  (∀ (s : State) fails halves, ∃ u : State, exec (.moduleReset fails halves) s = .next u ∧ u.hw.boot = Nat.min (s.hw.boot + 1) 0xFFFFFFFF ∧
    u.hw.sessions = [] ∧ u.launches = [] ∧ u.store = [] ∧ u.hw.journal = [] ∧ u.packets = [] ∧ u.elems = [] ∧
    u.hw.udpPort = s.hw.nextPort ∧ u.hw.part = s.hw.part ∧ (fails = [] → u.hw.retire = s.hw.retire ∧ u.hw.recovery = false) ∧
    ((∀ f ∈ fails, recLevel f = 3 → recUnit f ≠ 16) → ∀ d, d < 64 → 6400 - (u.dieMap d).deadElems.length < 6000 →
      (u.dieMap d).cls ≠ .compute ∧ (u.dieMap d).ldie = none)) ∧
  (∀ (s : State) die, let due := BitVec.ofNat 64 (1000000 * ((s.tel die).updates + 1))
    die < 64 → s.isCompute die = true → (s.ctrl die).released = true → (s.ctrl die).halted = none → Memory.wf s.phys = true →
      ∃ u : State, exec (.telemetryUpdate die) s = .next u ∧ (u.tel die).updates = (s.tel die).updates + 1 ∧ u.elems = s.elems ∧
        (u.ctrl die).lcnt = (if (s.ctrl die).lcnt.toNat < due.toNat then due else (s.ctrl die).lcnt) ∧
        (u.tel die).corrected = (s.tel die).corrected + Config.freeCorrected die s.free ∧
        Memory.readBytes u.phys (0x0003000FFFF00000 + 1024 * die) 1024 = (telemetryWords s u die).flatMap wordBytes ∧
        ∀ a, (∀ d ∈ die :: s.unattached die, a < 0x0003000FFFF00000 + 1024 * d ∨ 0x0003000FFFF00000 + 1024 * d + 1024 ≤ a) →
          Memory.get u.phys a = Memory.get s.phys a) ∧
  ∀ (s : State) die plot tenths, let x := s.plot (die * 400 + plot)
    (s.dieMap die).cls ≠ .dead → plot < 400 →
      (1050 ≤ tenths → (tenths < 1200 ∨ 400 < x.mhz) → ∃ u : State, exec (.thermal die plot tenths) s = .next u ∧
        (u.plot (die * 400 + plot)).mhz = Nat.min x.asked (Nat.max 400 (x.mhz - 25)) ∧
        (u.plot (die * 400 + plot)).limit = some (Nat.max 400 (x.mhz - 25)) ∧
        (u.plot (die * 400 + plot)).hot = tenths ∧ u.elems = s.elems) ∧
      (1000 ≤ tenths → tenths < 1050 → exec (.thermal die plot tenths) s =
        .next (s.setPlot (die * 400 + plot) { x with hot := tenths })) ∧
      (∀ n, tenths < 1000 → x.limit = some n → ∃ u : State, exec (.thermal die plot tenths) s = .next u ∧
        (u.plot (die * 400 + plot)).mhz = Nat.min (n + 25) x.asked ∧
        (u.plot (die * 400 + plot)).limit = (if n + 25 < x.asked then some (n + 25) else none) ∧ u.elems = s.elems) ∧
      (tenths < 1000 → x.limit = none → ∃ u : State, exec (.thermal die plot tenths) s = .next u ∧
        (u.plot (die * 400 + plot)).mhz = x.asked ∧ u.elems = s.elems) ∧
      (1200 ≤ tenths → x.mhz ≤ 400 → ∃ u : State, exec (.thermal die plot tenths) s = .next u ∧ u.launches = [] ∧
        u.hw.boot = Nat.min (s.hw.boot + 1) 0xFFFFFFFF)
end

