-- ==== Sys2Proof/Laws/Memory.lean ====
section
/-! SUPPORT. Laws of byte memories: reading after writing, and the canonical form, which every operation keeps. -/

namespace Sys2Proof.Machine

/-! ## Reading after writing elsewhere -/

theorem Memory.get_set_other (m : Mem) {a x : Nat} (b : Byte) (h : x ≠ a) :
    Memory.get (Memory.set m a b) x = Memory.get m x := by
  induction m with
  | nil =>
    simp only [Memory.set]
    split <;> simp [Memory.get, Ne.symm h]
  | cons p t ih =>
    obtain ⟨k, v⟩ := p
    simp only [Memory.set]
    split
    · split <;> simp [Memory.get, Ne.symm h]
    · split
      · rename_i h2
        subst h2
        split <;> simp [Memory.get, Ne.symm h]
      · simp [Memory.get, ih]

theorem Memory.get_write_other (n : Nat) : ∀ (m : Mem) (a v x : Nat), (x < a ∨ a + n ≤ x) →
    Memory.get (Memory.write m a v n) x = Memory.get m x := by
  induction n with
  | zero => intros; rfl
  | succ n ih =>
    intro m a v x h
    rw [Memory.write, ih _ _ _ _ (by omega), Memory.get_set_other _ _ (by omega)]

theorem Memory.get_writeBytes_other (l : List Byte) : ∀ (m : Mem) (a x : Nat), (x < a ∨ a + l.length ≤ x) →
    Memory.get (Memory.writeBytes m a l) x = Memory.get m x := by
  induction l with
  | nil => intros; rfl
  | cons b l ih =>
    intro m a x h
    simp only [List.length_cons] at h
    rw [Memory.writeBytes, ih _ _ _ (by omega), Memory.get_set_other _ _ (by omega)]

/-! ## The canonical form -/

/-- Every address of a memory lies above one. -/
def Memory.above (a : Nat) (m : Mem) : Prop := ∀ p ∈ m, a < p.1

theorem Memory.wf_cons (k : Nat) (v : Byte) (t : Mem) :
    Memory.wf ((k, v) :: t) = true ↔ v ≠ 0 ∧ Memory.above k t ∧ Memory.wf t = true := by
  induction t generalizing k v with
  | nil => simp [Memory.wf, Memory.above]
  | cons p t ih =>
    obtain ⟨k', v'⟩ := p
    have := ih k' v'
    constructor
    · intro h
      simp only [Memory.wf, Bool.and_eq_true, decide_eq_true_eq] at h
      obtain ⟨⟨hv, hk⟩, hw⟩ := h
      refine ⟨by simpa using hv, ?_, hw⟩
      intro q hq
      rcases List.mem_cons.1 hq with rfl | hq
      · exact hk
      · exact lt_trans hk ((this.1 hw).2.1 q hq)
    · rintro ⟨hv, ha, hw⟩
      simp only [Memory.wf, Bool.and_eq_true, decide_eq_true_eq]
      exact ⟨⟨by simpa using hv, ha (k', v') (by simp)⟩, hw⟩

theorem Memory.above_set {m : Mem} {k a : Nat} (b : Byte) (h : Memory.above k m) (hk : k < a) :
    Memory.above k (Memory.set m a b) := by
  induction m with
  | nil =>
    simp only [Memory.set]
    split <;> simp [Memory.above, hk]
  | cons p t ih =>
    obtain ⟨j, v⟩ := p
    have ht : Memory.above k t := fun q hq => h q (List.mem_cons_of_mem _ hq)
    have hj : k < j := h (j, v) (by simp)
    simp only [Memory.set]
    split
    · split
      · exact h
      · intro q hq
        rcases List.mem_cons.1 hq with rfl | hq
        · exact hk
        · exact h q hq
    · split
      · split
        · exact ht
        · intro q hq
          rcases List.mem_cons.1 hq with rfl | hq
          · exact hk
          · exact ht q hq
      · intro q hq
        rcases List.mem_cons.1 hq with rfl | hq
        · exact hj
        · exact ih ht q hq

theorem Memory.wf_set {m : Mem} (a : Nat) (b : Byte) (h : Memory.wf m = true) : Memory.wf (Memory.set m a b) = true := by
  induction m with
  | nil =>
    simp only [Memory.set]
    split
    · rfl
    · rename_i hb
      simpa [Memory.wf] using hb
  | cons p t ih =>
    obtain ⟨k, v⟩ := p
    obtain ⟨hv, ha, ht⟩ := (Memory.wf_cons k v t).1 h
    simp only [Memory.set]
    split
    · split
      · exact h
      · rename_i hk hb
        refine (Memory.wf_cons _ _ _).2 ⟨hb, ?_, h⟩
        intro q hq
        rcases List.mem_cons.1 hq with rfl | hq
        · exact hk
        · exact lt_trans hk (ha q hq)
    · split
      · rename_i hk hak
        subst hak
        split
        · exact ht
        · rename_i hb
          exact (Memory.wf_cons _ _ _).2 ⟨hb, ha, ht⟩
      · exact (Memory.wf_cons _ _ _).2 ⟨hv, Memory.above_set b ha (by omega), ih ht⟩

theorem Memory.wf_write (n : Nat) : ∀ (m : Mem) (a v : Nat), Memory.wf m = true → Memory.wf (Memory.write m a v n) = true := by
  induction n with
  | zero => intros; assumption
  | succ n ih => intro m a v h; exact ih _ _ _ (Memory.wf_set _ _ h)

theorem Memory.wf_writeBytes (l : List Byte) : ∀ (m : Mem) (a : Nat), Memory.wf m = true →
    Memory.wf (Memory.writeBytes m a l) = true := by
  induction l with
  | nil => intros; assumption
  | cons b l ih => intro m a h; exact ih _ _ (Memory.wf_set _ _ h)

/-! ## Reading what was written -/

theorem Memory.get_of_above {m : Mem} {a : Nat} (h : Memory.above a m) : Memory.get m a = 0 := by
  induction m with
  | nil => rfl
  | cons p t ih =>
    obtain ⟨k, v⟩ := p
    have hk : a < k := h (k, v) (by simp)
    have : k ≠ a := by omega
    simp [Memory.get, this, ih fun q hq => h q (List.mem_cons_of_mem _ hq)]

theorem Memory.get_set_same {m : Mem} (a : Nat) (b : Byte) (h : Memory.wf m = true) :
    Memory.get (Memory.set m a b) a = b := by
  induction m with
  | nil =>
    simp only [Memory.set]
    split <;> simp_all [Memory.get]
  | cons p t ih =>
    obtain ⟨k, v⟩ := p
    obtain ⟨hv, ha, ht⟩ := (Memory.wf_cons k v t).1 h
    simp only [Memory.set]
    split
    · rename_i hk
      split
      · rename_i hb
        have hka : k ≠ a := by omega
        simp [Memory.get, hka, hb, Memory.get_of_above fun q hq => lt_trans hk (ha q hq)]
      · simp [Memory.get]
    · split
      · rename_i hk hak
        subst hak
        split
        · rename_i hb
          simp [hb, Memory.get_of_above ha]
        · simp [Memory.get]
      · rename_i hk hak
        simp [Memory.get, Ne.symm hak, ih ht]

theorem Memory.read_set_below (n : Nat) : ∀ (m : Mem) (a x : Nat) (b : Byte), a < x →
    Memory.read (Memory.set m a b) x n = Memory.read m x n := by
  induction n with
  | zero => intros; rfl
  | succ n ih =>
    intro m a x b h
    rw [Memory.read, Memory.read, Memory.get_set_other _ _ (by omega), ih _ _ _ _ (by omega)]

/-- The number written is the number read, as far as it fits. -/
theorem Memory.read_write_same (n : Nat) : ∀ (m : Mem) (a v : Nat), Memory.wf m = true →
    Memory.read (Memory.write m a v n) a n = v % 256 ^ n := by
  induction n with
  | zero => intro m a v _; simp [Memory.read, Nat.mod_one]
  | succ n ih =>
    intro m a v h
    have hw := Memory.wf_set a (BitVec.ofNat 8 v) h
    rw [Memory.read, Memory.write, ih _ _ _ hw, Memory.get_write_other _ _ _ _ _ (by omega), Memory.get_set_same _ _ h]
    rw [BitVec.toNat_ofNat, show (2 : Nat) ^ 8 = 256 from rfl, Nat.pow_succ', Nat.mod_mul (x := v) (a := 256)]

theorem Memory.read_write_other (k : Nat) : ∀ (m : Mem) (a v n x : Nat), (x + k ≤ a ∨ a + n ≤ x) →
    Memory.read (Memory.write m a v n) x k = Memory.read m x k := by
  induction k with
  | zero => intros; rfl
  | succ k ih =>
    intro m a v n x h
    rw [Memory.read, Memory.read, Memory.get_write_other _ _ _ _ _ (by omega), ih _ _ _ _ _ (by omega)]

/-- A copy of n bytes of one memory, placed in another, reads as they do. -/
theorem Memory.get_copy (n : Nat) : ∀ (m : Mem) (a i : Nat) (t : Mem) (b : Nat), Memory.wf t = true → i < n →
    Memory.get (Memory.writeBytes t b (Memory.readBytes m a n)) (b + i) = Memory.get m (a + i) := by
  induction n with
  | zero => intros; omega
  | succ n ih =>
    intro m a i t b h hi
    rw [Memory.readBytes, Memory.writeBytes]
    cases i with
    | zero => rw [Memory.get_writeBytes_other _ _ _ _ (by omega), Nat.add_zero, Nat.add_zero, Memory.get_set_same _ _ h]
    | succ i =>
      have := ih m (a + 1) i (Memory.set t b (Memory.get m a)) (b + 1) (Memory.wf_set _ _ h) (by omega)
      rw [show b + (i + 1) = b + 1 + i by omega, this, show a + 1 + i = a + (i + 1) by omega]

/-- Reading n of those bytes. -/
theorem Memory.read_copy (n : Nat) : ∀ (m : Mem) (a i k : Nat) (t : Mem) (b : Nat), Memory.wf t = true → i + n ≤ k →
    Memory.read (Memory.writeBytes t b (Memory.readBytes m a k)) (b + i) n = Memory.read m (a + i) n := by
  induction n with
  | zero => intros; rfl
  | succ n ih =>
    intro m a i k t b h hk
    rw [Memory.read, Memory.read, Memory.get_copy k m a i t b h (by omega), Nat.add_assoc b i 1, ih m a (i + 1) k t b h (by omega),
      Nat.add_assoc a i 1]

end Sys2Proof.Machine
end

