-- ==== Sys2Proof/Laws/State.lean ====
section
/-! SUPPORT. One lemma per field of State per update, so that no proof unfolds a record update. -/

namespace Sys2Proof.Machine

variable (s : State)

/-! ## setElem -/

@[simp] theorem State.setElem_agenda (k : Nat) (e : Element) : (s.setElem k e).agenda = s.agenda := rfl
@[simp] theorem State.setElem_focus (k : Nat) (e : Element) : (s.setElem k e).focus = s.focus := rfl
@[simp] theorem State.setElem_free (k : Nat) (e : Element) : (s.setElem k e).free = s.free := rfl
@[simp] theorem State.setElem_elems (k : Nat) (e : Element) : (s.setElem k e).elems = tabSet s.elems k e := rfl
@[simp] theorem State.setElem_ctrls (k : Nat) (e : Element) : (s.setElem k e).ctrls = s.ctrls := rfl
@[simp] theorem State.setElem_plots (k : Nat) (e : Element) : (s.setElem k e).plots = s.plots := rfl
@[simp] theorem State.setElem_mas (k : Nat) (e : Element) : (s.setElem k e).mas = s.mas := rfl
@[simp] theorem State.setElem_nodes (k : Nat) (e : Element) : (s.setElem k e).nodes = s.nodes := rfl
@[simp] theorem State.setElem_heads (k : Nat) (e : Element) : (s.setElem k e).heads = s.heads := rfl
@[simp] theorem State.setElem_outs (k : Nat) (e : Element) : (s.setElem k e).outs = s.outs := rfl
@[simp] theorem State.setElem_pools (k : Nat) (e : Element) : (s.setElem k e).pools = s.pools := rfl
@[simp] theorem State.setElem_stagings (k : Nat) (e : Element) : (s.setElem k e).stagings = s.stagings := rfl
@[simp] theorem State.setElem_roots (k : Nat) (e : Element) : (s.setElem k e).roots = s.roots := rfl
@[simp] theorem State.setElem_seqs (k : Nat) (e : Element) : (s.setElem k e).seqs = s.seqs := rfl
@[simp] theorem State.setElem_grants (k : Nat) (e : Element) : (s.setElem k e).grants = s.grants := rfl
@[simp] theorem State.setElem_telem (k : Nat) (e : Element) : (s.setElem k e).telem = s.telem := rfl
@[simp] theorem State.setElem_links (k : Nat) (e : Element) : (s.setElem k e).links = s.links := rfl
@[simp] theorem State.setElem_linkFaults (k : Nat) (e : Element) : (s.setElem k e).linkFaults = s.linkFaults := rfl
@[simp] theorem State.setElem_windows (k : Nat) (e : Element) : (s.setElem k e).windows = s.windows := rfl
@[simp] theorem State.setElem_inbound (k : Nat) (e : Element) : (s.setElem k e).inbound = s.inbound := rfl
@[simp] theorem State.setElem_binds (k : Nat) (e : Element) : (s.setElem k e).binds = s.binds := rfl
@[simp] theorem State.setElem_chans (k : Nat) (e : Element) : (s.setElem k e).chans = s.chans := rfl
@[simp] theorem State.setElem_depths (k : Nat) (e : Element) : (s.setElem k e).depths = s.depths := rfl
@[simp] theorem State.setElem_packets (k : Nat) (e : Element) : (s.setElem k e).packets = s.packets := rfl
@[simp] theorem State.setElem_notices (k : Nat) (e : Element) : (s.setElem k e).notices = s.notices := rfl
@[simp] theorem State.setElem_levee (k : Nat) (e : Element) : (s.setElem k e).levee = s.levee := rfl
@[simp] theorem State.setElem_repairs (k : Nat) (e : Element) : (s.setElem k e).repairs = s.repairs := rfl
@[simp] theorem State.setElem_launches (k : Nat) (e : Element) : (s.setElem k e).launches = s.launches := rfl
@[simp] theorem State.setElem_arrivals (k : Nat) (e : Element) : (s.setElem k e).arrivals = s.arrivals := rfl
@[simp] theorem State.setElem_store (k : Nat) (e : Element) : (s.setElem k e).store = s.store := rfl
@[simp] theorem State.setElem_phys (k : Nat) (e : Element) : (s.setElem k e).phys = s.phys := rfl
@[simp] theorem State.setElem_bad (k : Nat) (e : Element) : (s.setElem k e).bad = s.bad := rfl
@[simp] theorem State.setElem_live (k : Nat) (e : Element) : (s.setElem k e).live = s.live := rfl
@[simp] theorem State.setElem_hw (k : Nat) (e : Element) : (s.setElem k e).hw = s.hw := rfl

/-! ## setCtrl -/

@[simp] theorem State.setCtrl_agenda (k : Nat) (c : Controller) : (s.setCtrl k c).agenda = s.agenda := rfl
@[simp] theorem State.setCtrl_focus (k : Nat) (c : Controller) : (s.setCtrl k c).focus = s.focus := rfl
@[simp] theorem State.setCtrl_free (k : Nat) (c : Controller) : (s.setCtrl k c).free = s.free := rfl
@[simp] theorem State.setCtrl_elems (k : Nat) (c : Controller) : (s.setCtrl k c).elems = s.elems := rfl
@[simp] theorem State.setCtrl_ctrls (k : Nat) (c : Controller) : (s.setCtrl k c).ctrls = tabSet s.ctrls k c := rfl
@[simp] theorem State.setCtrl_plots (k : Nat) (c : Controller) : (s.setCtrl k c).plots = s.plots := rfl
@[simp] theorem State.setCtrl_mas (k : Nat) (c : Controller) : (s.setCtrl k c).mas = s.mas := rfl
@[simp] theorem State.setCtrl_nodes (k : Nat) (c : Controller) : (s.setCtrl k c).nodes = s.nodes := rfl
@[simp] theorem State.setCtrl_heads (k : Nat) (c : Controller) : (s.setCtrl k c).heads = s.heads := rfl
@[simp] theorem State.setCtrl_outs (k : Nat) (c : Controller) : (s.setCtrl k c).outs = s.outs := rfl
@[simp] theorem State.setCtrl_pools (k : Nat) (c : Controller) : (s.setCtrl k c).pools = s.pools := rfl
@[simp] theorem State.setCtrl_stagings (k : Nat) (c : Controller) : (s.setCtrl k c).stagings = s.stagings := rfl
@[simp] theorem State.setCtrl_roots (k : Nat) (c : Controller) : (s.setCtrl k c).roots = s.roots := rfl
@[simp] theorem State.setCtrl_seqs (k : Nat) (c : Controller) : (s.setCtrl k c).seqs = s.seqs := rfl
@[simp] theorem State.setCtrl_grants (k : Nat) (c : Controller) : (s.setCtrl k c).grants = s.grants := rfl
@[simp] theorem State.setCtrl_telem (k : Nat) (c : Controller) : (s.setCtrl k c).telem = s.telem := rfl
@[simp] theorem State.setCtrl_links (k : Nat) (c : Controller) : (s.setCtrl k c).links = s.links := rfl
@[simp] theorem State.setCtrl_linkFaults (k : Nat) (c : Controller) : (s.setCtrl k c).linkFaults = s.linkFaults := rfl
@[simp] theorem State.setCtrl_windows (k : Nat) (c : Controller) : (s.setCtrl k c).windows = s.windows := rfl
@[simp] theorem State.setCtrl_inbound (k : Nat) (c : Controller) : (s.setCtrl k c).inbound = s.inbound := rfl
@[simp] theorem State.setCtrl_binds (k : Nat) (c : Controller) : (s.setCtrl k c).binds = s.binds := rfl
@[simp] theorem State.setCtrl_chans (k : Nat) (c : Controller) : (s.setCtrl k c).chans = s.chans := rfl
@[simp] theorem State.setCtrl_depths (k : Nat) (c : Controller) : (s.setCtrl k c).depths = s.depths := rfl
@[simp] theorem State.setCtrl_packets (k : Nat) (c : Controller) : (s.setCtrl k c).packets = s.packets := rfl
@[simp] theorem State.setCtrl_notices (k : Nat) (c : Controller) : (s.setCtrl k c).notices = s.notices := rfl
@[simp] theorem State.setCtrl_levee (k : Nat) (c : Controller) : (s.setCtrl k c).levee = s.levee := rfl
@[simp] theorem State.setCtrl_repairs (k : Nat) (c : Controller) : (s.setCtrl k c).repairs = s.repairs := rfl
@[simp] theorem State.setCtrl_launches (k : Nat) (c : Controller) : (s.setCtrl k c).launches = s.launches := rfl
@[simp] theorem State.setCtrl_arrivals (k : Nat) (c : Controller) : (s.setCtrl k c).arrivals = s.arrivals := rfl
@[simp] theorem State.setCtrl_store (k : Nat) (c : Controller) : (s.setCtrl k c).store = s.store := rfl
@[simp] theorem State.setCtrl_phys (k : Nat) (c : Controller) : (s.setCtrl k c).phys = s.phys := rfl
@[simp] theorem State.setCtrl_bad (k : Nat) (c : Controller) : (s.setCtrl k c).bad = s.bad := rfl
@[simp] theorem State.setCtrl_live (k : Nat) (c : Controller) : (s.setCtrl k c).live = s.live := rfl
@[simp] theorem State.setCtrl_hw (k : Nat) (c : Controller) : (s.setCtrl k c).hw = s.hw := rfl

/-! ## setPlot -/

@[simp] theorem State.setPlot_agenda (k : Nat) (p : Plot) : (s.setPlot k p).agenda = s.agenda := rfl
@[simp] theorem State.setPlot_focus (k : Nat) (p : Plot) : (s.setPlot k p).focus = s.focus := rfl
@[simp] theorem State.setPlot_free (k : Nat) (p : Plot) : (s.setPlot k p).free = s.free := rfl
@[simp] theorem State.setPlot_elems (k : Nat) (p : Plot) : (s.setPlot k p).elems = s.elems := rfl
@[simp] theorem State.setPlot_ctrls (k : Nat) (p : Plot) : (s.setPlot k p).ctrls = s.ctrls := rfl
@[simp] theorem State.setPlot_plots (k : Nat) (p : Plot) : (s.setPlot k p).plots = tabSet s.plots k p := rfl
@[simp] theorem State.setPlot_mas (k : Nat) (p : Plot) : (s.setPlot k p).mas = s.mas := rfl
@[simp] theorem State.setPlot_nodes (k : Nat) (p : Plot) : (s.setPlot k p).nodes = s.nodes := rfl
@[simp] theorem State.setPlot_heads (k : Nat) (p : Plot) : (s.setPlot k p).heads = s.heads := rfl
@[simp] theorem State.setPlot_outs (k : Nat) (p : Plot) : (s.setPlot k p).outs = s.outs := rfl
@[simp] theorem State.setPlot_pools (k : Nat) (p : Plot) : (s.setPlot k p).pools = s.pools := rfl
@[simp] theorem State.setPlot_stagings (k : Nat) (p : Plot) : (s.setPlot k p).stagings = s.stagings := rfl
@[simp] theorem State.setPlot_roots (k : Nat) (p : Plot) : (s.setPlot k p).roots = s.roots := rfl
@[simp] theorem State.setPlot_seqs (k : Nat) (p : Plot) : (s.setPlot k p).seqs = s.seqs := rfl
@[simp] theorem State.setPlot_grants (k : Nat) (p : Plot) : (s.setPlot k p).grants = s.grants := rfl
@[simp] theorem State.setPlot_telem (k : Nat) (p : Plot) : (s.setPlot k p).telem = s.telem := rfl
@[simp] theorem State.setPlot_links (k : Nat) (p : Plot) : (s.setPlot k p).links = s.links := rfl
@[simp] theorem State.setPlot_linkFaults (k : Nat) (p : Plot) : (s.setPlot k p).linkFaults = s.linkFaults := rfl
@[simp] theorem State.setPlot_windows (k : Nat) (p : Plot) : (s.setPlot k p).windows = s.windows := rfl
@[simp] theorem State.setPlot_inbound (k : Nat) (p : Plot) : (s.setPlot k p).inbound = s.inbound := rfl
@[simp] theorem State.setPlot_binds (k : Nat) (p : Plot) : (s.setPlot k p).binds = s.binds := rfl
@[simp] theorem State.setPlot_chans (k : Nat) (p : Plot) : (s.setPlot k p).chans = s.chans := rfl
@[simp] theorem State.setPlot_depths (k : Nat) (p : Plot) : (s.setPlot k p).depths = s.depths := rfl
@[simp] theorem State.setPlot_packets (k : Nat) (p : Plot) : (s.setPlot k p).packets = s.packets := rfl
@[simp] theorem State.setPlot_notices (k : Nat) (p : Plot) : (s.setPlot k p).notices = s.notices := rfl
@[simp] theorem State.setPlot_levee (k : Nat) (p : Plot) : (s.setPlot k p).levee = s.levee := rfl
@[simp] theorem State.setPlot_repairs (k : Nat) (p : Plot) : (s.setPlot k p).repairs = s.repairs := rfl
@[simp] theorem State.setPlot_launches (k : Nat) (p : Plot) : (s.setPlot k p).launches = s.launches := rfl
@[simp] theorem State.setPlot_arrivals (k : Nat) (p : Plot) : (s.setPlot k p).arrivals = s.arrivals := rfl
@[simp] theorem State.setPlot_store (k : Nat) (p : Plot) : (s.setPlot k p).store = s.store := rfl
@[simp] theorem State.setPlot_phys (k : Nat) (p : Plot) : (s.setPlot k p).phys = s.phys := rfl
@[simp] theorem State.setPlot_bad (k : Nat) (p : Plot) : (s.setPlot k p).bad = s.bad := rfl
@[simp] theorem State.setPlot_live (k : Nat) (p : Plot) : (s.setPlot k p).live = s.live := rfl
@[simp] theorem State.setPlot_hw (k : Nat) (p : Plot) : (s.setPlot k p).hw = s.hw := rfl

/-! ## setMa -/

@[simp] theorem State.setMa_agenda (k : Nat) (m : MemActor) : (s.setMa k m).agenda = s.agenda := rfl
@[simp] theorem State.setMa_focus (k : Nat) (m : MemActor) : (s.setMa k m).focus = s.focus := rfl
@[simp] theorem State.setMa_free (k : Nat) (m : MemActor) : (s.setMa k m).free = s.free := rfl
@[simp] theorem State.setMa_elems (k : Nat) (m : MemActor) : (s.setMa k m).elems = s.elems := rfl
@[simp] theorem State.setMa_ctrls (k : Nat) (m : MemActor) : (s.setMa k m).ctrls = s.ctrls := rfl
@[simp] theorem State.setMa_plots (k : Nat) (m : MemActor) : (s.setMa k m).plots = s.plots := rfl
@[simp] theorem State.setMa_mas (k : Nat) (m : MemActor) : (s.setMa k m).mas = tabSet s.mas k m := rfl
@[simp] theorem State.setMa_nodes (k : Nat) (m : MemActor) : (s.setMa k m).nodes = s.nodes := rfl
@[simp] theorem State.setMa_heads (k : Nat) (m : MemActor) : (s.setMa k m).heads = s.heads := rfl
@[simp] theorem State.setMa_outs (k : Nat) (m : MemActor) : (s.setMa k m).outs = s.outs := rfl
@[simp] theorem State.setMa_pools (k : Nat) (m : MemActor) : (s.setMa k m).pools = s.pools := rfl
@[simp] theorem State.setMa_stagings (k : Nat) (m : MemActor) : (s.setMa k m).stagings = s.stagings := rfl
@[simp] theorem State.setMa_roots (k : Nat) (m : MemActor) : (s.setMa k m).roots = s.roots := rfl
@[simp] theorem State.setMa_seqs (k : Nat) (m : MemActor) : (s.setMa k m).seqs = s.seqs := rfl
@[simp] theorem State.setMa_grants (k : Nat) (m : MemActor) : (s.setMa k m).grants = s.grants := rfl
@[simp] theorem State.setMa_telem (k : Nat) (m : MemActor) : (s.setMa k m).telem = s.telem := rfl
@[simp] theorem State.setMa_links (k : Nat) (m : MemActor) : (s.setMa k m).links = s.links := rfl
@[simp] theorem State.setMa_linkFaults (k : Nat) (m : MemActor) : (s.setMa k m).linkFaults = s.linkFaults := rfl
@[simp] theorem State.setMa_windows (k : Nat) (m : MemActor) : (s.setMa k m).windows = s.windows := rfl
@[simp] theorem State.setMa_inbound (k : Nat) (m : MemActor) : (s.setMa k m).inbound = s.inbound := rfl
@[simp] theorem State.setMa_binds (k : Nat) (m : MemActor) : (s.setMa k m).binds = s.binds := rfl
@[simp] theorem State.setMa_chans (k : Nat) (m : MemActor) : (s.setMa k m).chans = s.chans := rfl
@[simp] theorem State.setMa_depths (k : Nat) (m : MemActor) : (s.setMa k m).depths = s.depths := rfl
@[simp] theorem State.setMa_packets (k : Nat) (m : MemActor) : (s.setMa k m).packets = s.packets := rfl
@[simp] theorem State.setMa_notices (k : Nat) (m : MemActor) : (s.setMa k m).notices = s.notices := rfl
@[simp] theorem State.setMa_levee (k : Nat) (m : MemActor) : (s.setMa k m).levee = s.levee := rfl
@[simp] theorem State.setMa_repairs (k : Nat) (m : MemActor) : (s.setMa k m).repairs = s.repairs := rfl
@[simp] theorem State.setMa_launches (k : Nat) (m : MemActor) : (s.setMa k m).launches = s.launches := rfl
@[simp] theorem State.setMa_arrivals (k : Nat) (m : MemActor) : (s.setMa k m).arrivals = s.arrivals := rfl
@[simp] theorem State.setMa_store (k : Nat) (m : MemActor) : (s.setMa k m).store = s.store := rfl
@[simp] theorem State.setMa_phys (k : Nat) (m : MemActor) : (s.setMa k m).phys = s.phys := rfl
@[simp] theorem State.setMa_bad (k : Nat) (m : MemActor) : (s.setMa k m).bad = s.bad := rfl
@[simp] theorem State.setMa_live (k : Nat) (m : MemActor) : (s.setMa k m).live = s.live := rfl
@[simp] theorem State.setMa_hw (k : Nat) (m : MemActor) : (s.setMa k m).hw = s.hw := rfl

/-! ## setNode -/

@[simp] theorem State.setNode_agenda (k : Nat) (n : Node) : (s.setNode k n).agenda = s.agenda := rfl
@[simp] theorem State.setNode_focus (k : Nat) (n : Node) : (s.setNode k n).focus = s.focus := rfl
@[simp] theorem State.setNode_free (k : Nat) (n : Node) : (s.setNode k n).free = s.free := rfl
@[simp] theorem State.setNode_elems (k : Nat) (n : Node) : (s.setNode k n).elems = s.elems := rfl
@[simp] theorem State.setNode_ctrls (k : Nat) (n : Node) : (s.setNode k n).ctrls = s.ctrls := rfl
@[simp] theorem State.setNode_plots (k : Nat) (n : Node) : (s.setNode k n).plots = s.plots := rfl
@[simp] theorem State.setNode_mas (k : Nat) (n : Node) : (s.setNode k n).mas = s.mas := rfl
@[simp] theorem State.setNode_nodes (k : Nat) (n : Node) : (s.setNode k n).nodes = tabSet s.nodes k n := rfl
@[simp] theorem State.setNode_heads (k : Nat) (n : Node) : (s.setNode k n).heads = s.heads := rfl
@[simp] theorem State.setNode_outs (k : Nat) (n : Node) : (s.setNode k n).outs = s.outs := rfl
@[simp] theorem State.setNode_pools (k : Nat) (n : Node) : (s.setNode k n).pools = s.pools := rfl
@[simp] theorem State.setNode_stagings (k : Nat) (n : Node) : (s.setNode k n).stagings = s.stagings := rfl
@[simp] theorem State.setNode_roots (k : Nat) (n : Node) : (s.setNode k n).roots = s.roots := rfl
@[simp] theorem State.setNode_seqs (k : Nat) (n : Node) : (s.setNode k n).seqs = s.seqs := rfl
@[simp] theorem State.setNode_grants (k : Nat) (n : Node) : (s.setNode k n).grants = s.grants := rfl
@[simp] theorem State.setNode_telem (k : Nat) (n : Node) : (s.setNode k n).telem = s.telem := rfl
@[simp] theorem State.setNode_links (k : Nat) (n : Node) : (s.setNode k n).links = s.links := rfl
@[simp] theorem State.setNode_linkFaults (k : Nat) (n : Node) : (s.setNode k n).linkFaults = s.linkFaults := rfl
@[simp] theorem State.setNode_windows (k : Nat) (n : Node) : (s.setNode k n).windows = s.windows := rfl
@[simp] theorem State.setNode_inbound (k : Nat) (n : Node) : (s.setNode k n).inbound = s.inbound := rfl
@[simp] theorem State.setNode_binds (k : Nat) (n : Node) : (s.setNode k n).binds = s.binds := rfl
@[simp] theorem State.setNode_chans (k : Nat) (n : Node) : (s.setNode k n).chans = s.chans := rfl
@[simp] theorem State.setNode_depths (k : Nat) (n : Node) : (s.setNode k n).depths = s.depths := rfl
@[simp] theorem State.setNode_packets (k : Nat) (n : Node) : (s.setNode k n).packets = s.packets := rfl
@[simp] theorem State.setNode_notices (k : Nat) (n : Node) : (s.setNode k n).notices = s.notices := rfl
@[simp] theorem State.setNode_levee (k : Nat) (n : Node) : (s.setNode k n).levee = s.levee := rfl
@[simp] theorem State.setNode_repairs (k : Nat) (n : Node) : (s.setNode k n).repairs = s.repairs := rfl
@[simp] theorem State.setNode_launches (k : Nat) (n : Node) : (s.setNode k n).launches = s.launches := rfl
@[simp] theorem State.setNode_arrivals (k : Nat) (n : Node) : (s.setNode k n).arrivals = s.arrivals := rfl
@[simp] theorem State.setNode_store (k : Nat) (n : Node) : (s.setNode k n).store = s.store := rfl
@[simp] theorem State.setNode_phys (k : Nat) (n : Node) : (s.setNode k n).phys = s.phys := rfl
@[simp] theorem State.setNode_bad (k : Nat) (n : Node) : (s.setNode k n).bad = s.bad := rfl
@[simp] theorem State.setNode_live (k : Nat) (n : Node) : (s.setNode k n).live = s.live := rfl
@[simp] theorem State.setNode_hw (k : Nat) (n : Node) : (s.setNode k n).hw = s.hw := rfl

/-! ## setHead -/

@[simp] theorem State.setHead_agenda (k : Nat) (h : Headgate) : (s.setHead k h).agenda = s.agenda := rfl
@[simp] theorem State.setHead_focus (k : Nat) (h : Headgate) : (s.setHead k h).focus = s.focus := rfl
@[simp] theorem State.setHead_free (k : Nat) (h : Headgate) : (s.setHead k h).free = s.free := rfl
@[simp] theorem State.setHead_elems (k : Nat) (h : Headgate) : (s.setHead k h).elems = s.elems := rfl
@[simp] theorem State.setHead_ctrls (k : Nat) (h : Headgate) : (s.setHead k h).ctrls = s.ctrls := rfl
@[simp] theorem State.setHead_plots (k : Nat) (h : Headgate) : (s.setHead k h).plots = s.plots := rfl
@[simp] theorem State.setHead_mas (k : Nat) (h : Headgate) : (s.setHead k h).mas = s.mas := rfl
@[simp] theorem State.setHead_nodes (k : Nat) (h : Headgate) : (s.setHead k h).nodes = s.nodes := rfl
@[simp] theorem State.setHead_heads (k : Nat) (h : Headgate) : (s.setHead k h).heads = tabSet s.heads k h := rfl
@[simp] theorem State.setHead_outs (k : Nat) (h : Headgate) : (s.setHead k h).outs = s.outs := rfl
@[simp] theorem State.setHead_pools (k : Nat) (h : Headgate) : (s.setHead k h).pools = s.pools := rfl
@[simp] theorem State.setHead_stagings (k : Nat) (h : Headgate) : (s.setHead k h).stagings = s.stagings := rfl
@[simp] theorem State.setHead_roots (k : Nat) (h : Headgate) : (s.setHead k h).roots = s.roots := rfl
@[simp] theorem State.setHead_seqs (k : Nat) (h : Headgate) : (s.setHead k h).seqs = s.seqs := rfl
@[simp] theorem State.setHead_grants (k : Nat) (h : Headgate) : (s.setHead k h).grants = s.grants := rfl
@[simp] theorem State.setHead_telem (k : Nat) (h : Headgate) : (s.setHead k h).telem = s.telem := rfl
@[simp] theorem State.setHead_links (k : Nat) (h : Headgate) : (s.setHead k h).links = s.links := rfl
@[simp] theorem State.setHead_linkFaults (k : Nat) (h : Headgate) : (s.setHead k h).linkFaults = s.linkFaults := rfl
@[simp] theorem State.setHead_windows (k : Nat) (h : Headgate) : (s.setHead k h).windows = s.windows := rfl
@[simp] theorem State.setHead_inbound (k : Nat) (h : Headgate) : (s.setHead k h).inbound = s.inbound := rfl
@[simp] theorem State.setHead_binds (k : Nat) (h : Headgate) : (s.setHead k h).binds = s.binds := rfl
@[simp] theorem State.setHead_chans (k : Nat) (h : Headgate) : (s.setHead k h).chans = s.chans := rfl
@[simp] theorem State.setHead_depths (k : Nat) (h : Headgate) : (s.setHead k h).depths = s.depths := rfl
@[simp] theorem State.setHead_packets (k : Nat) (h : Headgate) : (s.setHead k h).packets = s.packets := rfl
@[simp] theorem State.setHead_notices (k : Nat) (h : Headgate) : (s.setHead k h).notices = s.notices := rfl
@[simp] theorem State.setHead_levee (k : Nat) (h : Headgate) : (s.setHead k h).levee = s.levee := rfl
@[simp] theorem State.setHead_repairs (k : Nat) (h : Headgate) : (s.setHead k h).repairs = s.repairs := rfl
@[simp] theorem State.setHead_launches (k : Nat) (h : Headgate) : (s.setHead k h).launches = s.launches := rfl
@[simp] theorem State.setHead_arrivals (k : Nat) (h : Headgate) : (s.setHead k h).arrivals = s.arrivals := rfl
@[simp] theorem State.setHead_store (k : Nat) (h : Headgate) : (s.setHead k h).store = s.store := rfl
@[simp] theorem State.setHead_phys (k : Nat) (h : Headgate) : (s.setHead k h).phys = s.phys := rfl
@[simp] theorem State.setHead_bad (k : Nat) (h : Headgate) : (s.setHead k h).bad = s.bad := rfl
@[simp] theorem State.setHead_live (k : Nat) (h : Headgate) : (s.setHead k h).live = s.live := rfl
@[simp] theorem State.setHead_hw (k : Nat) (h : Headgate) : (s.setHead k h).hw = s.hw := rfl

/-! ## setOut -/

@[simp] theorem State.setOut_agenda (k : Nat) (o : Outfall) : (s.setOut k o).agenda = s.agenda := rfl
@[simp] theorem State.setOut_focus (k : Nat) (o : Outfall) : (s.setOut k o).focus = s.focus := rfl
@[simp] theorem State.setOut_free (k : Nat) (o : Outfall) : (s.setOut k o).free = s.free := rfl
@[simp] theorem State.setOut_elems (k : Nat) (o : Outfall) : (s.setOut k o).elems = s.elems := rfl
@[simp] theorem State.setOut_ctrls (k : Nat) (o : Outfall) : (s.setOut k o).ctrls = s.ctrls := rfl
@[simp] theorem State.setOut_plots (k : Nat) (o : Outfall) : (s.setOut k o).plots = s.plots := rfl
@[simp] theorem State.setOut_mas (k : Nat) (o : Outfall) : (s.setOut k o).mas = s.mas := rfl
@[simp] theorem State.setOut_nodes (k : Nat) (o : Outfall) : (s.setOut k o).nodes = s.nodes := rfl
@[simp] theorem State.setOut_heads (k : Nat) (o : Outfall) : (s.setOut k o).heads = s.heads := rfl
@[simp] theorem State.setOut_outs (k : Nat) (o : Outfall) : (s.setOut k o).outs = tabSet s.outs k o := rfl
@[simp] theorem State.setOut_pools (k : Nat) (o : Outfall) : (s.setOut k o).pools = s.pools := rfl
@[simp] theorem State.setOut_stagings (k : Nat) (o : Outfall) : (s.setOut k o).stagings = s.stagings := rfl
@[simp] theorem State.setOut_roots (k : Nat) (o : Outfall) : (s.setOut k o).roots = s.roots := rfl
@[simp] theorem State.setOut_seqs (k : Nat) (o : Outfall) : (s.setOut k o).seqs = s.seqs := rfl
@[simp] theorem State.setOut_grants (k : Nat) (o : Outfall) : (s.setOut k o).grants = s.grants := rfl
@[simp] theorem State.setOut_telem (k : Nat) (o : Outfall) : (s.setOut k o).telem = s.telem := rfl
@[simp] theorem State.setOut_links (k : Nat) (o : Outfall) : (s.setOut k o).links = s.links := rfl
@[simp] theorem State.setOut_linkFaults (k : Nat) (o : Outfall) : (s.setOut k o).linkFaults = s.linkFaults := rfl
@[simp] theorem State.setOut_windows (k : Nat) (o : Outfall) : (s.setOut k o).windows = s.windows := rfl
@[simp] theorem State.setOut_inbound (k : Nat) (o : Outfall) : (s.setOut k o).inbound = s.inbound := rfl
@[simp] theorem State.setOut_binds (k : Nat) (o : Outfall) : (s.setOut k o).binds = s.binds := rfl
@[simp] theorem State.setOut_chans (k : Nat) (o : Outfall) : (s.setOut k o).chans = s.chans := rfl
@[simp] theorem State.setOut_depths (k : Nat) (o : Outfall) : (s.setOut k o).depths = s.depths := rfl
@[simp] theorem State.setOut_packets (k : Nat) (o : Outfall) : (s.setOut k o).packets = s.packets := rfl
@[simp] theorem State.setOut_notices (k : Nat) (o : Outfall) : (s.setOut k o).notices = s.notices := rfl
@[simp] theorem State.setOut_levee (k : Nat) (o : Outfall) : (s.setOut k o).levee = s.levee := rfl
@[simp] theorem State.setOut_repairs (k : Nat) (o : Outfall) : (s.setOut k o).repairs = s.repairs := rfl
@[simp] theorem State.setOut_launches (k : Nat) (o : Outfall) : (s.setOut k o).launches = s.launches := rfl
@[simp] theorem State.setOut_arrivals (k : Nat) (o : Outfall) : (s.setOut k o).arrivals = s.arrivals := rfl
@[simp] theorem State.setOut_store (k : Nat) (o : Outfall) : (s.setOut k o).store = s.store := rfl
@[simp] theorem State.setOut_phys (k : Nat) (o : Outfall) : (s.setOut k o).phys = s.phys := rfl
@[simp] theorem State.setOut_bad (k : Nat) (o : Outfall) : (s.setOut k o).bad = s.bad := rfl
@[simp] theorem State.setOut_live (k : Nat) (o : Outfall) : (s.setOut k o).live = s.live := rfl
@[simp] theorem State.setOut_hw (k : Nat) (o : Outfall) : (s.setOut k o).hw = s.hw := rfl

/-! ## setPool -/

@[simp] theorem State.setPool_agenda (k : Nat) (p : Pool) : (s.setPool k p).agenda = s.agenda := rfl
@[simp] theorem State.setPool_focus (k : Nat) (p : Pool) : (s.setPool k p).focus = s.focus := rfl
@[simp] theorem State.setPool_free (k : Nat) (p : Pool) : (s.setPool k p).free = s.free := rfl
@[simp] theorem State.setPool_elems (k : Nat) (p : Pool) : (s.setPool k p).elems = s.elems := rfl
@[simp] theorem State.setPool_ctrls (k : Nat) (p : Pool) : (s.setPool k p).ctrls = s.ctrls := rfl
@[simp] theorem State.setPool_plots (k : Nat) (p : Pool) : (s.setPool k p).plots = s.plots := rfl
@[simp] theorem State.setPool_mas (k : Nat) (p : Pool) : (s.setPool k p).mas = s.mas := rfl
@[simp] theorem State.setPool_nodes (k : Nat) (p : Pool) : (s.setPool k p).nodes = s.nodes := rfl
@[simp] theorem State.setPool_heads (k : Nat) (p : Pool) : (s.setPool k p).heads = s.heads := rfl
@[simp] theorem State.setPool_outs (k : Nat) (p : Pool) : (s.setPool k p).outs = s.outs := rfl
@[simp] theorem State.setPool_pools (k : Nat) (p : Pool) : (s.setPool k p).pools = tabSet s.pools k p := rfl
@[simp] theorem State.setPool_stagings (k : Nat) (p : Pool) : (s.setPool k p).stagings = s.stagings := rfl
@[simp] theorem State.setPool_roots (k : Nat) (p : Pool) : (s.setPool k p).roots = s.roots := rfl
@[simp] theorem State.setPool_seqs (k : Nat) (p : Pool) : (s.setPool k p).seqs = s.seqs := rfl
@[simp] theorem State.setPool_grants (k : Nat) (p : Pool) : (s.setPool k p).grants = s.grants := rfl
@[simp] theorem State.setPool_telem (k : Nat) (p : Pool) : (s.setPool k p).telem = s.telem := rfl
@[simp] theorem State.setPool_links (k : Nat) (p : Pool) : (s.setPool k p).links = s.links := rfl
@[simp] theorem State.setPool_linkFaults (k : Nat) (p : Pool) : (s.setPool k p).linkFaults = s.linkFaults := rfl
@[simp] theorem State.setPool_windows (k : Nat) (p : Pool) : (s.setPool k p).windows = s.windows := rfl
@[simp] theorem State.setPool_inbound (k : Nat) (p : Pool) : (s.setPool k p).inbound = s.inbound := rfl
@[simp] theorem State.setPool_binds (k : Nat) (p : Pool) : (s.setPool k p).binds = s.binds := rfl
@[simp] theorem State.setPool_chans (k : Nat) (p : Pool) : (s.setPool k p).chans = s.chans := rfl
@[simp] theorem State.setPool_depths (k : Nat) (p : Pool) : (s.setPool k p).depths = s.depths := rfl
@[simp] theorem State.setPool_packets (k : Nat) (p : Pool) : (s.setPool k p).packets = s.packets := rfl
@[simp] theorem State.setPool_notices (k : Nat) (p : Pool) : (s.setPool k p).notices = s.notices := rfl
@[simp] theorem State.setPool_levee (k : Nat) (p : Pool) : (s.setPool k p).levee = s.levee := rfl
@[simp] theorem State.setPool_repairs (k : Nat) (p : Pool) : (s.setPool k p).repairs = s.repairs := rfl
@[simp] theorem State.setPool_launches (k : Nat) (p : Pool) : (s.setPool k p).launches = s.launches := rfl
@[simp] theorem State.setPool_arrivals (k : Nat) (p : Pool) : (s.setPool k p).arrivals = s.arrivals := rfl
@[simp] theorem State.setPool_store (k : Nat) (p : Pool) : (s.setPool k p).store = s.store := rfl
@[simp] theorem State.setPool_phys (k : Nat) (p : Pool) : (s.setPool k p).phys = s.phys := rfl
@[simp] theorem State.setPool_bad (k : Nat) (p : Pool) : (s.setPool k p).bad = s.bad := rfl
@[simp] theorem State.setPool_live (k : Nat) (p : Pool) : (s.setPool k p).live = s.live := rfl
@[simp] theorem State.setPool_hw (k : Nat) (p : Pool) : (s.setPool k p).hw = s.hw := rfl

/-! ## setTel -/

@[simp] theorem State.setTel_agenda (k : Nat) (t : Telem) : (s.setTel k t).agenda = s.agenda := rfl
@[simp] theorem State.setTel_focus (k : Nat) (t : Telem) : (s.setTel k t).focus = s.focus := rfl
@[simp] theorem State.setTel_free (k : Nat) (t : Telem) : (s.setTel k t).free = s.free := rfl
@[simp] theorem State.setTel_elems (k : Nat) (t : Telem) : (s.setTel k t).elems = s.elems := rfl
@[simp] theorem State.setTel_ctrls (k : Nat) (t : Telem) : (s.setTel k t).ctrls = s.ctrls := rfl
@[simp] theorem State.setTel_plots (k : Nat) (t : Telem) : (s.setTel k t).plots = s.plots := rfl
@[simp] theorem State.setTel_mas (k : Nat) (t : Telem) : (s.setTel k t).mas = s.mas := rfl
@[simp] theorem State.setTel_nodes (k : Nat) (t : Telem) : (s.setTel k t).nodes = s.nodes := rfl
@[simp] theorem State.setTel_heads (k : Nat) (t : Telem) : (s.setTel k t).heads = s.heads := rfl
@[simp] theorem State.setTel_outs (k : Nat) (t : Telem) : (s.setTel k t).outs = s.outs := rfl
@[simp] theorem State.setTel_pools (k : Nat) (t : Telem) : (s.setTel k t).pools = s.pools := rfl
@[simp] theorem State.setTel_stagings (k : Nat) (t : Telem) : (s.setTel k t).stagings = s.stagings := rfl
@[simp] theorem State.setTel_roots (k : Nat) (t : Telem) : (s.setTel k t).roots = s.roots := rfl
@[simp] theorem State.setTel_seqs (k : Nat) (t : Telem) : (s.setTel k t).seqs = s.seqs := rfl
@[simp] theorem State.setTel_grants (k : Nat) (t : Telem) : (s.setTel k t).grants = s.grants := rfl
@[simp] theorem State.setTel_telem (k : Nat) (t : Telem) : (s.setTel k t).telem = tabSet s.telem k t := rfl
@[simp] theorem State.setTel_links (k : Nat) (t : Telem) : (s.setTel k t).links = s.links := rfl
@[simp] theorem State.setTel_linkFaults (k : Nat) (t : Telem) : (s.setTel k t).linkFaults = s.linkFaults := rfl
@[simp] theorem State.setTel_windows (k : Nat) (t : Telem) : (s.setTel k t).windows = s.windows := rfl
@[simp] theorem State.setTel_inbound (k : Nat) (t : Telem) : (s.setTel k t).inbound = s.inbound := rfl
@[simp] theorem State.setTel_binds (k : Nat) (t : Telem) : (s.setTel k t).binds = s.binds := rfl
@[simp] theorem State.setTel_chans (k : Nat) (t : Telem) : (s.setTel k t).chans = s.chans := rfl
@[simp] theorem State.setTel_depths (k : Nat) (t : Telem) : (s.setTel k t).depths = s.depths := rfl
@[simp] theorem State.setTel_packets (k : Nat) (t : Telem) : (s.setTel k t).packets = s.packets := rfl
@[simp] theorem State.setTel_notices (k : Nat) (t : Telem) : (s.setTel k t).notices = s.notices := rfl
@[simp] theorem State.setTel_levee (k : Nat) (t : Telem) : (s.setTel k t).levee = s.levee := rfl
@[simp] theorem State.setTel_repairs (k : Nat) (t : Telem) : (s.setTel k t).repairs = s.repairs := rfl
@[simp] theorem State.setTel_launches (k : Nat) (t : Telem) : (s.setTel k t).launches = s.launches := rfl
@[simp] theorem State.setTel_arrivals (k : Nat) (t : Telem) : (s.setTel k t).arrivals = s.arrivals := rfl
@[simp] theorem State.setTel_store (k : Nat) (t : Telem) : (s.setTel k t).store = s.store := rfl
@[simp] theorem State.setTel_phys (k : Nat) (t : Telem) : (s.setTel k t).phys = s.phys := rfl
@[simp] theorem State.setTel_bad (k : Nat) (t : Telem) : (s.setTel k t).bad = s.bad := rfl
@[simp] theorem State.setTel_live (k : Nat) (t : Telem) : (s.setTel k t).live = s.live := rfl
@[simp] theorem State.setTel_hw (k : Nat) (t : Telem) : (s.setTel k t).hw = s.hw := rfl

/-! ## setStaging -/

@[simp] theorem State.setStaging_agenda (d c : Nat) (g : Staging) : (s.setStaging d c g).agenda = s.agenda := rfl
@[simp] theorem State.setStaging_focus (d c : Nat) (g : Staging) : (s.setStaging d c g).focus = s.focus := rfl
@[simp] theorem State.setStaging_free (d c : Nat) (g : Staging) : (s.setStaging d c g).free = s.free := rfl
@[simp] theorem State.setStaging_elems (d c : Nat) (g : Staging) : (s.setStaging d c g).elems = s.elems := rfl
@[simp] theorem State.setStaging_ctrls (d c : Nat) (g : Staging) : (s.setStaging d c g).ctrls = s.ctrls := rfl
@[simp] theorem State.setStaging_plots (d c : Nat) (g : Staging) : (s.setStaging d c g).plots = s.plots := rfl
@[simp] theorem State.setStaging_mas (d c : Nat) (g : Staging) : (s.setStaging d c g).mas = s.mas := rfl
@[simp] theorem State.setStaging_nodes (d c : Nat) (g : Staging) : (s.setStaging d c g).nodes = s.nodes := rfl
@[simp] theorem State.setStaging_heads (d c : Nat) (g : Staging) : (s.setStaging d c g).heads = s.heads := rfl
@[simp] theorem State.setStaging_outs (d c : Nat) (g : Staging) : (s.setStaging d c g).outs = s.outs := rfl
@[simp] theorem State.setStaging_pools (d c : Nat) (g : Staging) : (s.setStaging d c g).pools = s.pools := rfl
@[simp] theorem State.setStaging_stagings (d c : Nat) (g : Staging) : (s.setStaging d c g).stagings = tabSet s.stagings (d * 16 + c) g := rfl
@[simp] theorem State.setStaging_roots (d c : Nat) (g : Staging) : (s.setStaging d c g).roots = s.roots := rfl
@[simp] theorem State.setStaging_seqs (d c : Nat) (g : Staging) : (s.setStaging d c g).seqs = s.seqs := rfl
@[simp] theorem State.setStaging_grants (d c : Nat) (g : Staging) : (s.setStaging d c g).grants = s.grants := rfl
@[simp] theorem State.setStaging_telem (d c : Nat) (g : Staging) : (s.setStaging d c g).telem = s.telem := rfl
@[simp] theorem State.setStaging_links (d c : Nat) (g : Staging) : (s.setStaging d c g).links = s.links := rfl
@[simp] theorem State.setStaging_linkFaults (d c : Nat) (g : Staging) : (s.setStaging d c g).linkFaults = s.linkFaults := rfl
@[simp] theorem State.setStaging_windows (d c : Nat) (g : Staging) : (s.setStaging d c g).windows = s.windows := rfl
@[simp] theorem State.setStaging_inbound (d c : Nat) (g : Staging) : (s.setStaging d c g).inbound = s.inbound := rfl
@[simp] theorem State.setStaging_binds (d c : Nat) (g : Staging) : (s.setStaging d c g).binds = s.binds := rfl
@[simp] theorem State.setStaging_chans (d c : Nat) (g : Staging) : (s.setStaging d c g).chans = s.chans := rfl
@[simp] theorem State.setStaging_depths (d c : Nat) (g : Staging) : (s.setStaging d c g).depths = s.depths := rfl
@[simp] theorem State.setStaging_packets (d c : Nat) (g : Staging) : (s.setStaging d c g).packets = s.packets := rfl
@[simp] theorem State.setStaging_notices (d c : Nat) (g : Staging) : (s.setStaging d c g).notices = s.notices := rfl
@[simp] theorem State.setStaging_levee (d c : Nat) (g : Staging) : (s.setStaging d c g).levee = s.levee := rfl
@[simp] theorem State.setStaging_repairs (d c : Nat) (g : Staging) : (s.setStaging d c g).repairs = s.repairs := rfl
@[simp] theorem State.setStaging_launches (d c : Nat) (g : Staging) : (s.setStaging d c g).launches = s.launches := rfl
@[simp] theorem State.setStaging_arrivals (d c : Nat) (g : Staging) : (s.setStaging d c g).arrivals = s.arrivals := rfl
@[simp] theorem State.setStaging_store (d c : Nat) (g : Staging) : (s.setStaging d c g).store = s.store := rfl
@[simp] theorem State.setStaging_phys (d c : Nat) (g : Staging) : (s.setStaging d c g).phys = s.phys := rfl
@[simp] theorem State.setStaging_bad (d c : Nat) (g : Staging) : (s.setStaging d c g).bad = s.bad := rfl
@[simp] theorem State.setStaging_live (d c : Nat) (g : Staging) : (s.setStaging d c g).live = s.live := rfl
@[simp] theorem State.setStaging_hw (d c : Nat) (g : Staging) : (s.setStaging d c g).hw = s.hw := rfl

/-! ## consume -/

@[simp] theorem State.consume_agenda (p : Cargo → Bool) : (s.consume p).agenda = s.agenda := rfl
@[simp] theorem State.consume_focus (p : Cargo → Bool) : (s.consume p).focus = s.focus := rfl
@[simp] theorem State.consume_free (p : Cargo → Bool) : (s.consume p).free = s.free := rfl
@[simp] theorem State.consume_elems (p : Cargo → Bool) : (s.consume p).elems = s.elems := rfl
@[simp] theorem State.consume_ctrls (p : Cargo → Bool) : (s.consume p).ctrls = s.ctrls := rfl
@[simp] theorem State.consume_plots (p : Cargo → Bool) : (s.consume p).plots = s.plots := rfl
@[simp] theorem State.consume_mas (p : Cargo → Bool) : (s.consume p).mas = s.mas := rfl
@[simp] theorem State.consume_nodes (p : Cargo → Bool) : (s.consume p).nodes = s.nodes := rfl
@[simp] theorem State.consume_heads (p : Cargo → Bool) : (s.consume p).heads = s.heads := rfl
@[simp] theorem State.consume_outs (p : Cargo → Bool) : (s.consume p).outs = s.outs := rfl
@[simp] theorem State.consume_pools (p : Cargo → Bool) : (s.consume p).pools = s.pools := rfl
@[simp] theorem State.consume_stagings (p : Cargo → Bool) : (s.consume p).stagings = s.stagings := rfl
@[simp] theorem State.consume_roots (p : Cargo → Bool) : (s.consume p).roots = s.roots := rfl
@[simp] theorem State.consume_seqs (p : Cargo → Bool) : (s.consume p).seqs = s.seqs := rfl
@[simp] theorem State.consume_grants (p : Cargo → Bool) : (s.consume p).grants = s.grants := rfl
@[simp] theorem State.consume_telem (p : Cargo → Bool) : (s.consume p).telem = s.telem := rfl
@[simp] theorem State.consume_links (p : Cargo → Bool) : (s.consume p).links = s.links := rfl
@[simp] theorem State.consume_linkFaults (p : Cargo → Bool) : (s.consume p).linkFaults = s.linkFaults := rfl
@[simp] theorem State.consume_windows (p : Cargo → Bool) : (s.consume p).windows = s.windows := rfl
@[simp] theorem State.consume_inbound (p : Cargo → Bool) : (s.consume p).inbound = s.inbound := rfl
@[simp] theorem State.consume_binds (p : Cargo → Bool) : (s.consume p).binds = s.binds := rfl
@[simp] theorem State.consume_chans (p : Cargo → Bool) : (s.consume p).chans = s.chans := rfl
@[simp] theorem State.consume_depths (p : Cargo → Bool) : (s.consume p).depths = s.depths := rfl
@[simp] theorem State.consume_packets (p : Cargo → Bool) : (s.consume p).packets = s.packets.filter fun q => !p q.cargo := rfl
@[simp] theorem State.consume_notices (p : Cargo → Bool) : (s.consume p).notices = s.notices := rfl
@[simp] theorem State.consume_levee (p : Cargo → Bool) : (s.consume p).levee = s.levee := rfl
@[simp] theorem State.consume_repairs (p : Cargo → Bool) : (s.consume p).repairs = s.repairs := rfl
@[simp] theorem State.consume_launches (p : Cargo → Bool) : (s.consume p).launches = s.launches := rfl
@[simp] theorem State.consume_arrivals (p : Cargo → Bool) : (s.consume p).arrivals = s.arrivals := rfl
@[simp] theorem State.consume_store (p : Cargo → Bool) : (s.consume p).store = s.store := rfl
@[simp] theorem State.consume_phys (p : Cargo → Bool) : (s.consume p).phys = s.phys := rfl
@[simp] theorem State.consume_bad (p : Cargo → Bool) : (s.consume p).bad = s.bad := rfl
@[simp] theorem State.consume_live (p : Cargo → Bool) : (s.consume p).live = s.live := rfl
@[simp] theorem State.consume_hw (p : Cargo → Bool) : (s.consume p).hw = s.hw := rfl

end Sys2Proof.Machine
end

