-- ==== Sys2Proof/Laws/Table.lean ====
section
/-! SUPPORT. Laws of tables, and of the parts of the module by number. -/

namespace Sys2Proof.Machine

theorem tabGet_tabSet_same {α : Type} (t : Tab α) (a : Nat) (x : α) : tabGet (tabSet t a x) a = some x := by
  induction t with
  | nil => simp [tabSet, tabGet]
  | cons h t ih =>
    obtain ⟨k, v⟩ := h
    simp only [tabSet]
    split
    · simp [tabGet]
    · split
      · simp [tabGet]
      · rename_i h1 h2
        simp [tabGet, Ne.symm h2, ih]

theorem tabGet_tabSet_other {α : Type} (t : Tab α) {a b : Nat} (x : α) (h : b ≠ a) :
    tabGet (tabSet t a x) b = tabGet t b := by
  induction t with
  | nil => simp [tabSet, tabGet, Ne.symm h]
  | cons p t ih =>
    obtain ⟨k, v⟩ := p
    simp only [tabSet]
    split
    · simp [tabGet, Ne.symm h]
    · split
      · rename_i h2
        simp [tabGet, Ne.symm h, ← h2]
      · simp [tabGet, ih]

theorem tabGet_tabDel_other {α : Type} (t : Tab α) {a b : Nat} (h : b ≠ a) : tabGet (tabDel t a) b = tabGet t b := by
  induction t with
  | nil => rfl
  | cons p t ih =>
    obtain ⟨k, v⟩ := p
    simp only [tabDel]
    split
    · rename_i h2
      simp [tabGet, ← h2, Ne.symm h]
    · simp [tabGet, ih]

@[simp] theorem State.elem_setElem_same (s : State) (k : Nat) (e : Element) : (s.setElem k e).elem k = e := by
  simp [State.elem, tabGet_tabSet_same]

theorem State.elem_setElem_other (s : State) {k j : Nat} (e : Element) (hne : j ≠ k) : (s.setElem k e).elem j = s.elem j := by
  simp [State.elem, tabGet_tabSet_other _ _ hne]

@[simp] theorem State.ctrl_setCtrl_same (s : State) (k : Nat) (c : Controller) : (s.setCtrl k c).ctrl k = c := by
  simp [State.ctrl, tabGet_tabSet_same]

theorem State.ctrl_setCtrl_other (s : State) {k j : Nat} (c : Controller) (hne : j ≠ k) : (s.setCtrl k c).ctrl j = s.ctrl j := by
  simp [State.ctrl, tabGet_tabSet_other _ _ hne]

@[simp] theorem State.plot_setPlot_same (s : State) (k : Nat) (p : Plot) : (s.setPlot k p).plot k = p := by
  simp [State.plot, tabGet_tabSet_same]

theorem State.plot_setPlot_other (s : State) {k j : Nat} (p : Plot) (hne : j ≠ k) : (s.setPlot k p).plot j = s.plot j := by
  simp [State.plot, tabGet_tabSet_other _ _ hne]

@[simp] theorem State.ma_setMa_same (s : State) (k : Nat) (m : MemActor) : (s.setMa k m).ma k = m := by
  simp [State.ma, tabGet_tabSet_same]

theorem State.ma_setMa_other (s : State) {k j : Nat} (m : MemActor) (hne : j ≠ k) : (s.setMa k m).ma j = s.ma j := by
  simp [State.ma, tabGet_tabSet_other _ _ hne]

@[simp] theorem State.node_setNode_same (s : State) (k : Nat) (n : Node) : (s.setNode k n).node k = n := by
  simp [State.node, tabGet_tabSet_same]

theorem State.node_setNode_other (s : State) {k j : Nat} (n : Node) (hne : j ≠ k) : (s.setNode k n).node j = s.node j := by
  simp [State.node, tabGet_tabSet_other _ _ hne]

@[simp] theorem State.head_setHead_same (s : State) (k : Nat) (h : Headgate) : (s.setHead k h).head k = h := by
  simp [State.head, tabGet_tabSet_same]

theorem State.head_setHead_other (s : State) {k j : Nat} (h : Headgate) (hne : j ≠ k) : (s.setHead k h).head j = s.head j := by
  simp [State.head, tabGet_tabSet_other _ _ hne]

@[simp] theorem State.out_setOut_same (s : State) (k : Nat) (o : Outfall) : (s.setOut k o).out k = o := by
  simp [State.out, tabGet_tabSet_same]

theorem State.out_setOut_other (s : State) {k j : Nat} (o : Outfall) (hne : j ≠ k) : (s.setOut k o).out j = s.out j := by
  simp [State.out, tabGet_tabSet_other _ _ hne]

@[simp] theorem State.pool_setPool_same (s : State) (k : Nat) (p : Pool) : (s.setPool k p).pool k = p := by
  simp [State.pool, tabGet_tabSet_same]

theorem State.pool_setPool_other (s : State) {k j : Nat} (p : Pool) (hne : j ≠ k) : (s.setPool k p).pool j = s.pool j := by
  simp [State.pool, tabGet_tabSet_other _ _ hne]

@[simp] theorem State.tel_setTel_same (s : State) (k : Nat) (t : Telem) : (s.setTel k t).tel k = t := by
  simp [State.tel, tabGet_tabSet_same]

theorem State.tel_setTel_other (s : State) {k j : Nat} (t : Telem) (hne : j ≠ k) : (s.setTel k t).tel j = s.tel j := by
  simp [State.tel, tabGet_tabSet_other _ _ hne]

@[simp] theorem State.ctrl_setElem (s : State) (k j : Nat) (e : Element) : (s.setElem k e).ctrl j = s.ctrl j := rfl
@[simp] theorem State.elem_setCtrl (s : State) (k j : Nat) (c : Controller) : (s.setCtrl k c).elem j = s.elem j := rfl
@[simp] theorem State.elem_setPlot (s : State) (k j : Nat) (p : Plot) : (s.setPlot k p).elem j = s.elem j := rfl
@[simp] theorem State.ctrl_setPlot (s : State) (k j : Nat) (p : Plot) : (s.setPlot k p).ctrl j = s.ctrl j := rfl
@[simp] theorem State.elem_setMa (s : State) (k j : Nat) (m : MemActor) : (s.setMa k m).elem j = s.elem j := rfl
@[simp] theorem State.ctrl_setMa (s : State) (k j : Nat) (m : MemActor) : (s.setMa k m).ctrl j = s.ctrl j := rfl
@[simp] theorem State.elem_setNode (s : State) (k j : Nat) (n : Node) : (s.setNode k n).elem j = s.elem j := rfl
@[simp] theorem State.ctrl_setNode (s : State) (k j : Nat) (n : Node) : (s.setNode k n).ctrl j = s.ctrl j := rfl
@[simp] theorem State.elem_setHead (s : State) (k j : Nat) (h : Headgate) : (s.setHead k h).elem j = s.elem j := rfl
@[simp] theorem State.ctrl_setHead (s : State) (k j : Nat) (h : Headgate) : (s.setHead k h).ctrl j = s.ctrl j := rfl
@[simp] theorem State.elem_setOut (s : State) (k j : Nat) (o : Outfall) : (s.setOut k o).elem j = s.elem j := rfl
@[simp] theorem State.ctrl_setOut (s : State) (k j : Nat) (o : Outfall) : (s.setOut k o).ctrl j = s.ctrl j := rfl
@[simp] theorem State.elem_setPool (s : State) (k j : Nat) (p : Pool) : (s.setPool k p).elem j = s.elem j := rfl
@[simp] theorem State.ctrl_setPool (s : State) (k j : Nat) (p : Pool) : (s.setPool k p).ctrl j = s.ctrl j := rfl
@[simp] theorem State.elem_setTel (s : State) (k j : Nat) (t : Telem) : (s.setTel k t).elem j = s.elem j := rfl
@[simp] theorem State.ctrl_setTel (s : State) (k j : Nat) (t : Telem) : (s.setTel k t).ctrl j = s.ctrl j := rfl

end Sys2Proof.Machine
end

