-- ==== Sys2Proof/Laws/Core.lean ====
section
/-! SUPPORT. Laws of the core in focus, of going on, of operand forms, and of the shared shapes of meanings. -/

namespace Sys2Proof.Machine

open Host (Outcome)

/-! ## The registers of the core in focus -/

@[simp] theorem State.setCore_focus (s : State) (c : CoreRegs) : (s.setCore c).focus = s.focus := by
  unfold State.setCore; split <;> rfl

@[simp] theorem State.core_setCore (s : State) (c : CoreRegs) : (s.setCore c).core = c := by
  cases h : s.focus <;> simp [State.setCore, State.core, h]

@[simp] theorem State.setReg_focus (s : State) (r : BitVec 5) (v : DWord) : (s.setReg r v).focus = s.focus := by
  simp [State.setReg]

@[simp] theorem State.setPred_focus (s : State) (n : BitVec 3) (v : Bool) : (s.setPred n v).focus = s.focus := by
  simp [State.setPred]

@[simp] theorem CoreRegs.reg_zero (c : CoreRegs) : c.reg 0 = 0 := rfl

@[simp] theorem CoreRegs.pred_zero (c : CoreRegs) : c.pred 0 = true := rfl

@[simp] theorem CoreRegs.setReg_zero (c : CoreRegs) (v : DWord) : c.setReg 0 v = c := rfl

@[simp] theorem CoreRegs.setPred_zero (c : CoreRegs) (v : Bool) : c.setPred 0 v = c := rfl

theorem CoreRegs.reg_setReg_same (c : CoreRegs) {r : BitVec 5} (v : DWord) (h : r ≠ 0) : (c.setReg r v).reg r = v := by
  rw [CoreRegs.setReg, if_neg h, CoreRegs.reg, if_neg h]
  simp

theorem CoreRegs.reg_setReg_other (c : CoreRegs) {r q : BitVec 5} (v : DWord) (h : q ≠ r) :
    (c.setReg r v).reg q = c.reg q := by
  unfold CoreRegs.setReg CoreRegs.reg
  split
  · rfl
  · split
    · rfl
    · have : r.toNat ≠ q.toNat := fun e => h (BitVec.eq_of_toNat_eq e.symm)
      simp [this]

theorem CoreRegs.pred_setPred_same (c : CoreRegs) {n : BitVec 3} (v : Bool) (h : n ≠ 0) : (c.setPred n v).pred n = v := by
  rw [CoreRegs.setPred, if_neg h, CoreRegs.pred, if_neg h]
  simp

theorem CoreRegs.pred_setPred_other (c : CoreRegs) {n q : BitVec 3} (v : Bool) (h : q ≠ n) :
    (c.setPred n v).pred q = c.pred q := by
  unfold CoreRegs.setPred CoreRegs.pred
  split
  · rfl
  · split
    · rfl
    · have : n.toNat ≠ q.toNat := fun e => h (BitVec.eq_of_toNat_eq e.symm)
      simp [this]

@[simp] theorem State.reg_zero (s : State) : s.reg 0 = 0 := rfl

theorem State.reg_setReg_same (s : State) {r : BitVec 5} (v : DWord) (h : r ≠ 0) : (s.setReg r v).reg r = v := by
  simp [State.setReg, State.reg, CoreRegs.reg_setReg_same _ _ h]

theorem State.reg_setReg_other (s : State) {r q : BitVec 5} (v : DWord) (h : q ≠ r) : (s.setReg r v).reg q = s.reg q := by
  simp [State.setReg, State.reg, CoreRegs.reg_setReg_other _ _ h]

@[simp] theorem State.core_setReg_p (s : State) (r : BitVec 5) (v : DWord) : (s.setReg r v).core.p = s.core.p := by
  simp only [State.setReg, State.core_setCore, CoreRegs.setReg]; split <;> rfl

@[simp] theorem State.core_setReg_pc (s : State) (r : BitVec 5) (v : DWord) : (s.setReg r v).core.pc = s.core.pc := by
  simp only [State.setReg, State.core_setCore, CoreRegs.setReg]; split <;> rfl

/-! ## Going on -/

@[simp] theorem State.settle_focus (s : State) : s.settle.focus = s.focus := by
  unfold State.settle; split <;> rfl

@[simp] theorem State.settle_core (s : State) : s.settle.core = s.core := by
  cases h : s.focus <;> simp [State.settle, State.core, h]

@[simp] theorem State.advance_focus (s : State) (n : Nat) : (s.advance n).focus = s.focus := by simp [State.advance]

@[simp] theorem State.advance_core (s : State) (n : Nat) : (s.advance n).core = s.core.advance n := by simp [State.advance]

@[simp] theorem State.goto_core (s : State) (pc : DWord) : (s.goto pc).core = { s.core with pc := pc } := by
  simp [State.goto]

@[simp] theorem CoreRegs.advance_s (c : CoreRegs) (n : Nat) : (c.advance n).s = c.s := by
  unfold CoreRegs.advance
  split
  · dsimp only; split
    · rfl
    · split <;> rfl
  · rfl

@[simp] theorem CoreRegs.advance_p (c : CoreRegs) (n : Nat) : (c.advance n).p = c.p := by
  unfold CoreRegs.advance
  split
  · dsimp only; split
    · rfl
    · split <;> rfl
  · rfl

@[simp] theorem State.reg_advance (s : State) (n : Nat) (r : BitVec 5) : (s.advance n).reg r = s.reg r := by
  simp [State.reg, CoreRegs.reg]

@[simp] theorem State.pred_advance (s : State) (n : Nat) (r : BitVec 3) : (s.advance n).core.pred r = s.core.pred r := by
  simp [CoreRegs.pred]

/-- Outside a repetition and away from the end of a loop body, an instruction goes on at the next word. -/
theorem CoreRegs.advance_straight (c : CoreRegs) (n : Nat) (h : c.rpt = none) (hl : c.loops = []) :
    c.advance n = { c with pc := c.pc + BitVec.ofNat 64 n } := by
  cases c
  simp_all [CoreRegs.advance, loopEnd]

/-! ## What going on leaves alone -/

theorem State.setCore_elem_core_only (s : State) (c : CoreRegs) (k : Nat) :
    { (s.setCore c).elem k with core := (s.elem k).core } = s.elem k := by
  cases h : s.focus with
  | controller d => simp [State.setCore, h]
  | element d p =>
    by_cases hk : k = elemKey d p
    · subst hk; simp [State.setCore, h]
    · simp [State.setCore, h, State.elem_setElem_other s _ hk]

theorem State.setCore_ctrl_core_only (s : State) (c : CoreRegs) (k : Nat) :
    { (s.setCore c).ctrl k with core := (s.ctrl k).core } = s.ctrl k := by
  cases h : s.focus with
  | element d p => simp [State.setCore, h]
  | controller d =>
    by_cases hk : k = d
    · subst hk; simp [State.setCore, h]
    · simp [State.setCore, h, State.ctrl_setCtrl_other s _ hk]

/-- Writing back the same core writes the same registers. -/
theorem State.setCore_mem (s : State) (c : CoreRegs) (k : Nat) : ((s.setCore c).elem k).mem = (s.elem k).mem := by
  have := congrArg Element.mem (s.setCore_elem_core_only c k)
  simpa using this

@[simp] theorem State.setCore_phys (s : State) (c : CoreRegs) : (s.setCore c).phys = s.phys := by
  unfold State.setCore; split <;> rfl

@[simp] theorem State.settle_phys (s : State) : s.settle.phys = s.phys := by
  unfold State.settle; split <;> rfl

@[simp] theorem State.advance_phys (s : State) (n : Nat) : (s.advance n).phys = s.phys := by simp [State.advance]

/-! ## The shared shapes of meanings -/

theorem onElement_element (s : State) (f : Nat → Out) (d p : Nat) (h : s.focus = .element d p) :
    onElement s f = f (elemKey d p) := by simp [onElement, h]

theorem onElement_controller (s : State) (f : Nat → Out) (d : Nat) (h : s.focus = .controller d) :
    onElement s f = .next (s.raise cIllegal (noDetail cIllegal)) := by simp [onElement, h]

theorem onController_controller (s : State) (f : Nat → Out) (d : Nat) (h : s.focus = .controller d) :
    onController s f = f d := by simp [onController, h]

theorem onController_element (s : State) (f : Nat → Out) (d p : Nat) (h : s.focus = .element d p) :
    onController s f = .next (s.raise cIllegal (noDetail cIllegal)) := by simp [onController, h]

/-- Everything that an instruction with operands can do: run with its operands, wait for one, or fault. -/
theorem withOperands_cases (s : State) (ok : Bool) (pops : List (Fin 3)) (push : Option (Fin 3))
    (eff : State → List Word → State) :
    (∃ t vals, withOperands s ok pops push eff = .next (eff t vals)) ∨
      (∃ t : State, withOperands s ok pops push eff = .next t.stall) ∨
      ∃ (t : State) (code : Nat) (detail : DWord), withOperands s ok pops push eff = .next (t.raise code detail) := by
  unfold withOperands
  split
  · cases ok
    · exact .inr (.inr ⟨_, _, _, rfl⟩)
    · exact .inl ⟨_, _, rfl⟩
  · split
    · exact .inl ⟨_, _, rfl⟩
    · split
      · exact .inl ⟨_, _, rfl⟩
      · exact .inr (.inl ⟨_, rfl⟩)
      · exact .inr (.inr ⟨_, _, _, rfl⟩)

/-- With no stream operand an instruction of the profile runs at once. -/
theorem withOperands_scalar (s : State) (eff : State → List Word → State) :
    withOperands s true [] none eff = .next (eff s []) := by
  unfold withOperands
  split <;> simp

/-- On an element whose stream operands are ready the effect is on the state after the pops. -/
theorem withOperands_go (s : State) (ok : Bool) (pops : List (Fin 3)) (push : Option (Fin 3))
    (eff : State → List Word → State) (d p : Nat) (t : State) (vals : List Word) (hf : s.focus = .element d p)
    (hn : ¬(pops = [] ∧ push = none)) (h : s.gate (elemKey d p) pops push = .go t vals) :
    withOperands s ok pops push eff = .next (eff t vals) := by
  simp [withOperands, hf, hn, h]

end Sys2Proof.Machine
end

