-- ==== Sys2Proof/Laws/Shared.lean ====
section
/-! SUPPORT. One lemma for each shared operation that says what it can do: taking an exception and returning from it,
stores, tokens that leave, stream commands, Eolo frames; and the state after reset. -/

namespace Sys2Proof.Machine

open Host (Outcome)

/-! ## Exceptions (14 R360, R364; 02 R51) -/

theorem State.raiseAt_controller (s : State) (code : Nat) (addr detail : DWord) (d : Nat) (h : s.focus = .controller d) :
    s.raiseAt code addr detail = s.trap d code addr := by simp [State.raiseAt, h]

theorem State.raiseAt_element (s : State) (code : Nat) (addr detail : DWord) (d p : Nat) (h : s.focus = .element d p) :
    s.raiseAt code addr detail = s.abortFiring (elemKey d p) code s.core.pc.toNat detail := by simp [State.raiseAt, h]

/-- A trap changes the controller that takes it, and nothing else. -/
theorem State.trap_only (s : State) (d code : Nat) (addr : DWord) : ∃ c, s.trap d code addr = s.setCtrl d c := by
  unfold State.trap
  dsimp only
  split
  · exact ⟨_, rfl⟩
  · exact ⟨_, rfl⟩

/-- A trap at level 0 sets the level, counts, and puts the pc at the block of its code. -/
theorem State.trap_first (s : State) (d code : Nat) (addr : DWord) (h : (s.ctrl d).tl = false) :
    ((s.trap d code addr).ctrl d).tl = true ∧ ((s.trap d code addr).ctrl d).trapcnt = (s.ctrl d).trapcnt + 1 ∧
      ((s.trap d code addr).ctrl d).core.pc = BitVec.ofNat 64 ((s.ctrl d).trapbase.toNat + 64 * code) ∧
      ((s.trap d code addr).ctrl d).shadow = (s.ctrl d).core.loops := by
  simp [State.trap, h]

/-- A trap at level 1 halts. -/
theorem State.trap_second (s : State) (d code : Nat) (addr : DWord) (h : (s.ctrl d).tl = true) :
    ((s.trap d code addr).ctrl d).halted.isSome = true := by simp [State.trap, h]

/-- A trap keeps its controller's SRAM canonical. -/
theorem State.trap_wf (s : State) (d code : Nat) (addr : DWord) (h : Memory.wf (s.ctrl d).sram = true) :
    Memory.wf ((s.trap d code addr).ctrl d).sram = true := by
  unfold State.trap
  dsimp only
  split
  · simpa using h
  · simp only [State.ctrl_setCtrl_same]
    exact Memory.wf_write _ _ _ _ (Memory.wf_write _ _ _ _ (Memory.wf_write _ _ _ _ (Memory.wf_write _ _ _ _ h)))

/-- The return from a trap clears the level and gives the loop levels back. -/
theorem State.trapReturn_spec (s : State) (d : Nat) :
    ((s.trapReturn d).ctrl d).tl = false ∧ ((s.trapReturn d).ctrl d).core.loops = (s.ctrl d).shadow ∧
      ((s.trapReturn d).ctrl d).core.pc = BitVec.ofNat 64 (Memory.read (s.ctrl d).sram (s.ctrl d).trapbase.toNat 8) := by
  simp [State.trapReturn]

/-! ## Stores -/

/-- A store of the core in focus reaches no HBM. -/
@[simp] theorem State.storeBytes_phys (s : State) (a v n : Nat) : (s.storeBytes a v n).phys = s.phys := by
  unfold State.storeBytes; split <;> rfl

/-- A store on an element changes the bytes stored, and no other byte of its memory. -/
theorem State.storeBytes_elem_other (s : State) (a v n x d p : Nat) (h : s.focus = .element d p) (hx : x < a ∨ a + n ≤ x) :
    Memory.get ((s.storeBytes a v n).elem (elemKey d p)).mem x = Memory.get (s.elem (elemKey d p)).mem x := by
  simp [State.storeBytes, h, emWrite, Memory.get_write_other _ _ _ _ _ hx]

/-- A store on a controller changes the bytes stored, and no other byte of its SRAM. -/
theorem State.storeBytes_ctrl_other (s : State) (a v n x d : Nat) (h : s.focus = .controller d) (hx : x < a ∨ a + n ≤ x) :
    Memory.get ((s.storeBytes a v n).ctrl d).sram x = Memory.get (s.ctrl d).sram x := by
  simp [State.storeBytes, h, Memory.get_write_other _ _ _ _ _ hx]

/-! ## Stream commands (14 R372 to R376) -/

/-- A command that has arrived and may be performed is posted with what it comes to, its packet consumed, unless it waits. -/
theorem command_issued (die ticket : Nat) (mine ok : Cmd → Bool) (eff : State → Cmd → Nat → Result) (s : State) (t : Ticket)
    (r : Result) (ht : s.ticket die ticket = some t) (hp : t.phase = .issued) (hm : mine (cmdOf die t) = true)
    (hh : s.heldUp die t (cmdOf die t) = false) (ha : s.arrived (isCommand die ticket) = true)
    (hr : (s.consume (isCommand die ticket)).runCmd (cmdOf die t) (ok (cmdOf die t))
      (eff (s.consume (isCommand die ticket)) (cmdOf die t)) = r) (hw : r ≠ .wait) :
    command die ticket mine ok eff s =
      .next ((s.consume (isCommand die ticket)).post die ticket (cmdOf die t).code r) := by
  subst hr
  simp only [command, ht, hp, hm, hh, ha, Bool.not_false, Bool.and_true, decide_true, if_true]

/-- Everything that the event of a command can do: nothing, or post what the command comes to with its packet consumed. -/
theorem command_cases (die ticket : Nat) (mine ok : Cmd → Bool) (eff : State → Cmd → Nat → Result) (s : State) :
    command die ticket mine ok eff s = .next s ∨
      ∃ t, s.ticket die ticket = some t ∧ t.phase = .issued ∧ s.arrived (isCommand die ticket) = true ∧
        command die ticket mine ok eff s = .next ((s.consume (isCommand die ticket)).post die ticket (cmdOf die t).code
          ((s.consume (isCommand die ticket)).runCmd (cmdOf die t) (ok (cmdOf die t))
            (eff (s.consume (isCommand die ticket)) (cmdOf die t)))) := by
  unfold command
  split
  · exact .inl rfl
  · rename_i t ht
    dsimp only
    split
    · rename_i h
      simp only [Bool.and_eq_true, decide_eq_true_eq] at h
      split
      · exact .inl rfl
      · exact .inr ⟨t, ht, h.1.1.1, h.2, rfl⟩
    · exact .inl rfl

/-- A command whose packet is on its way changes nothing. -/
theorem command_waits (die ticket : Nat) (mine ok : Cmd → Bool) (eff : State → Cmd → Nat → Result) (s : State)
    (ha : s.arrived (isCommand die ticket) = false) : command die ticket mine ok eff s = .next s := by
  unfold command
  split
  · rfl
  · simp [ha]

/-- A command of a good encoding for a live die comes to its effect. -/
theorem State.runCmd_good (s : State) (c : Cmd) (eff : Nat → Result) (d : Nat) (hr : c.rsv = 0) (hd : s.dieOf c.ldie = some d) :
    s.runCmd c true eff = eff d := by simp [State.runCmd, hr, hd]

/-- A command with a reserved bit set completes with status 1. -/
theorem State.runCmd_reserved (s : State) (c : Cmd) (ok : Bool) (eff : Nat → Result) (hr : c.rsv ≠ 0) :
    s.runCmd c ok eff = .fails 1 s := by simp [State.runCmd, hr]

/-! ## Eolo frames (16 R433, R434) -/

/-- A frame of no open session changes nothing. -/
theorem onFrame_discarded (mine : Frame → Bool) (f : Frame) (s : State) (act : Session → State → State)
    (h : s.frameSession f = none) : onFrame mine f s act = .next s := by
  unfold onFrame State.inSession
  split <;> simp [h]

/-- A frame that is taken does what its request does, once it has been acknowledged. -/
theorem onFrame_taken (mine : Frame → Bool) (f : Frame) (s : State) (act : Session → State → State) (x : Session)
    (hm : mine f = true) (h : s.frameSession f = some x) (ht : tookOf x f = .take) :
    onFrame mine f s act = .next (act x (((s.takeAck x.num f).mapSession x.num (tookFrame f)).sendAck x.num)) := by
  simp [onFrame, hm, State.inSession, h, ht]

/-! ## Tokens that leave a source (02 R29; 13 R350) -/

/-- A send marks bindings, and nothing else. -/
theorem State.markSent_only (s : State) (src : Source) (load : Nat) (b : Bind) (t : Token) :
    ∃ l, s.markSent src load b t = { s with binds := l } := ⟨_, rfl⟩

/-- One packet leaves for each consumer that a token goes to. -/
theorem State.emit_bound (s : State) (src : Source) (load : Nat) (b : Bind) (t : Token)
    (h : s.srcBind src t.colour load = some b) (ht : strayStop b t = false) :
    s.emit src load t = { s.markSent src load b t with packets := s.packets ++ (pickDests b t).map (s.packet b t) } := by
  simp [State.emit, h, ht]

/-- A change to every endpoint of a channel leaves the other endpoints as they are. -/
theorem State.mapChannel_other (s : State) (colour chan : Nat) (load : Option Nat) (f : Chan → Chan) (c : Chan) (h : c ∈ s.chans)
    (hc : ¬(c.colour = colour ∧ c.chan = chan ∧ c.load = load)) : c ∈ (s.mapChannel colour chan load f).chans := by
  refine List.mem_map.2 ⟨c, h, ?_⟩
  simpa [and_assoc] using fun a b d => absurd ⟨a, b, d⟩ hc

/-! ## The normal slot that goes next (02 R46, 18 Table 18-1) -/

/-- A slot found in round-robin order has a queued firing that may dispatch. -/
theorem nextSlot_candidate (e : Element) (u : Bool) (a : Nat) (h : nextSlot e u = some a) : slotCandidate e u a = true := by
  unfold nextSlot at h
  exact List.find?_some h

/-- So has a slot that erratum 2 lets go. -/
theorem looseSlot_candidate (e : Element) (n a : Nat) (h : looseSlot e n = some a) : slotCandidate e false a = true := by
  unfold looseSlot at h
  dsimp only at h
  split at h
  · exact nextSlot_candidate e false a h
  · have := List.mem_of_getElem? h
    simp only [waitingSlots, List.mem_filter] at this
    exact this.1.2

/-! ## Reset -/

theorem State.reset_phys_wf : Memory.wf State.reset.phys = true := rfl

theorem State.reset_mem_wf (k : Nat) : Memory.wf (State.reset.elem k).mem = true := rfl

theorem State.reset_sram_wf (d : Nat) : Memory.wf (State.reset.ctrl d).sram = true := rfl

end Sys2Proof.Machine
end

