-- ==== Sys2Proof/Tests/Slice0.lean ====
section
/-! SUPPORT. The model's own tests: ill-formed terms that the check refuses; words written out from the spec's encodings,
with their instructions; results that the spec's examples give; and, for every statement with hypotheses, states that meet
them. -/

namespace Sys2Proof.Tests

open Sys2Proof Sys2Proof.Machine Sys2Proof.Statements

set_option Elab.async false

/-! ## Small states -/

/-- The module at reset but for its first element, whose core is in focus. -/
def elemState (e : Element) : State := { State.reset with focus := .element 0 0, elems := [(0, e)] }

/-- The module at reset but for its first controller, whose core is in focus. -/
def ctlState (c : Controller) : State := { State.reset with focus := .controller 0, ctrls := [(0, c)] }

/-- A vector with its first element replaced. -/
def vec {α : Type} (n : Nat) (first rest : α) : Vector α (n + 1) := (Vector.replicate (n + 1) rest).set 0 first

/-- Registers s1 to s5 of a core. -/
def withRegs (c : CoreRegs) (a b d e f : DWord) : CoreRegs :=
  { c with s := ((((c.s.set 1 a).set 2 b).set 3 d).set 4 e).set 5 f }

/-- A data token of colour 0. -/
def tokenWith (kind : TokKind) (payload : DWord) (tag : Word) : Token :=
  { payload := payload, tag := tag, kind := kind, level := 0, arm := false, colour := 0, fin := false }

/-- An element that runs a firing of slot 0. -/
def running : Element := { Element.reset with configured := true, fir := { Firing.idle with status := .running } }

/-! ## The check of well-formed terms refuses each of these -/

theorem test_shift_w_refused : (Instr.slli 1 2 true 32).wellFormed = false ∧ (Instr.srai 1 2 true 63).wellFormed = false := by decide
theorem test_loop_body_zero_refused : (Instr.loop 1 0).wellFormed = false := by decide
theorem test_packed_f32_refused : (Instr.fsum2 .f32 (.s 1) (.s 2)).wellFormed = false ∧
    (Instr.fpack .f32 (.s 1) (.s 2) (.s 3)).wellFormed = false ∧ (Instr.funpack .f32 (.s 1) (.s 2)).wellFormed = false := by decide
theorem test_fcvt_same_refused : (Instr.fcvt .f16x2 .f16x2 .rn false (.s 1) (.s 2)).wellFormed = false := by decide
theorem test_stop_level_refused : (Instr.stop 0 0).wellFormed = false ∧ (Instr.stop 0 7).wellFormed = false := by decide
theorem test_mma_scale_refused : (Instr.mma .e2m1 false false 0 0 0 0).wellFormed = false ∧
    (Instr.mma .bf16 true false 0 0 0 0).wellFormed = false ∧ (Instr.mma .int8 false false 0 0 0 3).wellFormed = false := by decide
theorem test_event_refused : (Instr.quantum 0).wellFormed = false := by decide

/-! ## Decoding words written out from the spec's encodings -/

/-- What a word alone decodes to. -/
def reads (w : Word) (i : Instr) : Prop := decodeWords w none = .ok i

theorem decode_integer : reads 0x00A63880#32 (.add (.s 5) (.s 6) (.s 7) true) ∧ reads 0x14430045#32 (.slli 2 3 true 5) ∧
    reads 0x18801234#32 (.lui 4 0x1234) := by unfold reads; decide
theorem decode_compare : reads 0x1C445FFF#32 (.cmpi .lt 2 4 0x1FFF) ∧ reads 0x68221804#32 (.cmp .lo 1 (.s 2) (.s 3) false) ∧
    reads 0x68611008#32 (.pand 3 1 2) ∧ reads 0x6C85300A#32 (.sel 4 true 2 (.s 5) (.s 6)) := by unfold reads; decide
theorem decode_control : reads 0x36000008#32 (.call 8) ∧ reads 0x38050000#32 (.jr 5) ∧ reads 0x38050001#32 (.callr 5) ∧
    reads 0x38000002#32 .ret := by unfold reads; decide
theorem decode_memory : reads 0x20E26006#32 (.ld .z16 7 2 6) ∧ reads 0x24A19FFC#32 (.st .b32 5 1 0x1FFC) ∧
    reads 0x28684B00#32 (.ldx .d64 3 8 9) ∧ reads 0x28884E00#32 (.stx .b32 4 8 9) := by unfold reads; decide
theorem decode_float : reads 0x40642800#32 (.fadd .f32 (.s 3) (.s 4) (.s 5)) ∧ reads 0x40C00B22#32 (.fmul .bf16x2 (.s 6) (.q 0) (.q 1)) ∧
    reads 0x48854020#32 (.fcvt .f32 .bf16x2 .rs false (.s 4) (.s 5)) ∧ reads 0x4C442802#32 (.fcmp .lt 2 (.s 4) (.s 5)) := by
  unfold reads; decide
theorem decode_stream : reads 0x50200001#32 (.sbindGenerator 1 1) ∧ reads 0x504000C0#32 (.sbindUnbind 2) ∧
    reads 0x50050105#32 (.scfg 0 5 5) ∧ reads 0x50070281#32 (.sstart 2 .write 7) ∧ reads 0x50000340#32 (.sstop 1) ∧
    reads 0x50000400#32 (.swait 0) ∧ reads 0x51200580#32 (.scount 9 2) := by unfold reads; decide
theorem decode_token : reads 0x54920001#32 (.send 2 (.s 9) false true) ∧ reads 0x54404900#32 (.sendt 1 (.x 0) (.s 4) false) ∧
    reads 0x550A0300#32 (.mreq 4 (.s 5)) ∧ reads 0x54C012C5#32 (.sendbTile 3 5 true true) ∧
    reads 0x54043200#32 (.sendbMemory 0 (.s 2) 3) ∧ reads 0x5C200002#32 (.stop 1 2) ∧ reads 0x5CA00000#32 (.eos 5) := by
  unfold reads; decide
theorem decode_matrix : reads 0x60002361#32 (.mma .bf16 false true 1 2 3 0) ∧ reads 0x60000090#32 (.mzero 2) ∧
    reads 0x60A600D1#32 (.mread 5 6 3) ∧ reads 0x64030001#32 (.mldm 3) ∧ reads 0x640001A0#32 (.msr true 2 0 1) := by
  unfold reads; decide
theorem decode_element_system : reads 0x70800020#32 (.qshape 4 4) ∧ reads 0x70A00009#32 (.rdid 5 1) ∧
    reads 0x70060002#32 (.fault (.s 6)) ∧ reads 0x70E00014#32 (.perf 7 2) ∧ reads 0x71000005#32 (.cyc 8) := by unfold reads; decide
theorem decode_controller : reads 0x74B40000#32 (.scmd 5 20) ∧ reads 0x75051000#32 (.scwait 8 5) ∧
    reads 0x74802020#32 (.csrr 4 0x020) ∧ reads 0x74043020#32 (.csrw 4 0x020) ∧ reads 0x75205005#32 (.waitev 9 5) ∧
    reads 0x74686000#32 (.mbxrd 3 8 0) ∧ reads 0x74687002#32 (.mbxwr 3 8 2) ∧ reads 0x74068011#32 (.xinv (.page 6) 1) := by
  unfold reads; decide
theorem decode_lix : decodeWords 0xEC800000#32 (some 0xF0000000#32) = .ok (.lix 4 0) := by decide
theorem decode_refuses : decodeWords 0xF0000000#32 none = .error .extword ∧ decodeWords 0x00000000#32 none ≠ .error .illegal ∧
    decodeWords 0x78000000#32 none = .error .illegal := by decide

/-! ## Results that the spec's examples give -/

/-- A core with two operands in s6 and s7. -/
def twoOperands (a b : DWord) : State :=
  elemState { running with core := { running.core with s := (running.core.s.set 6 a).set 7 b } }

/-- The value of s5 after an instruction. -/
def s5After (i : Instr) (s : State) : Option DWord :=
  match exec i s with
  | .next t => some (t.reg 5)
  | _ => none

/-- The example of R195 to R197. -/
theorem test_add_w_wraps : s5After (.add (.s 5) (.s 6) (.s 7) true) (twoOperands 0x7FFFFFFF 1) = some 0xFFFFFFFF80000000 := by
  decide +kernel
theorem test_adds_w_saturates : s5After (.adds (.s 5) (.s 6) (.s 7) true) (twoOperands 0x7FFFFFFF 1) = some 0x7FFFFFFF := by
  decide +kernel
theorem test_div_truncates : s5After (.div (.s 5) (.s 6) (.s 7) false) (twoOperands (-7) 2) = some (-3) := by decide +kernel
theorem test_rem_of_zero : s5After (.rem (.s 5) (.s 6) (.s 7) false) (twoOperands (-7) 0) = some (-7) := by decide +kernel
theorem test_ext_field : s5After (.ext (.s 5) (.s 6) (.s 7)) (twoOperands 0xF00D 0x030C) = some 0xFFFFFFFFFFFFFFFF := by decide +kernel
theorem test_rand_furrow : s5After (.rand (.s 5) (.s 6) (.s 7)) (twoOperands 0 1) = some 0xC2199C7B := by decide +kernel
/-- The example of R200. -/
theorem test_lui_negative : s5After (.lui 5 0x8000) (twoOperands 0 0) = some 0xFFFFFFFF80000000 := by decide +kernel
/-- The example of R203: the immediate is sign-extended, then compared as unsigned. -/
theorem test_cmpi_lo : (match exec (.cmpi .lo 1 6 0x1FFF) (twoOperands (-1) 0) with
    | .next t => t.core.pred 1
    | _ => true) = false := by decide +kernel
/-- The example of R217: misaligned is checked ahead of the range. -/
theorem test_load_misaligned_first : (match exec (.ld .z16 7 6 6) (twoOperands 0xBFF9 0) with
    | .next t => t.levee.map fun x => x.record.w0.toNat % 256
    | _ => []) = [0x03] := by decide +kernel

/-! ## Witnesses: states and operands that meet the hypotheses of each clause -/

/-- An element whose q0 pops a read run that holds one element and has one more to come, and whose q1 pushes to a write
run. -/
def streaming : Element := { running with
  q := #v[.gen 0, .gen 1, .inPort 0]
  gens := #v[{ Gen.reset with st := .read, held := [7], cnt := #v[2, 1, 1, 1] },
    { Gen.reset with st := .write, cnt := #v[2, 1, 1, 1] }, Gen.reset]
  ports := vec 7 [tokenWith .data 9 1] [] }

theorem ready_controller : Ready (ctlState Controller.reset) true [] none (ctlState Controller.reset) [] := ⟨rfl, rfl, rfl⟩
theorem ready_scalar (ctl : Bool) (e : Element) : Ready (elemState e) ctl [] none (elemState e) [] := .inl ⟨rfl, rfl, rfl, rfl⟩
theorem ready_pop : ∃ t, Ready (elemState streaming) false [0] none t [7] := ⟨_, .inr ⟨by decide, rfl⟩⟩
theorem ready_push : ∃ t, Ready (elemState streaming) false [] (some 1) t [] := ⟨_, .inr ⟨by decide, rfl⟩⟩

theorem witness_TwoSourceIntegerResult : (intTwo (.add (.s 1) (.s 2) (.s 3) true)).isSome = true ∧
    Ready (ctlState Controller.reset) true [] none (ctlState Controller.reset) [] ∧
    (∃ t, Ready (elemState streaming) false (srcPops (.q 0) ++ srcPops (.s 1)) (sqPush (.s 1)) t [7]) ∧
    ∃ t, Ready (elemState streaming) false [] (sqPush (.q 1)) t [] := ⟨rfl, ready_controller, ready_pop, ready_push⟩

theorem witness_OneSourceAndImmediateResult : (intOne (.clz (.s 1) (.s 2) false)).isSome = true ∧
    (immediate (.lui 1 0xFFFF)).isSome = true ∧ Ready (ctlState Controller.reset) true [] none (ctlState Controller.reset) [] ∧
    ∃ t, Ready (elemState streaming) false (srcPops (.q 0) ++ srcPops (.s 2)) none t [7] := ⟨rfl, rfl, ready_controller, ready_pop⟩

theorem witness_CompareAndSelectResult : (predicateOp (.pxor 0 1 7)).isSome = true ∧
    (∃ t, Ready (elemState streaming) false (srcPops (.s 2) ++ srcPops (.q 0)) none t [7]) ∧
    Ready (ctlState Controller.reset) true [] none (ctlState Controller.reset) [] := ⟨rfl, ready_pop, ready_controller⟩

theorem witness_FloatAndConversionResult : (floatTwo (.fadd .f32 (.s 1) (.q 0) (.s 3))).isSome = true ∧
    (floatOne (.fsqrt .e4m3x4 (.q 1) (.s 2))).isSome = true ∧ (fused (.fma .f32 0 (.s 1) (.s 2))).isSome = true ∧
    (floatWord (.fsum2 .bf16x2 (.s 1) (.s 2))).isSome = true ∧ (conversion (.fcvt .f32 .bf16x2 .rs false (.s 4) (.s 5))).isSome = true ∧
    (∃ t, Ready (elemState streaming) false (sqPops (.q 0) ++ sqPops (.s 1)) none t [7]) ∧
    (∃ t, Ready (elemState streaming) false [] (sqPush (.q 1)) t []) ∧ OnElem (elemState running) 0 :=
  ⟨rfl, rfl, rfl, rfl, rfl, ready_pop, ready_push, 0, 0, rfl, rfl⟩

theorem witness_RegisterFrame : (shapeOf (.add (.s 1) (.s 2) (.s 3) true)).isSome = true ∧
    (shapeOf (.fcmp .lt 0 (.s 1) (.s 2))).isSome = true ∧ Ready (elemState running) false [] none (elemState running) [] :=
  ⟨rfl, rfl, ready_scalar _ _⟩

/-- A core inside two loops, the inner of which ends at its pc. -/
def looping (left : DWord) (stop : DWord) : CoreRegs :=
  { CoreRegs.reset 0x500 with loops := [{ start := 0x400, stop := 0x500, left := left }, { start := 0x400, stop := stop, left := 1 }] }

theorem witness_ControlTransfer : (ctlState Controller.reset).core.pred 0 ≠ false ∧
    (ctlState Controller.reset).core.pred 0 = true := by decide

theorem witness_NopAndLoopInstructions :
    (let s := elemState { running with core := looping 2 0x504 };
      s.core.rpt = none ∧ ∃ l rest, s.core.loops = l :: rest ∧ l.stop = s.core.pc ∧ l.left ≠ 1) ∧
    (let s := elemState { running with core := looping 1 0x500 };
      ∃ l m, s.core.loops = [l, m] ∧ l.stop = s.core.pc ∧ l.left = 1 ∧ m.stop = s.core.pc ∧ m.left = 1) ∧
    (let s := elemState { running with core := { looping 1 0x504 with loops := [{ start := 0x400, stop := 0x500, left := 1 }] } };
      ∃ l, s.core.loops = [l] ∧ l.stop = s.core.pc ∧ l.left = 1) ∧
    (let s := elemState running;
      let stop := s.core.pc + BitVec.ofNat 64 (4 * 12031);
      stop.toNat + 4 ≤ spaceEnd s ∧ (s.word stop.toNat).extractLsb' 28 4 ≠ 0b1111#4 ∧ s.core.loops.length < 2 ∧
        ∀ l ∈ s.core.loops, l.stop ≠ s.core.pc) ∧
    (let s := elemState running;
      spaceEnd s < (s.core.pc + BitVec.ofNat 64 (4 * 12032)).toNat + 4) ∧
    (let s := elemState { running with core := looping 1 0x504 };
      (s.core.pc + BitVec.ofNat 64 4).toNat + 4 ≤ spaceEnd s ∧ 2 ≤ s.core.loops.length) := by
  refine ⟨⟨rfl, _, _, rfl, by decide, by decide⟩, ⟨_, _, rfl, by decide, rfl, by decide, rfl⟩, ⟨_, rfl, by decide, rfl⟩, ?_, ?_, ?_⟩ <;>
    decide +kernel

theorem witness_RepeatInstruction :
    (let s := ctlState Controller.reset;
      let m : BitVec 4 := 15;
      (∀ j, j < m.toNat + 1 → (match s.fetchAt (s.core.pc + BitVec.ofNat 64 (4 * (j + 1))) with
        | .ok _ => true
        | .error _ => false) = true ∧ ¬(0x0C ≤ (s.word (s.core.pc + BitVec.ofNat 64 (4 * (j + 1))).toNat).toNat / 2 ^ 26 ∧
          (s.word (s.core.pc + BitVec.ofNat 64 (4 * (j + 1))).toNat).toNat / 2 ^ 26 ≤ 0x0F)) ∧ s.core.rpt = none) ∧
    (let r : Rpt := { pc := 0x400, words := [0x00000000#32], idx := 0, left := 1 };
      (elemState { running with core := { running.core with rpt := some r } }).core.rpt = some r ∧ r.idx < r.words.length) := by
  decide +kernel

theorem witness_LoadResult : (∃ s d ea, loadOf s (.ld .d64 3 2 0) = some (.d64, d, ea) ∧
      ea.toNat % (widthInfo .d64).1 = 0 ∧ ea.toNat + (widthInfo .d64).1 ≤ spaceEnd s) ∧ OnElem (elemState running) 0 :=
  ⟨⟨elemState { running with core := withRegs running.core 0 0xBFF8 0 0 0 }, _, _, rfl, by decide +kernel, by decide +kernel⟩,
    0, 0, rfl, rfl⟩

theorem witness_StoreResult :
    let s := elemState { running with core := withRegs running.core 0 0x400 0 0 0 }
    ∃ d ea, storeOf s (.st .b8 3 2 0) = some (.b8, d, ea) ∧ ownMemoryWf s ∧ ea.toNat % 1 = 0 ∧ ea.toNat + 1 ≤ spaceEnd s ∧
      ∀ j, j < 1 → protectedByte s (ea.toNat + j) = false :=
  ⟨_, _, rfl, by show Memory.wf [] = true; rfl, by decide +kernel⟩

theorem witness_AccessFaults :
    let s := elemState { running with core := withRegs running.core 0xBFFF 0xC000 0x3FF 0 0 }
    (∃ d ea, loadOf s (.ld .z16 7 1 0) = some (.z16, d, ea) ∧ ea.toNat % 2 ≠ 0) ∧
    (∃ d ea, loadOf s (.ld .z16 7 2 0) = some (.z16, d, ea) ∧ ea.toNat % 2 = 0 ∧ spaceEnd s < ea.toNat + 2) ∧
    (∃ d ea, storeOf s (.st .b16 7 1 0) = some (.b16, d, ea) ∧ ea.toNat % 2 ≠ 0) ∧
    (∃ d ea, storeOf s (.st .b16 7 2 0) = some (.b16, d, ea) ∧ ea.toNat % 2 = 0 ∧ spaceEnd s < ea.toNat + 2) ∧
    ∃ d ea, storeOf s (.st .b8 7 3 0) = some (.b8, d, ea) ∧ ea.toNat % 1 = 0 ∧ ∃ j, j < 1 ∧ protectedByte s (ea.toNat + j) = true := by
  refine ⟨⟨_, _, rfl, ?_⟩, ⟨_, _, rfl, ?_⟩, ⟨_, _, rfl, ?_⟩, ⟨_, _, rfl, ?_⟩, ⟨_, _, rfl, ?_, 0, ?_⟩⟩ <;> decide +kernel

theorem witness_TrapEntry : (ctlState Controller.reset).focus = .controller 0 ∧ ((ctlState Controller.reset).ctrl 0).tl = false ∧
    Memory.wf ((ctlState Controller.reset).ctrl 0).sram = true ∧ ((ctlState { Controller.reset with tl := true }).ctrl 0).tl = true :=
  ⟨rfl, rfl, rfl, rfl⟩

theorem witness_FiringAbort : (elemState running).focus = .element 0 0 ∧ 0x14 < 256 := ⟨rfl, by decide⟩

theorem witness_ProfileFaults : (Instr.ldc 1 2).isIsa = true ∧ (Instr.ldc 1 2).controllerOk = false ∧
    Instr.eret.isIsa = true ∧ Instr.eret.elementOk = false := ⟨rfl, rfl, rfl, rfl⟩

/-- Port bytes of a block: a stream-mode input port 0 of slot 0, and output port 0 bound to slot 0. -/
def streamBlock : Mem := [(256, 16), (288, 8)]

/-- An element with s1 to s4 as given. -/
def withRegsElem (a b c d : DWord) : Element := { running with core := withRegs running.core a b c d 0 }

theorem witness_StreamBindingAndRuns :
    (let e := running;
      (∀ r : Fin 3, r ≠ 0 → e.q[r] ≠ .gen 2) ∧ e.gens[(2 : Fin 3)].st ≠ .drain ∧ e.gens[(0 : Fin 3)].st = .idle) ∧
    (let e := { running with active := streamBlock };
      portMode e 0 = .stream ∧ portSlot e 0 = e.fir.slot ∧ (∀ r : Fin 3, r ≠ 2 → e.q[r] ≠ .inPort 0) ∧
        ∀ g : Fin 3, e.gens[g].st = .drain → e.gens[g].drain.toNat / 256 ≠ 0) ∧
    (let s := elemState (withRegsElem 0xBFFF 4096 (-49152) 2047);
      (s.reg 1).toNat ≤ 0xBFFF ∧ (1 ≤ (s.reg 2).toNat ∧ (s.reg 2).toNat ≤ 4096) ∧
        (-49152 ≤ (s.reg 3).toInt ∧ (s.reg 3).toInt ≤ 49152) ∧ (s.reg 4).toNat < 2048) ∧
    (let x := streaming.gens[(0 : Fin 3)];
      x.st = .read ∧ runLength x ≤ 2 ^ 48 ∧ x.popped ≤ runLength x) ∧
    (let x := Gen.reset;
      x.st = .idle ∧ ∀ j, j < runLength x → let ea := runAddr { x with org := x.base.toNat + (0 : Int) } j
        ea % 4 = 0 ∧ 0 ≤ ea ∧ ea + 4 ≤ 0xC000 ∧ 0x400 ≤ ea ∧ ∀ b, b < 4 → inBitmap running (ea.toNat + b) = false) ∧
    (let x := { Gen.reset with st := .write };
      x.waiting = []) ∧
    (let x := { Gen.reset with st := .read, held := [5] };
      runLength x - x.popped ≤ 32 ∧ runLength x ≤ x.popped + x.held.length) := by
  decide +kernel

theorem witness_StreamOperand :
    (let e := streaming;
      e.fir.latch = [] ∧ e.q[(0 : Fin 3)] = .gen 0 ∧ e.gens[(0 : Fin 3)].st = .read ∧ e.gens[(0 : Fin 3)].held = [7] ∧
        e.gens[(0 : Fin 3)].popped + 1 < runLength e.gens[(0 : Fin 3)]) ∧
    (let s := elemState streaming;
      let e := s.elem 0;
      e.q[(2 : Fin 3)] = .inPort 0 ∧ e.ports[0] = [tokenWith .data 9 1] ∧ s.portEnded 0 0 = false ∧ e.q[(1 : Fin 3)] = .gen 1) ∧
    ({ running with q := vec 2 (.outPort 15) .unbound } : Element).q[(0 : Fin 3)] = .outPort 15 := by
  decide +kernel

/-- A binding of output port 0 of the first element, and the state that holds it. -/
def sendBind (kind : ChanKind) (dest : Dest) : Bind :=
  { source := { die := 0, kind := .element, pos := 0, out := 0 }, load := some 0, colour := 0, chan := 0, kind := kind,
    dests := [dest], closed := false, switched := false, weired := false, seq := 0, merges := false }
def sending (kind : ChanKind) (dest : Dest) : State :=
  { elemState { running with active := streamBlock, tiles := vec 15 .full .empty } with binds := [sendBind kind dest] }

/-- An element's input port and a memory actor's req input. -/
def toElement : Dest := { die := 0, kind := .element, pos := 1, din := 0 }
def toReq : Dest := { die := 0, kind := .memActor, pos := 0, din := 0 }

/-- A check of a send whose clauses are all decidable. -/
def maySendB (s : State) (b : Bind) (k o n : Nat) (tagret stopOrBulk mreq : Bool) : Bool :=
  s.outChannel k o = some b && (b.kind ≠ .ret || tagret) && !b.closed && ((s.elem k).fir.sends.all fun x => x.port ≠ o || x.tok.kind ≠ .eos) &&
    (b.kind ≠ .tagged || !stopOrBulk) && (!mreq || b.dests.any fun d => d.kind = .memActor && d.din = 0) &&
    (s.elem k).fir.sends.length + n ≤ 256

theorem maySend_of {s : State} {b : Bind} {k o n : Nat} {t c m : Bool} (h : maySendB s b k o n t c m = true) :
    MaySend s k o n t c m := by
  simp [maySendB] at h
  obtain ⟨⟨⟨⟨⟨⟨h1, h2⟩, h3⟩, h4⟩, h5⟩, h6⟩, h7⟩ := h
  refine ⟨b, h1, fun e => ?_, h3, fun x hx hp => ?_, fun e => ?_, fun e => ?_, h7⟩
  · exact h2.resolve_left (fun n => n e)
  · exact (h4 x hx).resolve_left (fun n => n hp)
  · exact h5.resolve_left (fun n => n e)
  · obtain ⟨d, hd, h⟩ := h6.resolve_left (by simp [e])
    exact ⟨d, hd, h⟩

theorem witness_SendResult : MaySend (sending .ordered toElement) 0 0 1 false false false ∧
    MaySend (sending .tagged toReq) 0 0 1 false false true ∧ MaySend (sending .ordered toElement) 0 0 1 false true false ∧
    ((sending .ret toElement).outChannel 0 0 = some (sendBind .ret toElement) ∧ (sendBind .ret toElement).kind = .ret) ∧
    MaySend (sending .ret toElement) 0 0 1 true false false ∧ MaySend (sending .ordered toElement) 0 0 67 false true false ∧
    MaySend (sending .ordered toElement) 0 0 256 false true false ∧ ((sending .ordered toElement).elem 0).mq = [] ∧
    ((sending .ordered toElement).elem 0).tiles[0] = .full :=
  ⟨maySend_of (b := sendBind .ordered toElement) (by decide +kernel), maySend_of (b := sendBind .tagged toReq) (by decide +kernel),
    maySend_of (b := sendBind .ordered toElement) (by decide +kernel), by decide +kernel,
    maySend_of (b := sendBind .ret toElement) (by decide +kernel), maySend_of (b := sendBind .ordered toElement) (by decide +kernel),
    maySend_of (b := sendBind .ordered toElement) (by decide +kernel), by decide +kernel, by decide +kernel⟩

/-- An element whose slot 0 has one window entry of W = 1. -/
def windowed : Element := { running with active := [(26, 1), (28, 1)] }

/-- A launch of colour 1 on the first die. -/
def launch1 : Launch :=
  { lid := 7, colour := 1, image := 0, gen := 0, urg := false, prio := 0, cof := 0, cdie := 0, load := 0, stagedLoad := none,
    armed := false, die0 := 0, asked := [], rect := none, dies := [], st := .waiting, arrival := 0, session := 1,
    select := .default, plan := { replicas := [], nodes := [], mas := [] }, nextPlan := { replicas := [], nodes := [], mas := [] },
    saves := [], status := 0, detail := (0, 0), absent := false, woke := none }

/-- Bytes from a table. -/
def bytesOf (n : Nat) (m : Mem) : List Byte := (List.range n).map (Memory.get m)

/-- An image that declares one pool, of values 5 to 7 in the first die. -/
def poolImage : List Byte :=
  bytesOf 160 [(20, 1), (128, 8), (136, 144), (140, 16), (144, 5), (146, 3)]

/-- A state in which the launch of colour 1 runs from an image. -/
def launched (bytes : List Byte) (l : Launch) (s : State) : State :=
  { s with launches := [l], store := [{ index := 0, name := [], gen := 0, holds := 0, bytes := bytes, marks := [] }] }

/-- That pool in slot 0 of the first die, with values allocated. -/
def pool5 (alloc : List Nat) : Pool := { Pool.reset with valid := true, colour := 1, base := 5, size := 3, alloc := alloc }

/-- An element that runs a firing under that launch. -/
def pooled : State := { launched poolImage launch1 (elemState { running with colour := 1 }) with pools := [(0, pool5 [])] }

theorem witness_TagAndContextResult :
    (∃ t, Ready (elemState streaming) false (srcPops (.q 0) ++ srcPops (.s 1)) none t [7]) ∧
    (let w : Win := { ctx := 0, n := 0x3FFFF, o := 0x3FFFF, final := false };
      let e := { windowed with wins := [(winKey 0 0, w)] };
      findWin e e.fir.slot (e.xt.extractLsb' 18 14) = some 0 ∧ tabGet e.wins (winKey e.fir.slot 0) = some w ∧
        0 < winEntries e e.fir.slot ∧ (w.n - w.o).toNat < winSize e e.fir.slot) ∧
    (0 < winEntries windowed 0 ∧ winEntries windowed 0 ≤ 16 ∧ 0 < winSize windowed 0 ∧
      ∀ j, j < winEntries windowed 0 → tabGet windowed.wins (winKey 0 j) = none) ∧
    ({ running with fir := { running.fir with ask := .granted 5 } } : Element).fir.ask = .granted 5 ∧
    ((pooled.elem 0).fir.ask = .none ∧ pooled.poolKey (pooled.elem 0).colour 0 = some 0 ∧ Ready pooled false (srcPops (.s 2)) none pooled [] ∧
      (0, (imgPool (pooled.imageOf 1) 0).base + (pooled.src (.s 2) []).toNat % (imgPool (pooled.imageOf 1) 0).size) ∉
        (pooled.elem 0).fir.holds) ∧
    (let s : State := { launched poolImage launch1 (elemState { running with
        colour := 1, core := withRegs running.core 7 5 0 0 0
        fir := { running.fir with holds := [(0, 5)] } }) with pools := [(0, pool5 [7])] };
      s.poolKey (s.elem 0).colour 0 = some 0 ∧ (imgPool (s.imageOf 1) 0).base = 5 ∧ (imgPool (s.imageOf 1) 0).size = 3 ∧
        (s.src (.s 1) []).toNat = 7 ∧ 7 ∈ (s.pool 0).alloc ∧ (0, 7) ∉ (s.elem 0).fir.holds ∧
        (s.src (.s 2) []).toNat = 5 ∧ (0, 5) ∈ (s.elem 0).fir.holds ∧ (s.elem 0).fir.frees = []) :=
  ⟨ready_pop, by decide +kernel, by decide +kernel, rfl,
    ⟨by decide +kernel, by decide +kernel, Or.inl ⟨rfl, rfl, rfl, rfl⟩, by decide +kernel⟩, by decide +kernel⟩

theorem witness_MatrixInstructions :
    (let e := { running with core := withRegs running.core 0xBF00 0x400 0 0 0, mq := List.replicate 7 (.mzero 0) };
      (matrixOf (elemState e) (.mloada 3 1)).isSome = true ∧ MatrixAddr e 0xBF00 256 false ∧ e.mq.length < 8) ∧
    (let e := { running with core := withRegs running.core 0xBF00 0x400 0 0 0, mq := List.replicate 8 (.mzero 0) };
      MatrixAddr e 0x400 256 true ∧ 8 ≤ e.mq.length) ∧
    running.mq = [] ∧ ({ running with mq := [.mzero 1] } : Element).mq ≠ [] := by
  unfold MatrixAddr; decide +kernel

/-- A flume queue with a number of tokens. -/
def flume (dest : Dest) (load : Option Nat) (colour : Nat) (q : List Token) : Chan :=
  { dest := dest, load := load, colour := colour, chan := 0, kind := .ordered, queue := q, spilled := [], rear := [], early := [],
    next := 0, eos := 0, switches := 0, weirs := 0, passed := 0, noSpill := false, stuck := false }

/-- A channel out of the first element whose flume queue holds 300 tokens, and the element with a token to commit to it. -/
def crowded : State :=
  { sending .ordered toElement with chans := [flume toElement (some 0) 0 (List.replicate 300 (tokenWith .data 1 2))] }
def blocked : Element :=
  { running with
    active := streamBlock
    fir := { running.fir with sends := [{ port := 0, tok := tokenWith .data 1 2 }] } }

theorem witness_ElementSystemAndDone :
    (let s : State := { elemState running with grants := [(0, { x0 := 0, y0 := 0, w := 20, h := 20 })] };
      (s.regionOf (s.elem 0).colour 0).isSome = true) ∧
    (∃ t, Ready (elemState streaming) false (srcPops (.q 0)) none t [7]) ∧
    (running.mq = [] ∧ ∀ g : Fin 3, running.gens[g].st = .write → running.gens[g].waiting = []) ∧
    (elemState running).commitAccepted 0 ((elemState running).commitSends 0) = true ∧
    (let s : State := { sending .ordered toElement with elems := [(0, blocked)] };
      let e := s.elem 0;
      s.commitAccepted 0 (s.commitSends 0) = true ∧ e.fir.place < 64 ∧ e.fir.frees = [] ∧ tabWf e.store = true ∧
        e.fir.sends = [{ port := 0, tok := tokenWith .data 1 2 }] ∧
        s.srcBind (elemSource 0 0) (tokenWith .data 1 2).colour e.load = some (sendBind .ordered toElement)) ∧
    (let s : State := { crowded with elems := [(0, blocked)] };
      s.commitAccepted 0 (s.commitSends 0) = false) :=
  ⟨by decide +kernel, ready_pop, by decide +kernel, by decide +kernel, by decide +kernel, by decide +kernel⟩

/-- A ticket of number n in a phase. -/
def tick (n : Nat) (lo hi : DWord) (phase : TicketPhase) : Ticket := { num := BitVec.ofNat 16 n, lo := lo, hi := hi, phase := phase }

/-- The first controller with s1 to s5 as given. -/
def ctlRegs (a b c d e : DWord) : Controller := { Controller.reset with core := withRegs Controller.reset.core a b c d e }

theorem witness_TicketAndCsrInstructions :
    (let s := ctlState { ctlRegs 0x3FFFF0 0 0 0 0 with tickets := List.replicate 63 (tick 9 0 0 .issued) };
      SramAddr (s.reg 1) 16 ∧ (s.ctrl 0).tickets.length < 64) ∧
    (let s := ctlState { ctlRegs 0 0 0 0 0 with tickets := List.replicate 64 (tick 9 0 0 .issued) };
      SramAddr (s.reg 1) 16 ∧ 64 ≤ (s.ctrl 0).tickets.length) ∧
    ((ctlState (ctlRegs 8 0 0 0 0)).reg 1).toNat % 16 ≠ 0 ∧
    (∀ t ∈ [tick 9 0 0 .issued], t.num ≠ ((ctlState (ctlRegs 8 0 0 0 0)).reg 1).truncate 16) ∧
    (let t := tick 8 0 0 (.done 5);
      let s := ctlState { ctlRegs 8 9 0 0 0 with tickets := [tick 9 0 0 .issued, t] };
      t ∈ (s.ctrl 0).tickets ∧ t.num = (s.reg 1).truncate 16 ∧ (∀ x ∈ (s.ctrl 0).tickets, x.num = t.num → x = t) ∧ t.phase = .done 5 ∧
        tick 9 0 0 .issued ∈ (s.ctrl 0).tickets ∧ (tick 9 0 0 .issued).num = (s.reg 2).truncate 16 ∧
        ∀ x ∈ (s.ctrl 0).tickets, x.num = 9 → x = tick 9 0 0 .issued) ∧
    (∀ w, (tick 9 0 0 .issued).phase ≠ .done w) ∧
    (let s := ctlState (ctlRegs 0 (2 ^ 40 + 1) 0x100000 0x1000 0x400000);
      (s.reg 1).toNat = 0 ∧ 2 ^ 40 < (s.reg 2).toNat ∧ (s.reg 3).toNat % 2097152 ≠ 0 ∧ 2 ^ 12 ≤ (s.reg 4).toNat ∧
        (s.reg 3).toNat % 512 = 0 ∧ 2 ^ 22 ≤ (s.reg 5).toNat ∧ (s.reg 2).toNat % 512 ≠ 0) ∧
    (let s := ctlState (ctlRegs 0x3FFE00 0x400000 0x200000 (2 ^ 40) 0xFFF);
      (s.reg 1).toNat % 512 = 0 ∧ (s.reg 1).toNat < 2 ^ 22 ∧ 2 ^ 22 ≤ (s.reg 2).toNat ∧ (s.reg 3).toNat % 2097152 = 0 ∧
        1 ≤ (s.reg 4).toNat ∧ (s.reg 4).toNat ≤ 2 ^ 40 ∧ (s.reg 5).toNat < 2 ^ 12) ∧
    (0x024#12) ∉ [0x000#12, 0x001#12, 0x002#12, 0x010#12, 0x011#12, 0x012#12, 0x020#12, 0x021#12, 0x022#12,
      0x023#12, 0x031#12, 0x040#12, 0x050#12, 0x051#12] := by
  unfold SramAddr
  refine ⟨by decide +kernel, by decide +kernel, by decide +kernel, by decide, by decide +kernel, nofun, by decide +kernel,
    by decide +kernel, by decide⟩

theorem witness_TrapReturnAndEvents :
    ((ctlState Controller.reset).ctrl 0).tl = false ∧ ((ctlState { Controller.reset with tl := true }).ctrl 0).tl = true ∧
    (let s := ctlState { Controller.reset with latched := 8 };
      (BitVec.ofFnLE fun n : Fin 12 => (8#12).getLsbD n.val && eventBit s 0 n.val) ≠ 0) ∧
    (let s := ctlState Controller.reset;
      (BitVec.ofFnLE fun n : Fin 12 => (8#12).getLsbD n.val && eventBit s 0 n.val) = 0 ∧ (8#12) ≠ 0 ∧ (s.ctrl 0).core.rpt = none ∧
        (s.ctrl 0).shadow = [] ∧ Memory.wf (s.ctrl 0).sram = true) := by decide +kernel

/-- A mailbox record. -/
def record (a : DWord) : Rec := { w0 := a, w1 := 1, w2 := 2, w3 := 3 }

theorem witness_MailboxesAndXinv :
    (let s := ctlState { ctlRegs 0x3FFFE0 0 0 0 0 with mbox := Controller.reset.mbox.set 4 [record 9] };
      SramAddr (s.reg 1) 32 ∧ (4 : Fin 5) ∈ ([0, 1, 4] : List (Fin 5)) ∧ (s.ctrl 0).mbox[0] = [] ∧ (s.ctrl 0).mbox[4] = record 9 :: [] ∧
        Memory.wf (s.ctrl 0).sram = true) ∧
    (let s := ctlState { ctlRegs 0 0x20 0 0 0 with
        sram := [(0, 63), (32, 64)], mbox := Controller.reset.mbox.set 2 (List.replicate 64 (record 9)) };
      let bad : State := { s with live := s.live.set 56 { DieMap.full 56 with cls := .dead, ldie := none } };
      SramAddr (s.reg 1) 32 ∧ 64 ≤ (s.ctrl 0).mbox[2].length ∧ (s.ctrl 0).mbox[3].length < 64 ∧
        bad.dieOf ((readRec (s.ctrl 0).sram (s.reg 1).toNat).w0.toNat % 64) = none ∧
        s.dieOf ((readRec (s.ctrl 0).sram (s.reg 1).toNat).w0.toNat % 64) ≠ none) ∧
    (Controller.reset.inval = none) ∧
    (let i : Inval := { kind := .all, colour := 0, va := 0, waiting := [] };
      ((ctlState { Controller.reset with inval := some i }).ctrl 0).inval = some i ∧ i.waiting = []) := by
  unfold SramAddr; decide +kernel

/-- An element whose firing runs an ADD at the last word of its code extent, 0x400 to 0x404, and a NOP-like word. -/
def coded (pc : DWord) (word : Nat) : Element := { running with
  core := CoreRegs.reset pc
  active := [(5, 4), (6, 4), (7, 4), (9, 16)]
  mem := (List.range 4).filterMap fun i =>
    if word / 256 ^ i % 256 = 0 then none else some (0x404 + i, BitVec.ofNat 8 (word / 256 ^ i % 256)) }

theorem witness_StepRunsDecoded :
    (let s := elemState (coded 0x404 0x00A63880);
      let e := s.elem 0;
      let a := e.core.pc.toNat;
      s.agenda = [] ∧ s.focus = .element 0 0 ∧ e.fir.status = .running ∧ e.fir.steps < stepLimitOf e e.fir.slot ∧ e.core.rpt = none ∧
        a % 4 = 0 ∧ 0x400 ≤ a ∧ a + 4 ≤ 0xC000 ∧ codeFirst e e.fir.slot ≤ a ∧ a ≤ codeLast e e.fir.slot ∧
        decodeWords (BitVec.ofNat 32 (bytesAt s a 4)) (if a + 8 ≤ 0xC000 then some (BitVec.ofNat 32 (bytesAt s (a + 4) 4)) else none)
          = .ok (.add (.s 5) (.s 6) (.s 7) true) ∧ (Instr.add (.s 5) (.s 6) (.s 7) true).elementOk = true) ∧
    (let r : Rpt := { pc := 0x400, words := [0x00A63880#32], idx := 0, left := 1 };
      ({ running with core := { running.core with rpt := some r } } : Element).core.rpt = some r ∧
        decodeWords (nth r.words r.idx 0) none = .ok (.add (.s 5) (.s 6) (.s 7) true)) ∧
    (let s := ctlState { Controller.reset with core := CoreRegs.reset 0x3FFFFC, sram := [(0x3FFFFE, 128), (0x3FFFFF, 112)] };
      let a := (s.ctrl 0).core.pc.toNat;
      (s.ctrl 0).released = true ∧ (s.ctrl 0).halted = none ∧ (s.ctrl 0).core.rpt = none ∧ a % 4 = 0 ∧ a + 4 ≤ 0x400000 ∧
        s.agenda = []) ∧
    (let s := ctlState { Controller.reset with core := CoreRegs.reset 0x3FFFF8, sram := [(0x3FFFFA, 180), (0x3FFFFB, 116)] };
      let a := (s.ctrl 0).core.pc.toNat;
      a + 8 ≤ 0x400000 ∧ decodeWords (BitVec.ofNat 32 (bytesAt s a 4)) (some (BitVec.ofNat 32 (bytesAt s (a + 4) 4))) = .ok (.scmd 5 20) ∧
        (Instr.scmd 5 20).controllerOk = true) ∧
    ({ State.reset with agenda := [.event (.timer 0), .core (.element 0 0)] } : State).agenda =
      .event (.timer 0) :: [.core (.element 0 0)] ∧ (Instr.timer 0).isIsa = false := by decide +kernel

theorem witness_FetchFaults :
    (let e := coded 0x400 0;
      e.fir.status = .running ∧ e.core.rpt = none ∧ e.fir.counted = false ∧
        stepLimitOf ({ e with fir := { e.fir with steps := 4096 } } : Element) 0 ≤ 4096 ∧ e.fir.steps < stepLimitOf e e.fir.slot) ∧
    (coded 0x402 0).core.pc.toNat % 4 ≠ 0 ∧ (coded 0x3FC 0).core.pc.toNat < 0x400 ∧ 0xC000 < (coded 0xC000 0).core.pc.toNat + 4 ∧
    codeLast (coded 0xBFFC 0) 0 < (coded 0xBFFC 0).core.pc.toNat ∧
    (let s := elemState (coded 0x404 0xF0000000);
      (s.elem 0).core.pc.toNat ≤ codeLast (s.elem 0) 0 ∧ bytesAt s 0x404 4 / 2 ^ 28 = 15) ∧
    (let s := elemState (coded 0x404 0xE8000000);
      0x1D ≤ bytesAt s 0x404 4 / 2 ^ 26 ∧ bytesAt s 0x404 4 / 2 ^ 26 ≤ 0x3A) ∧
    (let s := elemState (coded 0x404 0x74000000);
      0x1D ≤ bytesAt s 0x404 4 / 2 ^ 26 ∧ bytesAt s 0x404 4 / 2 ^ 26 ≤ 0x3A) := by decide +kernel

theorem witness_DecodeEncode : (Instr.lix 31 (BitVec.allOnes 44)).isIsa = true ∧ (Instr.lix 31 (BitVec.allOnes 44)).wellFormed = true ∧
    (Instr.slli 31 31 true 31).isIsa = true ∧ (Instr.slli 31 31 true 31).wellFormed = true := by decide

theorem witness_EncodeDecode : decodeWords 0x00A63880#32 (some 0#32) = .ok (.add (.s 5) (.s 6) (.s 7) true) ∧
    decodeWords 0xEC800000#32 (some 0xF0000000#32) = .ok (.lix 4 0) := by decide

theorem witness_EveryStepKeeps : Safety.TrapAreas (ctlState { Controller.reset with trapbase := 0x3FFE00 }) ∧
    Memory.wf State.reset.phys = true ∧ ∃ u, step (ctlState { Controller.reset with trapbase := 0x3FFE00 }) = .next u :=
  ⟨by simp [Safety.TrapAreas, ctlState, Safety.trapbaseOk], rfl, _, rfl⟩

theorem witness_CoreTurnKeepsMemories : State.reset.agenda = [] ∧ (∀ k, Memory.wf (State.reset.elem k).mem = true) ∧
    (∀ d, Memory.wf (State.reset.ctrl d).sram = true) ∧ ∃ u, step State.reset = .next u := ⟨rfl, fun _ => rfl, fun _ => rfl, _, rfl⟩

theorem witness_ElementInstructionIsLocal : (Instr.nop).isIsa = true ∧ Instr.nop ≠ .done ∧
    ∃ u, exec .nop (elemState running) = .next u := ⟨rfl, nofun, _, rfl⟩

/-- A matching entry of slot 0. -/
def entry (st : EntryState) : Entry :=
  { slot := 0, tag := 1, present := 0, payloads := Vector.replicate 4 0, levels := Vector.replicate 4 0, arm := false, defcnt := 0,
    st := st, retry := false, park := .none, age := 0 }

/-- An element between firings whose slot 0 is valid, with one matching port, and whose code starts at 0x404. -/
def matching : Element :=
  { Element.reset with configured := true, active := [(0, 4), (1, 4), (5, 4), (6, 4), (7, 4), (9, 16), (24, 2), (25, 1), (256, 8)] }

/-- The element's own port as a destination, and a state where a channel leads to it. -/
def ownPort : Dest := { die := 0, kind := .element, pos := 0, din := 0 }
def fed (e : Element) : State := { elemState e with binds := [sendBind .ordered ownPort] }

/-- A firing at a TAGNEXT whose window is full. -/
def refusing : Element :=
  { coded 0x404 (((encode (.tagnext 3)).head?.getD 0).toNat) with
    active := [(5, 4), (6, 4), (7, 4), (9, 16), (26, 1)]
    store := [(0, entry .running)] }

theorem witness_FiringEvents :
    (running.fir.status = .running ∧ running.fir.counted = false ∧ stepLimitOf running running.fir.slot ≤ running.fir.steps) ∧
    (refusing.fir.status ≠ .idle ∧ refusing.fir.clean = true ∧ refusing.fir.place < 64 ∧
      tabGet refusing.store refusing.fir.place = some (entry .running) ∧
      defLimitOf refusing refusing.fir.slot ≤ (entry .running).defcnt ∧
      (match (elemState refusing).fetch with
        | .ok i => decide (i = .tagnext 3)
        | .error _ => false) = true ∧
      winEntries refusing refusing.fir.slot ≠ 0 ∧
      windowRefused refusing refusing.fir.slot (refusing.xt.extractLsb' 18 14) = true) ∧
    ({ refusing with fir := { refusing.fir with ask := .refused 0 5 } } : Element).fir.ask = .refused 0 5 ∧
    (let e := { matching with store := [(63, entry .ready)], ready := [63], runq := List.replicate 15 0 };
      e.ready = 63 :: [] ∧ e.runq.length < 16 ∧ tabGet e.store 63 = some (entry .ready)) ∧
    (let e := { matching with portEos := matching.portEos.set 0 1 };
      e.configured = true ∧ e.cut ≠ .saved ∧ e.ends[0] = .active ∧ slotValid e 0 = true ∧ requiredPorts e 0 ≠ [] ∧
        (∀ i ∈ requiredPorts e 0, (fed e).portEnded 0 i = true) ∧ ∀ x ∈ e.store, x.2.slot ≠ 0) ∧
    (let e := { matching with store := [(63, entry .queued)], runq := [63] };
      e.cut = .open ∧ e.copyFault = false ∧ e.fir.status = .idle ∧ e.pend = none ∧ tabGet e.store 63 = some (entry .queued) ∧
        e.runq = [63] ∧ (entry .queued).slot < 8 ∧ slotOrdered e 0 = false ∧ armEntry e 0 false % 4 = 0 ∧
        armEntry e 0 false + 4 ≤ 0xC000) ∧
    (let e := { running with fir := { running.fir with status := .waitDone } };
      (elemState e).commitAccepted 0 ((elemState e).commitSends 0) = true) ∧
    (let s : State := { crowded with elems := [(0, { blocked with fir := { blocked.fir with status := .waitDone } })] };
      s.commitAccepted 0 (s.commitSends 0) = false) := by decide +kernel

/-- A channel into the element's port with one data token. -/
def filled (e : Element) : State := { fed e with chans := [flume ownPort (some 0) 0 [tokenWith .data 9 1]] }

/-- A packet of that channel with some cargo, at its target, and one of class 0 for the first die. -/
def packetOf (cls : Nat) (cargo : Cargo) : Packet :=
  { cls := cls, colour := 0, load := some 0, chan := 0, seq := 0, dest := ownPort, cargo := cargo, here := { die := 0, plot := 0 },
    target := { die := 0, plot := 0 }, via := none, escape := false, refused := 0 }
def arrived : Packet := packetOf 4 (.token (tokenWith .data 9 1))

theorem witness_TokenEvents :
    (let s := filled matching;
      let e := s.elem 0;
      s.chanAt ownPort 0 (some e.load) = some (flume ownPort (some 0) 0 [tokenWith .data 9 1]) ∧ e.configured = true ∧ e.cut ≠ .saved ∧
        e.colour = 0 ∧ portMode e 0 ≠ .unbound ∧ portQueue e 0 = [] ∧ s.portEnded 0 0 = false) ∧
    (let c := { flume ownPort (some 0) 0 [] with kind := .tagged };
      let s : State := { fed matching with packets := [arrived], chans := [c] };
      s.packets[0]? = some arrived ∧ arrived.here = arrived.target ∧ arrived.via = none ∧
        arrived.cargo = .token (tokenWith .data 9 1) ∧ s.chanAt arrived.dest arrived.colour arrived.load = some c ∧
        c.kind ≠ .ordered ∧ c.spilled = []) ∧
    (let e := { matching with ports := vec 7 [tokenWith .data 9 2] [], store := [(0, entry .ready)] };
      e.rr < 8 ∧ portMode e e.rr = .matching ∧ portQueue e e.rr = [tokenWith .data 9 2] ∧ slotOrdered e (portSlot e e.rr) = false ∧
        (∀ x ∈ e.store, ¬(x.2.slot = portSlot e e.rr ∧ x.2.tag = 2)) ∧
        (e.store.filter fun x => x.2.slot = portSlot e e.rr).length < quotaOf e (portSlot e e.rr) ∧ tabGet e.store 1 = none ∧
        ∀ j, j < 1 → tabGet e.store j ≠ none) ∧
    (let w : Win := { ctx := 0, n := 0, o := 0x3FFFF, final := false };
      let e := { matching with
        active := [(26, 1), (28, 1), (256, 24)], ports := vec 7 [tokenWith .retire 0 0x3FFFF] [], wins := [(winKey 0 0, w)] };
      portMode e 0 = .ret ∧ portQueue e 0 = [tokenWith .retire 0 0x3FFFF] ∧ (tokenWith .retire 0 0x3FFFF).fin = false ∧
        findWin e (portSlot e 0) ((0x3FFFF : Word).extractLsb' 18 14) = some 0 ∧ tabGet e.wins (winKey (portSlot e 0) 0) = some w ∧
        w.final = false ∧ (0x3FFFF : Word).extractLsb' 0 18 = w.o ∧ w.n = w.o + 1) ∧
    (let en := { entry .parked with park := .context 3 5 };
      let s : State := { elemState { matching with store := [(7, en)] } with
        notices := [{ elem := 0, pool := 3, value := 5 }], packets := [packetOf 0 (.notice 3 5 0)] };
      s.notices[0]? = some { elem := 0, pool := 3, value := 5 } ∧ s.arrived (fun c => c = .notice 3 5 0) = true ∧
        (s.elem 0).store = [(7, en)] ∧ en.st = .parked ∧ en.park = .context 3 5) ∧
    (let s : State := { elemState matching with
        pools := [(15, { Pool.reset with asks := [(5, 0)] })], packets := [packetOf 0 (.ask 15 5 0)] };
      (s.pool 15).asks = (5, 0) :: [] ∧ s.arrived (fun c => c = .ask 15 5 0) = true ∧ 5 ∉ (s.pool 15).alloc ∧
        ∀ h ∈ (s.pool 15).held, h.1 ≠ 5) := by decide +kernel

/-- A microprogram image of four operations, one of each shape of Table 3-9. -/
def micro : List Byte := [0x01, 0x20, 0x23, 0x01, 0x34, 0x51, 0x00, 0x60, 1, 2, 3, 4, 4, 0, 0, 0]

theorem witness_MicroValid : MicroValid micro := by
  simp only [MicroValid]; decide +kernel

/-- The image that a MLDM of 0xBFF0 reads in an element that holds it there. -/
theorem witness_MldmImage :
    (List.range 16).map (fun n => (elemState { running with mem := Memory.writeBytes [] 0xBFF0 micro }).emByte 0 0 (0xBFF0 + n)) =
      micro := by decide +kernel

theorem witness_EngineEvents :
    (let x := { Gen.reset with st := .read, cnt := #v[8, 1, 1, 1], held := List.replicate 7 0 };
      x.popped + x.held.length < runLength x ∧ x.held.length < 8) ∧
    (let x := { Gen.reset with st := .write, cnt := #v[2, 1, 1, 1], waiting := [5], pushed := 1 };
      x.waiting = 5 :: [] ∧ x.waiting.length ≤ x.pushed ∧ x.pushed < runLength x) ∧
    (let e := { matching with ports := vec 7 [tokenWith .data 9 2] [] };
      let x := { Gen.reset with st := .drain, f := 65 };
      portQueue e (x.drain.toNat / 256) = [tokenWith .data 9 2] ∧ x.f < 66 ∧ nth e.tiles.toList 0 .empty ≠ .full ∧ Memory.wf e.mem = true) ∧
    (let x := { Gen.reset with st := .drain, f := 66, left := 2 };
      (tokenWith .stop 0 0).kind = .stop ∧ (x.f = 64 ∨ x.f = 66) ∧ 2 ≤ x.left ∧ x.stopping = false) ∧
    (let e := { running with mq := [.mma .e2m1 true true 3 2 15 0xBFE0], tiles := (running.tiles.set 2 .full).set 15 .full };
      e.mq = .mma .e2m1 true true 3 2 15 0xBFE0 :: [] ∧ e.tiles[(2#4).toNat] = .full ∧ e.tiles[(15#4).toNat] = .full) ∧
    (let e := { running with mq := [.msr true 3 2 15], tiles := (running.tiles.set 2 .full).set 15 .full, mprog := some micro };
      e.mq = .msr true 3 2 15 :: [] ∧ e.mprog = some micro ∧ e.tiles[(2#4).toNat] = .full ∧ e.tiles[(15#4).toNat] = .full) ∧
    ({ running with mq := [.mldm 0xBFF0] } : Element).mq = .mldm 0xBFF0 :: [] ∧
    (running.tiles[(15#4).toNat] ≠ .filling ∧ ({ running with mq := [.mfill 15] } : Element).mq = .mfill 15 :: [] ∧
      ({ running with mq := [.mempty 15] } : Element).mq = .mempty 15 :: []) ∧
    ({ running with mq := [.mloada 3 0xBF00] } : Element).mq = .mloada 3 0xBF00 :: [] ∧
    ({ running with mq := [.mstore 3 0xBF00] } : Element).mq = .mstore 3 0xBF00 :: [] := by
  decide +kernel

/-- A node, a binding of its outlet 0, and channels into its first two inputs. -/
def nodeState (cfg : DWord) (q0 q1 : List Token) : State :=
  { State.reset with
    nodes := [(0, { Node.reset with configured := true, active := cfg })]
    binds := [{ sendBind .tagged ownPort with source := { die := 0, kind := .node, pos := 0, out := 0 } }]
    chans := [flume (nodeDest 0 0 0) (some 0) 0 q0, flume (nodeDest 0 0 1) (some 0) 0 q1] }

theorem witness_NodeEvents :
    (let s := nodeState 0 [tokenWith .data 9 2] [tokenWith .data 1 2];
      let n := s.node 0;
      n.configured = true ∧ n.saved = false ∧ nodeKind n.active = .split ∧ s.nodeHead 0 0 0 = some (tokenWith .data 9 2) ∧
        s.nodeHead 0 0 1 = some (tokenWith .data 1 2) ∧ s.nodeEnded 0 0 0 = false ∧ s.nodeEnded 0 0 1 = false ∧
        (match s.srcBind { die := 0, kind := .node, pos := 0, out := 0 } 0 n.load with
          | some b => s.credit b (tokenWith .data 9 2) && !strayStop b (tokenWith .data 9 2)
          | none => false) = true) ∧
    nodeKind (nodeState 1 [] []).nodes[0].2.active = .arm ∧ nodeKind (nodeState 3 [] []).nodes[0].2.active = .unorderedConf ∧
    (let s := nodeState 6 [] [tokenWith .data 9 0];
      let n := s.node 0;
      nodeKind n.active = .orderedConf ∧ n.table = [] ∧ 1 ≤ (n.active.extractLsb' 2 7).toNat ∧
        s.nodeHead 0 0 1 = some (tokenWith .data 9 0) ∧ (tokenWith .data 9 0).tag.extractLsb' 0 18 = 0) := by decide +kernel

/-- A spillway of 64 KiB in the first die, and a spillable channel with one place whose area it is. -/
def spillway (c : Chan) (size : DWord) : State :=
  { State.reset with
    ctrls := [(0, { Controller.reset with spsize := size })]
    chans := [c]
    depths := [{ die := 0, colour := 0, chan := 0, load := some 0, depth := 2, spillable := true, offset := 0 }] }

theorem witness_FabricEvents :
    (let p := { arrived with target := { die := 0, plot := 1 } };
      let s : State := { State.reset with packets := [p] };
      s.packets[0]? = some p ∧
        ((s.nexts p.here).find? fun x => x.1 = { die := 0, plot := 1 }) = some ({ die := 0, plot := 1 }, none) ∧
        s.hopAllowed p { die := 0, plot := 1 } none = true) ∧
    (let p := { arrived with here := { die := 0, plot := 380 }, target := { die := 8, plot := 0 } };
      let s : State := { State.reset with packets := [p], links := [(2, .failed), (40, .failed)] };
      s.packets[0]? = some p ∧
        ((s.nexts p.here).find? fun x => x.1 = { die := 8, plot := 0 }) = some ({ die := 8, plot := 0 }, some 2) ∧
        s.hopAllowed p { die := 8, plot := 0 } (some 2) = true ∧ s.link 0 2 = .failed ∧
        s.linkFaults.contains (0 * 5 + 2, p.colour) = false ∧
        ({ s with linkFaults := [(2, 0)] } : State).linkFaults.contains (0 * 5 + 2, p.colour) = true ∧
        crosses (State.reset.link 0 2) = true) ∧
    (({ arrived with refused := 64 } : Packet).escape = false ∧ arrived.via = none ∧
      State.reset.escapeCulvert { die := 8, plot := 0 } routerCount { die := 0, plot := 380 } = some 2) ∧
    (let c := flume ownPort (some 0) 0 (List.replicate 2 (tokenWith .data 9 1));
      let s := spillway c 65536;
      let x := s.depthOf 0 0 c.chan c.load;
      (s.chans.find? fun x => x.dest = ownPort && x.colour = 0 && x.queue ≠ []) = some c ∧ s.spillDue c = true ∧
        s.spilling ownPort 0 c.load isSpill = false ∧ s.spillPlace x (s.areaBytes x / 16) = some 0 ∧
        (let t := spillway c 0; t.spillDue c = true ∧ t.spillPlace (t.depthOf 0 0 c.chan c.load)
          (t.areaBytes (t.depthOf 0 0 c.chan c.load) / 16) = none)) ∧
    (let c := flume ownPort (some 0) 0 [tokenWith .data 8 1, tokenWith .data 9 1];
      let p := packetOf 2 (.spill false);
      let s : State := { spillway c 65536 with packets := [p] };
      s.packets[0]? = some p ∧ p.here = p.target ∧ p.via = none ∧ s.chanAt p.dest p.colour p.load = some c ∧
        c.queue = [] ++ [tokenWith .data 8 1, tokenWith .data 9 1] ∧ c.spilled = [] ∧ Memory.wf s.phys = true ∧
        s.spillPlace (s.depthOf 0 0 c.chan p.load) (s.areaBytes (s.depthOf 0 0 c.chan p.load) / 16) = some 0) ∧
    (State.reset.link 0 1 = .inService ∧ State.reset.link 63 4 = .inService ∧
      ({ State.reset with links := [(5, .degraded)] } : State).link 1 0 = .degraded) := by
  refine ⟨?_, ?_, ?_, ?_, ?_, ?_⟩ <;> decide +kernel

/-- A memory actor slot that runs, of a kind (0 read, 1 write, 2 atomic), with bytes of memory of its own range and units of
8 bytes. -/
def actor (kind : Nat) : MemActor :=
  { MemActor.reset with
    active := [(9, 16), (24, 2), (28, 1), (32, 1), (36, 1), (40, 8), (56, BitVec.ofNat 8 kind), (57, 12)]
    st := .running, drained := true }

/-- Its request at address 8. -/
def request (index : Nat) : Req :=
  { index := index, va := 8, pas := [], tag := 7, data := [5], cmp := 0, left := [0], got := [], seg := 0, stops := 0, st := .issued,
    outOfRange := false, skip := false, acked := false, stale := false }

/-- The last slot of the first die, with channels into its inputs. -/
def maState (m : MemActor) (chans : List Chan) : State := { State.reset with mas := [(63, m)], chans := chans }

/-- A page of the micro-TLB that maps 0 to offset 0 of the first die. -/
def page0 : Tlb := { colour := 0, va := 0, size := 65536, pa := 0, r := true, w := true, a := true }

theorem witness_MemoryActorRequests :
    (let m := { actor 0 with run := some (0, 7, 1) };
      let s := maState m [];
      maRuns m ∧ m.cur = none ∧ (maCfg m.active).kind = .read ∧ (maCfg m.active).index = false ∧ m.tlb = [] ∧
        m.skipRest = false ∧ m.skipUnit = false ∧ m.dropAddrs = false ∧ s.maIn 0 63 4 = none ∧
        ((maCfg m.active).vbase : Int) ≤ patternVa (maCfg m.active) 0 1 ∧
        patternVa (maCfg m.active) 0 1 + (maCfg m.active).unit ≤ (maCfg m.active).vbase + (maCfg m.active).len) ∧
    (let m := { actor 0 with cur := some (request 0), tlb := [page0] };
      maRuns m ∧ translateAll m (maCfg m.active) (request 0) = some [8] ∧ (maState m []).reaches 0 m (maCfg m.active) [8] = true ∧
        m.flight = [] ∧ (request 0).skip = false ∧ (request 0).outOfRange = false ∧
        (maState m []).reservedBytes 0 + answerBytes (maCfg m.active) { request 0 with pas := [8] } ≤ answerBytesPerDie) ∧
    (let m := { actor 0 with cur := some (request 0) };
      let s := maState m [];
      maRuns m ∧ m.tlb = [] ∧ m.stall = none ∧ m.walking = none ∧ (s.walks 0).length < 256) ∧
    (let m := { actor 0 with cur := some (request 0), walking := some 0 };
      let s := { maState m [] with
        roots := [(0, some 0x10000)]
        phys := [(0x10000, 1), (0x10002, 2), (0x20000, 1), (0x20002, 4), (0x40000, 1), (0x40002, 5), (0x50000, 30)] };
      maRuns m ∧ m.tlb = [] ∧ m.stall = none ∧ (∀ n, n < 64 → n ≠ 63 → (s.ma (0 * 64 + n)).walking = none) ∧
        s.walk 0 0 8 .read = .page { va := 0, size := 65536, pa := 0, r := true, w := true, a := true }) ∧
    (maState (actor 0) []).walk 0 0 8 .read = .xlate 4 0 ∧
    (let s := maState (actor 0) [flume (maDest 0 63 3) (some 0) 0 [tokenWith .data 0 7]];
      (actor 0).dropAddrs = false ∧ s.maHead 0 63 3 = some (tokenWith .data 0 7) ∧ (actor 0).run = none) ∧
    (let s := maState (actor 1) [flume (maDest 0 63 1) (some 0) 0 [tokenWith .data 0 7]];
      (maCfg (actor 1).active).kind ≠ .read ∧ (maCfg (actor 1).active).unit ≤ 8 ∧ (actor 1).unit = none ∧ (actor 1).cur = none ∧
        s.maHead 0 63 1 = some (tokenWith .data 0 7)) ∧
    (let s := maState (actor 0) [flume (maDest 0 63 4) (some 0) 0 [tokenWith .data 0 7]];
      (actor 0).st ≠ .unconfigured ∧ (actor 0).saved = false ∧ s.maHead 0 63 4 = some (tokenWith .data 0 7)) := by
  unfold maRuns; decide +kernel

/-- A slot with nothing in flight has its own share of answer space, however large an implementation makes that. -/
theorem witness_responseRoom (m : MemActor) (h : m.flight = []) : m.flight.length ≤ Config.responseRoom := by simp [h]

/-- An output of that slot bound to an element. -/
def maBind (o : Nat) : Bind := { sendBind .tagged ownPort with source := { die := 0, kind := .memActor, pos := 63, out := o } }

theorem witness_MemoryActorResults :
    (let r := { request 0 with pas := [8] };
      let p := { packetOf 2 (.request 0 63 0 0 1) with dest := maDest 0 63 0 };
      let s : State := { maState { actor 2 with flight := [r] } [] with packets := [p] };
      (s.ma 63).flight = [r] ∧ r.st = .issued ∧ r.left = [0] ∧ r.pas = [8] ∧ (maCfg (actor 2).active).kind = .atomic ∧
        (maCfg (actor 2).active).op = .add ∧ (maCfg (actor 2).active).unit ≤ 8 ∧ (maCfg (actor 1).active).kind = .write ∧
        (maCfg (actor 0).active).kind = .read ∧ paSpace 8 ≠ 2 ∧ s.bad.contains (8 / 8) = false ∧ Memory.wf s.phys = true ∧
        s.requestHome 0 63 r.index (8 / 64) = true ∧ s.behindAtomic 0 63 r 0 = false ∧ s.answerRoom 0 63 r 0 = true ∧
        (actor 2).weir ≠ .sent ∧ inRetire 8 = false) ∧
    (let m := { actor 0 with out := [tokenWith .data 3 7] };
      let s := { maState m [] with binds := [maBind 0] };
      m.st ≠ .unconfigured ∧ m.saved = false ∧ (tokenWith .data 3 7).colour = m.colour ∧
        s.srcBind { die := 0, kind := .memActor, pos := 63, out := 0 } m.colour m.load = some (maBind 0) ∧
        strayStop (maBind 0) (tokenWith .data 3 7) = false ∧ s.credit (maBind 0) (tokenWith .data 3 7) = true) ∧
    (let r := { request 0 with st := .performed, left := [] };
      let s := maState { actor 1 with flight := [r] } [];
      (s.ma 63).flight = [r] ∧ r.acked = false ∧ r.st = .performed ∧ (actor 1).resp = [] ∧ (maCfg (actor 1).active).kind ≠ .read ∧
        s.answered 0 63 r.index = true) ∧
    (let m := { actor 1 with segs := [{ num := 0, units := 3, closed := some 7 }], flight := [{ request 0 with acked := true }] };
      let s := { maState m [] with binds := [maBind 1] };
      (∀ r ∈ m.flight, r.seg = 0 → r.acked = true) ∧ m.cur = none ∧ m.saved = false ∧
        s.srcBind { die := 0, kind := .memActor, pos := 63, out := 1 } m.colour m.load = some (maBind 1) ∧
        s.credit (maBind 1) (maToken m.colour (BitVec.ofNat 64 3) 7) = true) := by decide +kernel

/-! ## Faults, controllers and launches -/

/-- A launch of colour 0 in region die 0. -/
def launch0 : Launch := { launch1 with colour := 0, dies := [0] }

/-- A fault record of an element on the levee network. -/
def onLevee (box channel : Bool) : LeveeRec :=
  { die := 0, pos := 0, record := record 9, colour := 0, load := 0, toBox := box, toChannel := channel, handled := false, past := false }

/-- A tagged fault channel from headgate 15 to an element of the second die. -/
def faultBind : Bind :=
  { sendBind .tagged { die := 1, kind := .element, pos := 0, din := 0 } with
    source := { die := 0, kind := .headgate, pos := 15, out := 0 }, load := some 0 }

/-- The repair channel at outfall 14 with one request. -/
def repairQueue (t : Token) : Chan := flume { die := 0, kind := .outfall, pos := 14, din := 0 } (some 0) 0 [t]

/-- A slot that needs no operand, with a faulted entry. -/
def faulted : Element := { matching with active := [(5, 4), (6, 4), (7, 4), (9, 16)], store := [(5, entry .faulted)] }

theorem witness_FaultEvents :
    (onLevee true false).die = 0 ∧ (State.reset.box 0 0).length < 256 ∧
    (let s : State := { State.reset with launches := [launch0], binds := [faultBind], levee := [onLevee false true] };
      s.faultChannel 0 (onLevee false true).load = some faultBind ∧
        s.srcBind faultBind.source 0 (onLevee false true).load = some faultBind ∧
        s.credit faultBind (faultTokenOf 0 (record 9)) = true) ∧
    (let t := tokenWith .data 0 1;
      let c := repairQueue t;
      let s : State := { State.reset with launches := [launch0], binds := [faultBind], chans := [c] };
      (s.chans.find? fun x => x.colour = 0 && s.isRepair x && x.queue ≠ []) = some c ∧ s.chanAt c.dest c.colour c.load = some c ∧
        c.queue = [t] ∧ c.stuck = false ∧ t.kind = .data ∧ (s.out (c.dest.die * 16 + c.dest.pos)).subst = none ∧
        t.payload.toNat < 2 ^ 31 ∧ t.payload.toNat / 2 ^ 14 % 2 = 0 ∧ t.payload.toNat / 2 ^ 15 % 8192 < 6400 ∧ s.dieOf (t.payload.toNat / 2 ^ 8 % 64) = some 0) ∧
    (let e := faulted;
      e.fir.status = .idle ∧ e.colour = 0 ∧ e.configured = true ∧ e.cut ≠ .saved ∧ findEntry e 0 1 = some (5, entry .faulted) ∧
        (entry .faulted).present = requiredMask e 0 ∧ tabGet e.store 5 = some (entry .faulted) ∧ slotOrdered e 0 = false) ∧
    (let e := coded 0x404 0xF0000000; e.fir.status = .running ∧ e.fir.steps < stepLimitOf e e.fir.slot) ∧
    (match (elemState (coded 0x404 0xF0000000)).fetch with
      | .ok _ => false
      | .error c => decide (c < 256)) = true := by decide +kernel

theorem witness_ControllerEvents :
    (let c := { Controller.reset with lcnt := 5, tcmp := 9, qcnt := 1, quantum := 3 };
      let s := ctlState c;
      (s.ctrl 0).lcnt ≠ (s.ctrl 0).tcmp ∧ (s.ctrl 0).qcnt ≠ (s.ctrl 0).quantum ∧ s.dieOf 0 ≠ some 1 ∧
        ∀ l ∈ s.launches, waits l = false) ∧
    (let c := { Controller.reset with mbox := Controller.reset.mbox.set 3 [record 1] };
      let s : State := { State.reset with ctrls := [(0, c)] };
      s.box 0 3 = [record 1] ∧ s.dieOf ((record 1).w0.toNat % 64) = some 1 ∧ (s.box 1 1).length < 64) ∧
    (let s : State := { State.reset with outs := [(15, { Outfall.reset with message := some (record 1) })] };
      (s.out (0 * 16 + 15)).message = some (record 1) ∧ (s.box 0 4).length < 64) ∧
    (let i : Inval := { kind := .all, colour := 0, va := 0, waiting := [63] };
      let s : State := { ctlState { Controller.reset with inval := some i } with packets := [packetOf 0 (.inval 0 63)] };
      (s.ctrl 0).inval = some i ∧ 63 ∈ i.waiting ∧ s.arrived (fun c => c = .inval 0 63) = true ∧ s.staleOn 63 = false) := by
  decide +kernel

/-- An image of so many loads that declares nothing, and the empty plan of each. -/
def bareImage (loads : Nat) : List Byte := bytesOf 128 [(32, BitVec.ofNat 8 loads)]
def noPlan : Plan := { replicas := [], nodes := [], mas := [] }

/-- A region of the first die. -/
def firstRect : Rect := { x0 := 0, y0 := 0, w := 20, h := 20 }

/-- A data token of colour 1. -/
def token1 : Token := { tokenWith .data 3 4 with colour := 1 }

/-- A headgate 15 bound by colour 1 to an element. -/
def gateBind : Bind :=
  { sendBind .tagged ownPort with source := { die := 0, kind := .headgate, pos := 15, out := 0 }, load := some 0, colour := 1 }

/-- A headgate of colour 1. -/
def gate1 (st : HgState) (held fresh : List Token) : Headgate :=
  { Headgate.reset with st := st, colour := some 1, lid := 7, held := held, fresh := fresh }

/-- A launch of colour 1 that runs in the first die. -/
def active1 : Launch := { launch1 with st := .active, rect := some firstRect, dies := [0] }

theorem witness_HeadgatesAndScheduler :
    (let d : Desc := { gate := 15, colour := 1, lid := 7 };
      let s := launched (bareImage 1) active1 { State.reset with hw := { Headworks.reset with descs := [d] } };
      s.hw.descs[0]? = some d ∧ s.launch 1 = some active1 ∧ active1.lid = d.lid ∧ active1.st ≠ .finishing ∧ (s.head 15).st = .idle) ∧
    (gate1 .holding (List.replicate 63 token1) [token1]).held.length < 64 ∧
    (let s := launched (bareImage 1) active1 { State.reset with heads := [(15, gate1 .streaming [] [token1])], binds := [gateBind] };
      (s.head 15).fresh = [token1] ∧ (s.head 15).colour = some token1.colour ∧ (s.head 15).held = [] ∧
        s.srcBind (headSource 15) token1.colour (s.sourceLoad (headSource 15) token1.colour) = some gateBind ∧
        strayStop gateBind token1 = false ∧ s.credit gateBind token1 = true) ∧
    (let t := { token1 with kind := .stop };
      let s := launched (bareImage 1) active1 { State.reset with heads := [(15, gate1 .streaming [] [t])], binds := [gateBind] };
      (s.head 15).fresh = [t] ∧ (s.head 15).colour = some t.colour ∧ (s.head 15).held = [] ∧ (s.head 15).st = .streaming ∧
        s.srcBind (headSource 15) t.colour (s.sourceLoad (headSource 15) t.colour) = some gateBind ∧ strayStop gateBind t = true) ∧
    (let s := launched (bareImage 1) active1 { State.reset with heads := [(15, gate1 .streaming [token1] [])], binds := [gateBind] };
      s.gateLaunch 15 = some active1 ∧ (s.head 15).held = [token1] ∧ token1.colour = active1.colour ∧
        s.srcBind (headSource 15) 1 (s.sourceLoad (headSource 15) 1) = some gateBind ∧ strayStop gateBind token1 = false ∧
        s.credit gateBind token1 = true) ∧
    (let s := launched (bareImage 1) launch1 State.reset;
      s.launch 1 = some launch1 ∧ waits launch1 = true ∧ s.loaderRuns = true ∧ s.rectSuits launch1 firstRect = true ∧ s.rectChosen launch1 firstRect = true ∧
        s.grantable launch1 firstRect = true ∧ s.behind launch1 firstRect = false ∧
        s.planGood (s.imageOf 1) 1 0 firstRect (s.rectDies firstRect 0) noPlan = true ∧
        s.spillRoom (s.imageOf 1) 0 (s.rectDies firstRect 0) noPlan = true) ∧
    (let l := { launch1 with rect := some firstRect, dies := [0] };
      let s := launched (bareImage 1) l State.reset;
      s.launch 1 = some l ∧ s.fit l (s.imageOf 1) 0 noPlan = .good ∧ s.regionQuiet l = true ∧ s.regionStill l = true ∧
        s.poolsRoom (s.imageOf 1) l.dies = true ∧ s.imageBad l = false ∧ s.loaderRuns = true) ∧
    (let s := launched (bareImage 2) active1 State.reset;
      s.launch 1 = some active1 ∧ (∀ d ∈ active1.dies, s.armedAt d 1 = false) ∧
        nextLoad active1 (imgLoads (s.imageOf 1)) = some (some 1) ∧
        s.stagedAll active1 (nextKey active1 1) = false ∧ s.switching active1 (nextKey active1 1) = false ∧
        s.fit active1 (s.imageOf 1) 1 noPlan = .good ∧ s.imageBad active1 = false ∧ s.loaderRuns = true) := by
  refine ⟨?_, ?_, ?_, ?_, ?_, ?_, ?_, ?_⟩ <;> decide +kernel

/-- The control channel of colour 1 with one token. -/
def controlQueue (t : Token) : Chan := flume { die := 0, kind := .outfall, pos := 15, din := 0 } (some 0) 1 [t]

/-- The first plot of the first die in the region of a colour. -/
def onePlot (c : Nat) : Tab Plot := [(0, { Plot.reset with colour := some c })]

/-- An element whose one actor has ended, which may take a staged bank of one slot. -/
def endedElem : Element := { matching with ends := matching.ends.set 0 .ended, staged := matching.active, armed := true }

theorem witness_LoadEvents :
    (let c := controlQueue token1;
      let s := launched (bareImage 2) active1 { State.reset with chans := [c] };
      (s.chans.find? fun x => x.colour = 1 && x.load = some (s.activeLoad 1) && s.isControl x && x.queue ≠ []) = some c ∧
        c.queue = [token1] ∧ c.stuck = false ∧ token1.kind = .data ∧
        (s.out (c.dest.die * 16 + c.dest.pos)).selected = none ∧ s.launch 1 ≠ none) ∧
    (let e := { matching with ends := matching.ends.set 0 .ended };
      let b := { sendBind .ordered ownPort with closed := true };
      let s : State := { elemState e with binds := [b], stagings := [(0, { Staging.reset with armed := true })] };
      let src : Source := { die := 0, kind := .element, pos := 0, out := 0 };
      e.colour = 0 ∧ e.cut = .open ∧ e.configured = true ∧ e.fir.status = .idle ∧ s.lateSwitch src 0 = none ∧
        (∀ n, n < 8 → n ∈ validSlots e.active → nth e.ends.toList n .active = .ended) ∧ s.srcBind src 0 e.load = some b ∧
        b.closed = true ∧ b.switched = false ∧ b.weired = false ∧ (s.staging 0 0).armed = true ∧
        s.credit b (markerToken .switch 0) = true ∧ s.feedsItself (elemKey 0 0) 0 = true ∧
        (let away := { b with dests := [{ ownPort with pos := 1 }] };
          let s : State := { s with binds := [away] };
          s.srcBind src 0 e.load = some away ∧ s.credit away (markerToken .switch 0) = true ∧
            s.lateSwitch src 0 = none ∧ s.feedsItself (elemKey 0 0) 0 = false)) ∧
    (let e := { Element.reset with armed := true, staged := matching.active };
      let s : State := { elemState e with plots := onePlot 1, stagings := [(1, { Staging.reset with armed := true })] };
      e.configured = false ∧ e.cut = .open ∧ (s.plot (0 * 400 + 0 / 16)).colour = some 1 ∧ (s.staging 0 1).armed = true ∧
        validSlots e.staged ≠ [] ∧ unitsQuiet e = true ∧ s.bad = []) ∧
    (let s : State := { elemState endedElem with stagings := [(0, { Staging.reset with armed := true, load := 64 })] };
      endedElem.configured = true ∧ s.mayElementSwitch 0 = true ∧ validSlots endedElem.staged ≠ [] ∧ s.bad = []) ∧
    (let s := launched (bareImage 2) active1 { State.reset with
        mas := [(0, { actor 0 with colour := 1, load := 65, drained := false }), (1, { actor 0 with colour := 1, st := .ended })] };
      let q := packetOf 0 (.drained 0 1);
      s.launch 1 = some active1 ∧ s.noticeLoad 0 1 = some 65 ∧ s.packets.find? (isNotice 0 1) = none ∧
        s.drainedAll active1 65 = true ∧ (∀ d ∈ active1.dies, (s.staging d 1).weir = false) ∧ s.waitingSlots 0 1 ≠ [] ∧
        s.firmwareRuns (active1.dies.headD active1.die0) = true ∧
        ({ s with packets := [q] } : State).packets.find? (isNotice 0 1) = some q ∧ q.here = q.target ∧ q.via = none) ∧
    (let s := launched (bareImage 2) active1 { State.reset with stagings := [(1, { Staging.reset with armed := true, load := 65 })] };
      s.launch 1 = some active1 ∧ s.loaderRuns = true ∧ active1.absent = false ∧ s.faultChannel 1 0 = none ∧ s.loadDone active1 = true ∧
        nextLoad active1 (imgLoads (s.imageOf 1)) = some (some 1) ∧ s.switching active1 (nextKey active1 1) = true) ∧
    (∀ x ∈ [Select.none, .bad],
      let l := { active1 with select := x };
      let s := launched (bareImage 1) l State.reset;
      let f : OpenFault := { die := 0, pos := 0, record := record 9, colour := 1, told := false, channel := false, past := false };
      s.launch 1 = some l ∧ s.loaderRuns = true ∧ l.absent = false ∧ s.faultChannel 1 0 = none ∧ s.loadDone l = true ∧
        nextLoad l (imgLoads (s.imageOf 1)) = (if x = .bad then none else some none) ∧ s.faultInForce 1 = false ∧
        ({ s with hw := { s.hw with faultsOpen := [f] } } : State).faultInForce 1 = true) ∧
    (let l := { active1 with st := .finishing, status := 3, woke := some 2 };
      let s := launched (bareImage 1) l State.reset;
      s.launch 1 = some l ∧ s.outfallsEmpty 1 = true ∧ (s.out (nth l.dies l.cdie (l.woke.getD l.die0) * 16 + l.cof)).message = none) := by
  refine ⟨?_, ?_, ?_, ?_, ?_, ?_, ?_, ?_⟩ <;> decide +kernel

/-! ## Stream commands

`issuedB`, `isPlaces` and `isBytes` are computed forms of hypotheses of the statements, with the lemmas that say so. -/

/-- Ticket 0 with a command of these fields, to the first die. -/
def comm (code fl colour tgt arg opd : Nat) : Ticket :=
  tick 0 (BitVec.ofNat 64 (code + fl * 2 ^ 8 + colour * 2 ^ 22 + tgt * 2 ^ 32 + arg * 2 ^ 48)) (BitVec.ofNat 64 opd) .issued

/-- A state whose first controller has issued a command, whose packet has arrived. -/
def arriving (c : Controller) (s : State) : State := { s.setCtrl 0 c with packets := [packetOf 0 (.command 0 0)] }
def commanding (t : Ticket) (s : State) : State := arriving { Controller.reset with tickets := [t] } s

def issuedB (s : State) (die ticket : Nat) (c : Cmd) (d : Nat) : Bool :=
  (match s.ticket die ticket with
    | some t => t.phase = .issued && c = cmdOf die t && !s.heldUp die t c
    | none => false) && s.arrived (isCommand die ticket) && c.rsv = 0 && s.dieOf c.ldie = some d

theorem issued_of {s : State} {die ticket : Nat} {c : Cmd} {d : Nat} (h : issuedB s die ticket c d = true) :
    Issued s die ticket c d := by
  unfold issuedB at h
  split at h
  · rename_i t ht
    simp only [Bool.and_eq_true, decide_eq_true_eq, Bool.not_eq_true'] at h
    exact ⟨⟨t, ht, h.1.1.1.1.1, h.1.1.1.1.2, h.1.1.1.2⟩, h.1.1.2, h.1.2, h.2⟩
  · simp at h

def isPlaces (t : Targets) (l : List Nat) : Bool :=
  match t with
  | .places m => m = l
  | .bad _ => false

theorem places_of {t : Targets} {l : List Nat} (h : isPlaces t l = true) : t = .places l := by
  unfold isPlaces at h
  split at h
  · simpa using h
  · simp at h

def isBytes (x : List Byte ⊕ Result) (b : List Byte) : Bool :=
  match x with
  | .inl c => c = b
  | .inr _ => false

theorem bytes_of {x : List Byte ⊕ Result} {b : List Byte} (h : isBytes x b = true) : x = .inl b := by
  unfold isBytes at h
  split at h
  · simpa using h
  · simp at h

/-- The first die with its first plot in colour 1's region, and a staging of load 3 that is open, closed or armed. -/
def staged1 (isOpen closed armed : Bool) : State := { State.reset with
  plots := onePlot 1
  stagings := [(1, { Staging.reset with isOpen := isOpen, load := 3, closed := closed, armed := armed })] }

/-- Eight bytes at address 0 of the issuer's SRAM. -/
def eight : List Byte := [9, 0, 0, 0, 0, 0, 0, 0]
def cfgState (t : Ticket) (s : State) : State := arriving { Controller.reset with tickets := [t], sram := [(0, 9)] } s

theorem witness_ConfigurationCommands :
    (let c := cmdOf 0 (comm 1 0 1 15 0xBFF8 (8 * 2 ^ 48));
      let s := cfgState (comm 1 0 1 15 0xBFF8 (8 * 2 ^ 48)) (staged1 true false false);
      issuedB s 0 0 c 0 = true ∧ cfgOk c = true ∧ c.code = 1 ∧ isBytes (s.cfgBytes c 0) eight = true ∧
        isPlaces (s.elemTargets 0 c) [15] = true ∧ cfgDest c = 0 ∧ c.arg % 8 = 0 ∧ c.arg + cfgLen c ≤ emEnd ∧
        ∀ p ∈ [15], (s.elem (elemKey 0 p)).configured = false) ∧
    (let c := cmdOf 0 (comm 1 1 1 15 504 (8 * 2 ^ 48));
      let s := cfgState (comm 1 1 1 15 504 (8 * 2 ^ 48)) (staged1 true false false);
      issuedB s 0 0 c 0 = true ∧ cfgOk c = true ∧ isBytes (s.cfgBytes c 0) eight = true ∧ isPlaces (s.elemTargets 0 c) [15] = true ∧
        cfgDest c = 1 ∧ c.arg + cfgLen c ≤ 512 ∧ (s.staging 0 c.colour).isOpen = true) ∧
    (let c := cmdOf 0 (comm 1 2 1 15 0 (8 * 2 ^ 48));
      let s := cfgState (comm 1 2 1 15 0 (8 * 2 ^ 48)) (staged1 false false false);
      issuedB s 0 0 c 0 = true ∧ cfgOk c = true ∧ isBytes (s.cfgBytes c 0) eight = true ∧ isPlaces (s.elemTargets 0 c) [15] = true ∧
        cfgDest c = 2 ∧ ∀ p ∈ [15], (s.elem (elemKey 0 p)).configured = false) ∧
    (let c := cmdOf 0 (comm 1 3 1 0 0xFFFF (8 * 2 ^ 48));
      let s := cfgState (comm 1 3 1 0 0xFFFF (8 * 2 ^ 48)) (staged1 false false false);
      issuedB s 0 0 c 0 = true ∧ cfgOk c = true ∧ isBytes (s.cfgBytes c 0) eight = true ∧ isPlaces (s.elemTargets 0 c) [0] = true ∧
        cfgDest c = 3 ∧ c.arg * 4096 + cfgLen c ≤ 2 ^ 28) ∧
    (let c := cmdOf 0 (comm 1 4 1 3 0 (8 * 2 ^ 48));
      let s := cfgState (comm 1 4 1 3 0 (8 * 2 ^ 48)) (staged1 true false false);
      issuedB s 0 0 c 0 = true ∧ cfgOk c = true ∧ isBytes (s.cfgBytes c 0) eight = true ∧ isPlaces (s.nodeTargets 0 c) [3] = true ∧
        cfgDest c = 4 ∧ c.arg = 0 ∧ cfgLen c = 8 ∧ (nodeWord eight).toNat < 2 ^ 9 ∧ (s.staging 0 c.colour).isOpen = true) ∧
    (let c := cmdOf 0 (comm 1 5 1 3 0 (8 * 2 ^ 48));
      let s := cfgState (comm 1 5 1 3 0 (8 * 2 ^ 48)) (staged1 true false false);
      issuedB s 0 0 c 0 = true ∧ cfgOk c = true ∧ isBytes (s.cfgBytes c 0) eight = true ∧ isPlaces (s.nodeTargets 0 c) [3] = true ∧
        cfgDest c = 5 ∧ ∀ n ∈ [3], (s.node (nodeKey 0 n)).configured = false) ∧
    (let c := cmdOf 0 (comm 2 0 1 15 0 (39680 * 2 ^ 32 + 64));
      let s := commanding (comm 2 0 1 15 0 (39680 * 2 ^ 32 + 64)) (staged1 true false false);
      issuedB s 0 0 c 0 = true ∧ c.code = 2 ∧ c.arg = 0 ∧ isPlaces (s.elemTargets 0 c) [15] = true ∧
        (s.staging 0 c.colour).isOpen = true ∧ c.fl = 0 ∧ c.opd = 39680 * 2 ^ 32 + 64) ∧
    (let c := cmdOf 0 (comm 2 1 1 15 0 (2 ^ 28 - 960));
      let s := commanding (comm 2 1 1 15 0 (2 ^ 28 - 960)) (staged1 true false false);
      issuedB s 0 0 c 0 = true ∧ isPlaces (s.elemTargets 0 c) [15] = true ∧ (s.staging 0 c.colour).isOpen = true ∧ c.fl = 1 ∧
        c.opd + 960 ≤ 2 ^ 28) := by
  refine ⟨?_, ?_, ?_, ?_, ?_, ?_, ?_, ?_⟩ <;> decide +kernel

theorem witness_LoadAndRegionCommands :
    (let c := cmdOf 0 (comm 3 0 1 0 63 0);
      let s := commanding (comm 3 0 1 0 63 0) (staged1 false true false);
      let g := s.staging 0 c.colour;
      issuedB s 0 0 c 0 = true ∧ c.code = 3 ∧ c.tgt = 0 ∧ c.arg < 64 ∧ c.opd = 0 ∧ c.fl = 0 ∧ g.isOpen = false ∧ g.armed = false) ∧
    (let c := cmdOf 0 (comm 3 1 1 0 3 0);
      let s := commanding (comm 3 1 1 0 3 0) (staged1 true false false);
      let g := s.staging 0 c.colour;
      issuedB s 0 0 c 0 = true ∧ c.code = 3 ∧ c.fl = 1 ∧ g.isOpen = true ∧ loadNumber g.load = c.arg) ∧
    (let c := cmdOf 0 (comm 4 0 1 15 63 0);
      let s := commanding (comm 4 0 1 15 63 0) { staged1 true false false with elems := [(15, { matching with configured := false })] };
      issuedB s 0 0 c 0 = true ∧ c.code = 4 ∧ c.fl = 0 ∧ isPlaces (s.elemTargets 0 c) [15] = true ∧
        (∀ p ∈ [15], (s.elem (elemKey 0 p)).configured = false) ∧ s.committable 0 [15] = [15] ∧ unitsQuiet (s.elem (elemKey 0 15)) = true) ∧
    (let c := cmdOf 0 (comm 5 0 1 0 3 0);
      let s := commanding (comm 5 0 1 0 3 0) { staged1 true true false with elems := [(15, { matching with colour := 1, load := 3 })] };
      issuedB s 0 0 c 0 = true ∧ c.code = 5 ∧ c.tgt = 0 ∧ c.fl = 0 ∧ c.arg < 64 ∧ c.opd = 0 ∧ (s.staging 0 c.colour).armed = false ∧
        (s.staging 0 c.colour).isOpen = true ∧ loadNumber (s.staging 0 c.colour).load = c.arg ∧
        (s.elem (elemKey 0 15)).colour = c.colour ∧ loadNumber (s.elem (elemKey 0 15)).load = c.arg) ∧
    (let c := cmdOf 0 (comm 6 0 1 0 3 0);
      let s := commanding (comm 6 0 1 0 3 0) (staged1 false true false);
      let g := s.staging 0 c.colour;
      issuedB s 0 0 c 0 = true ∧ c.code = 6 ∧ c.tgt = 0 ∧ g.isOpen = false ∧ g.closed = true ∧ loadNumber g.load = c.arg ∧
        g.armed = false ∧ NoMoves s c.colour ∧ 15 ∈ s.regionElems 0 c.colour) ∧
    (let c := cmdOf 0 (comm 7 0 1 0 0 (19 + 19 * 2 ^ 8 + 2 * 2 ^ 16 + 141 * 2 ^ 24));
      let s := commanding (comm 7 0 1 0 0 (19 + 19 * 2 ^ 8 + 2 * 2 ^ 16 + 141 * 2 ^ 24)) (staged1 false false false);
      issuedB s 0 0 c 0 = true ∧ c.code = 7 ∧ c.tgt = 0 ∧ c.arg = 0 ∧ c.opd < 2 ^ 32 ∧ c.colour ≠ 0 ∧ rectGood (grantRect c) = true ∧
        ∀ p, p < 400 → rectHolds (grantRect c) 0 p = true → (s.plot (0 * 400 + p)).colour = none) ∧
    (let c := cmdOf 0 (comm 8 0 1 0 0 0);
      let s := commanding (comm 8 0 1 0 0 0) (staged1 false false false);
      issuedB s 0 0 c 0 = true ∧ c.code = 8 ∧ c.tgt = 0 ∧ c.arg = 0 ∧ c.opd = 0 ∧ s.regionBusy 0 c.colour = false) := by
  unfold NoMoves
  refine ⟨?_, ?_, ?_, ?_, ?_, ?_, ?_⟩ <;> decide +kernel

theorem witness_CommandsRefused :
    (let t := { comm 5 0 1 0 3 0 with lo := 0xFC05#64 ||| (1#64 <<< 16) };
      let s := commanding t State.reset;
      s.ticket 0 0 = some t ∧ t.phase = .issued ∧ s.heldUp 0 t (cmdOf 0 t) = false ∧
        s.arrived (isCommand 0 0) = true ∧ (cmdOf 0 t).rsv ≠ 0) ∧
    (let t := comm 5 0 1 0 3 0;
      let s := commanding t { State.reset with live := State.reset.live.set 0 { DieMap.full 0 with cls := .dead, ldie := none } };
      s.heldUp 0 t (cmdOf 0 t) = false ∧ s.arrived (isCommand 0 0) = true ∧ s.dieOf (cmdOf 0 t).ldie = none) ∧
    (let t := comm 0x1A 0 1 0 3 0;
      let s := commanding t State.reset;
      s.ticket 0 0 = some t ∧ s.heldUp 0 t (cmdOf 0 t) = false ∧ s.arrived (isCommand 0 0) = true ∧
        0x19 < (cmdOf 0 t).code) ∧
    (let t := { comm 0 0 0 0 0 0 with num := 1 };
      let s := ctlState { Controller.reset with tickets := [comm 5 0 1 0 3 0, t] };
      s.ticket 0 1 = some t ∧ t.phase = .issued ∧ s.heldUp 0 t (cmdOf 0 t) = true) ∧
    (let t := comm 5 0 1 0 3 0;
      let s := { commanding t State.reset with packets := [{ packetOf 0 (.command 0 0) with here := { die := 0, plot := 1 } }] };
      s.ticket 0 0 = some t ∧ t.phase = .issued ∧ s.arrived (isCommand 0 0) = false) := by
  refine ⟨?_, ?_, ?_, ?_, ?_⟩ <;> decide +kernel

/-- A memory actor slot of colour 1 in a state. -/
def slot1 (st : MaState) : MemActor := { actor 0 with colour := 1, st := st }

/-- The bytes of a memory actor block in the issuer's SRAM, at 64. -/
def blockBytes : List Byte := (List.range 64).map fun i => Memory.get (Memory.set (actor 0).active 58 1) i
def blockState (t : Ticket) (s : State) : State :=
  arriving { Controller.reset with tickets := [t], sram := Memory.writeBytes [] 64 blockBytes } s

theorem witness_MemoryActorCommands :
    (let c := cmdOf 0 (comm 9 0 1 63 0 64);
      let s := blockState (comm 9 0 1 63 0 64) (staged1 true false false);
      issuedB s 0 0 c 0 = true ∧ c.code = 9 ∧ c.arg = 0 ∧ c.opd < 2 ^ 32 ∧ c.opd % 64 = 0 ∧ c.tgt ≠ allTargets ∧
        isPlaces (s.slotTargets 0 c) [c.tgt] = true ∧ s.sramBytes c c.opd 64 = some blockBytes ∧ blockReserved (blockMem blockBytes) = true ∧
        blockRanges (blockMem blockBytes) = true ∧ blockRules (blockMem blockBytes) = true ∧ c.fl = 0 ∧
        (s.ma (maKey 0 c.tgt)).st = .unconfigured ∧ s.cmpRule (blockMem blockBytes) 0 c.tgt c.colour none = true) ∧
    (let c := cmdOf 0 (comm 9 1 1 63 0 64);
      let s := blockState (comm 9 1 1 63 0 64) (staged1 true false false);
      issuedB s 0 0 c 0 = true ∧ isPlaces (s.slotTargets 0 c) [c.tgt] = true ∧ s.sramBytes c c.opd 64 = some blockBytes ∧ c.fl = 1 ∧
        (s.staging 0 c.colour).isOpen = true ∧
        s.cmpRule (blockMem blockBytes) 0 c.tgt c.colour (some (s.staging 0 c.colour).load) = true) ∧
    (let c := cmdOf 0 (comm 0x0A 0 1 0xFFFF 0 0);
      let s := commanding (comm 0x0A 0 1 0xFFFF 0 0)
        { staged1 false false false with mas := [(62, slot1 .configured), (63, slot1 .configured)] };
      issuedB s 0 0 c 0 = true ∧ isPlaces (s.slotTargets 0 c) [62, 63] = true ∧ ∀ n ∈ [62, 63], let m := s.ma (maKey 0 n);
        m.st = .configured ∧ m.colour = c.colour ∧ m.saved = false) ∧
    (let c := cmdOf 0 (comm 0x0C 0 1 63 0 0);
      let s := commanding (comm 0x0C 0 1 63 0 0) { staged1 false false false with mas := [(63, slot1 .running)] };
      issuedB s 0 0 c 0 = true ∧ isPlaces (s.slotTargets 0 c) [63] = true ∧ (s.ma (maKey 0 63)).st = .running) ∧
    (let c := cmdOf 0 (comm 0x0B 0 1 63 0 0);
      let s := commanding (comm 0x0B 0 1 63 0 0) { staged1 false false false with mas := [(63, slot1 .halted)] };
      issuedB s 0 0 c 0 = true ∧ isPlaces (s.slotTargets 0 c) [63] = true ∧ (s.ma (maKey 0 63)).st = .halted) ∧
    (let x : Stall := { kind := .request, code := 0x10, seq := 0, tag := 0, index := 0, halted := false };
      let m := { slot1 .stalled with stall := some x };
      let c := cmdOf 0 (comm 0x0B 1 1 63 0 0);
      let s := commanding (comm 0x0B 1 1 63 0 0) { staged1 false false false with mas := [(63, m)] };
      issuedB s 0 0 c 0 = true ∧ isPlaces (s.slotTargets 0 c) [c.tgt] = true ∧ c.fl = 1 ∧ (s.ma (maKey 0 c.tgt)) = m ∧
        m.st = .stalled ∧ m.saved = false ∧ m.stall = some x ∧ x.kind = .request ∧ x.code = 0x10) := by
  refine ⟨?_, ?_, ?_, ?_, ?_, ?_⟩ <;> decide +kernel

/-- A binding command of colour 1, element 15's output 2 to element 14's input 7, tagged channel 9. -/
def bindOpd : Nat := 14 * 2 ^ 6 + 7 * 2 ^ 19 + 1 * 2 ^ 26 + 9 * 2 ^ 28

/-- Element 15, output 0, bound in load 0 for colour 1. -/
def bind15 (out : Nat) : Bind :=
  { sendBind .ordered ownPort with source := { die := 0, kind := .element, pos := 15, out := out }, load := some 0, colour := 1 }

theorem witness_ChannelCommands :
    (let t := comm 0x0D 0 1 15 2 bindOpd;
      let c := cmdOf 0 t;
      let s := commanding t (staged1 false false false);
      let x : Source := { die := 0, kind := .element, pos := 15, out := 2 };
      let y : Dest := { die := 0, kind := .element, pos := 14, din := 7 };
      issuedB s 0 0 c 0 = true ∧ c.code = 0x0D ∧ bindOk c = true ∧ bindSource c 0 = some x ∧ chanKind (c.opd / 2 ^ 26 % 4) = some .tagged ∧
        s.sourcesOf c 0 x = [x] ∧ s.sourceExists x = true ∧ s.sourceOwned x c.colour = true ∧ bitOf c.arg 7 = false ∧
        s.sourceIdle x c.colour = true ∧ c.opd / 2 ^ 23 % 8 < 4 ∧ s.bindDest c = some y ∧ s.destExists y = true ∧ s.destOwned y c.colour = true) ∧
    (let t := comm 0x0D 0 1 15 (2 + 128) (bindOpd + 4 * 2 ^ 23);
      let c := cmdOf 0 t;
      let s := commanding t (staged1 true false false);
      let x : Source := { die := 0, kind := .element, pos := 15, out := 2 };
      issuedB s 0 0 c 0 = true ∧ bindOk c = true ∧ bindSource c 0 = some x ∧ chanKind (c.opd / 2 ^ 26 % 4) = some .tagged ∧
        s.sourcesOf c 0 x = [x] ∧ s.sourceExists x = true ∧ s.sourceOwned x c.colour = true ∧ bitOf c.arg 7 = true ∧
        (s.staging 0 c.colour).isOpen = true ∧ c.opd / 2 ^ 23 % 8 = 4) ∧
    (let t := comm 0x0D 0 1 0xFFFF (2 + 128) bindOpd;
      let c := cmdOf 0 t;
      let s := commanding t (staged1 true false false);
      let x : Source := { die := 0, kind := .element, pos := 0xFFFF, out := 2 };
      issuedB s 0 0 c 0 = true ∧ bindOk c = true ∧ bindSource c 0 = some x ∧ (s.sourcesOf c 0 x).length = 16 ∧
        ∀ z ∈ s.sourcesOf c 0 x, s.sourceExists z = true ∧ s.sourceOwned z c.colour = true) ∧
    (let t := comm 0x0E 0 1 9 0 65536;
      let c := cmdOf 0 t;
      let s := arriving { Controller.reset with tickets := [t], spsize := 65536 } (staged1 false false false);
      issuedB s 0 0 c 0 = true ∧ s.holdsPlot 0 c.colour = true ∧ c.opd / 2 ^ 32 * 65536 < (s.ctrl 0).spsize.toNat ∧ c.code = 0x0E ∧ c.fl < 2 ∧ c.arg = 0 ∧ c.opd / 2 ^ 18 % 2 ^ 14 = 0 ∧ 1 ≤ c.opd % 2 ^ 17 ∧
        c.opd % 2 ^ 17 ≤ 65536 ∧ c.opd / 2 ^ 32 = 0 ∧ c.fl = 0 ∧
        (taken s 0 0).chanEmpty 0 c.colour c.tgt (s.depthLoad 0 c.colour c.tgt) = true) ∧
    (let t := comm 0x0E 1 1 9 0 1;
      let c := cmdOf 0 t;
      let s := arriving { Controller.reset with tickets := [t], spsize := 65536 } (staged1 true false false);
      issuedB s 0 0 c 0 = true ∧ s.holdsPlot 0 c.colour = true ∧ c.tgt ≠ allTargets ∧ c.opd / 2 ^ 32 * 65536 < (s.ctrl 0).spsize.toNat ∧ c.opd % 2 ^ 17 = 1 ∧ c.fl = 1 ∧
        (s.staging 0 c.colour).isOpen = true) ∧
    (let t := comm 0x0E 0 1 0xFFFF 0 65536;
      let c := cmdOf 0 t;
      let z := { flume ownPort none 1 [] with chan := 9 };
      let s := arriving { Controller.reset with tickets := [t], spsize := 65536 } { staged1 false false false with chans := [z] };
      issuedB s 0 0 c 0 = true ∧ s.holdsPlot 0 c.colour = true ∧ c.code = 0x0E ∧ c.tgt = allTargets ∧ c.fl = 0 ∧ c.opd / 2 ^ 18 % 2 ^ 14 = 0 ∧ c.opd % 2 ^ 17 = 65536 ∧
        c.opd / 2 ^ 32 * 65536 < (s.ctrl 0).spsize.toNat ∧ z.dest.die = 0 ∧ z.colour = c.colour ∧ z.load = s.depthLoad 0 c.colour z.chan ∧
        ∀ z ∈ s.chans, (taken s 0 0).chanEmpty 0 c.colour z.chan z.load = true) ∧
    (let t := comm 0x0E 1 1 0xFFFF 0 1;
      let c := cmdOf 0 t;
      let z := { flume ownPort (some 3) 1 [] with chan := 9 };
      let s := arriving { Controller.reset with tickets := [t], spsize := 65536 } { staged1 true false false with chans := [z] };
      issuedB s 0 0 c 0 = true ∧ s.holdsPlot 0 c.colour = true ∧ c.tgt = allTargets ∧ c.fl = 1 ∧ c.opd % 2 ^ 17 = 1 ∧ (s.staging 0 c.colour).isOpen = true ∧
        z.load = some (s.staging 0 c.colour).load) ∧
    (let t := comm 0x0F 0 1 15 2 16;
      let c := cmdOf 0 t;
      let s := commanding t { staged1 false false false with binds := [bind15 2], elems := [(15, { running with colour := 1 })] };
      let x : Source := { die := 0, kind := .element, pos := 15, out := 2 };
      let tok := { tokenWith .data 0 0 with colour := 1 };
      issuedB s 0 0 c 0 = true ∧ c.code = 0x0F ∧ c.fl = 0 ∧ c.arg / 16 = 0 ∧ c.opd < 2 ^ 32 ∧ c.opd % 16 = 0 ∧ bindSource c 0 = some x ∧
        s.sramBytes c c.opd 16 = some (List.replicate 16 0) ∧ s.sourceExists x = true ∧ s.sourceOwned x c.colour = true ∧
        leAt (List.replicate 16 0) 14 2 = 0 ∧ injectToken (List.replicate 16 0) c.colour = some tok ∧
        s.srcBind x c.colour (s.sourceLoad x c.colour) = some (bind15 2) ∧ tok.kind ≠ .stop ∧
        (bind15 2).closed = false ∧ (taken s 0 0).credit (bind15 2) tok = true ∧
        ({ taken s 0 0 with chans := [{ flume ownPort (some 0) 1 (List.replicate 300 tok) with kind := .ordered }] } : State).credit (bind15 2) tok = false) := by
  refine ⟨?_, ?_, ?_, ?_, ?_, ?_, ?_, ?_⟩ <;> decide +kernel

/-- Element 15 with a faulted entry, in a region of colour 1 that a launch runs in. -/
def faulted1 (t : Ticket) : State :=
  commanding t (launched (bareImage 1) active1 { staged1 false false false with elems := [(15, { faulted with colour := 1 })] })

theorem witness_RepairCommands :
    (let t := comm 0x10 0 1 15 0 1;
      let c := cmdOf 0 t;
      let s := faulted1 t;
      let e := s.elem (elemKey 0 c.tgt);
      issuedB s 0 0 c 0 = true ∧ c.code = 0x10 ∧ c.fl = 0 ∧ c.arg < 64 ∧ c.tgt ≠ allTargets ∧ isPlaces (s.elemTargets 0 c) [c.tgt] = true ∧
        e.fir.status = .idle ∧ e.configured = true ∧ e.cut ≠ .saved ∧ findEntry e (c.arg % 8) (BitVec.ofNat 32 c.opd) = some (5, entry .faulted) ∧
        c.arg / 8 = 0 ∧ c.opd < 2 ^ 32 ∧ (entry .faulted).present = requiredMask e 0 ∧ slotOrdered e 0 = false) ∧
    (let t := comm 0x10 0 1 15 (2 * 8) (1 + 8 * 2 ^ 32);
      let c := cmdOf 0 t;
      let s := faulted1 t;
      issuedB s 0 0 c 0 = true ∧ c.arg < 64 ∧ isPlaces (s.elemTargets 0 c) [c.tgt] = true ∧ c.arg / 8 = 2 ∧
        findEntry (s.elem (elemKey 0 c.tgt)) (c.arg % 8) (BitVec.ofNat 32 c.opd) = some (5, entry .faulted) ∧
        s.sramBytes c (c.opd / 2 ^ 32) 8 = some (List.replicate 8 0)) ∧
    (let t := comm 0x10 0 1 15 8 1;
      let c := cmdOf 0 t;
      let s := faulted1 t;
      issuedB s 0 0 c 0 = true ∧ isPlaces (s.elemTargets 0 c) [c.tgt] = true ∧ c.arg / 8 = 1 ∧
        findEntry (s.elem (elemKey 0 c.tgt)) (c.arg % 8) (BitVec.ofNat 32 c.opd) = some (5, entry .faulted) ∧
        tabWf (s.elem (elemKey 0 c.tgt)).store = true) ∧
    (let t := comm 0x10 0 1 15 24 1;
      let c := cmdOf 0 t;
      let s := faulted1 t;
      issuedB s 0 0 c 0 = true ∧ isPlaces (s.elemTargets 0 c) [c.tgt] = true ∧ c.arg / 8 = 3 ∧
        findEntry (s.elem (elemKey 0 c.tgt)) (c.arg % 8) (BitVec.ofNat 32 c.opd) = some (5, entry .faulted) ∧
        s.launch (s.elem (elemKey 0 c.tgt)).colour = some active1) := by
  refine ⟨?_, ?_, ?_, ?_⟩ <;> decide +kernel

theorem witness_ColourAndRootCommands :
    (let t := comm 0x11 1 1 0xFFFF 0 0;
      let c := cmdOf 0 t;
      let s := commanding t { staged1 false false false with
        heads := [(15, gate1 .streaming [] [])], elems := [(15, { running with colour := 1 })] };
      issuedB s 0 0 c 0 = true ∧ c.code = 0x11 ∧ c.fl < 2 ∧ c.arg = 0 ∧ c.opd = 0 ∧ c.tgt = allTargets ∧ NoMoves s c.colour ∧
        (s.head (0 * 16 + 15)).colour = some c.colour ∧ (s.head (0 * 16 + 15)).st = .streaming ∧
        (let e := s.elem (elemKey 0 15); e.configured = true ∧ e.colour = c.colour ∧ e.cut = .open)) ∧
    (let t := comm 0x12 0 1 0 0 0;
      let c := cmdOf 0 t;
      issuedB (commanding t State.reset) 0 0 c 0 = true ∧ c.code = 0x12 ∧ c.fl = 0 ∧ c.tgt = 0 ∧ c.arg = 0 ∧ c.opd = 0) ∧
    (let t := comm 0x15 0 1 15 0 (8192 + 8192 * 2 ^ 16);
      let c := cmdOf 0 t;
      let s := commanding t (staged1 false false false);
      issuedB s 0 0 c 0 = true ∧ s.holdsPlot 0 c.colour = true ∧ c.code = 0x15 ∧ c.arg = 0 ∧ c.tgt < 16 ∧ poolInUse (s.pool (0 * 16 + c.tgt)) = false ∧ c.fl = 0 ∧
        c.opd < 2 ^ 31 ∧ c.opd / 2 ^ 14 % 4 = 0 ∧ 1 ≤ c.opd / 2 ^ 16 ∧ c.opd % 2 ^ 14 + c.opd / 2 ^ 16 ≤ 16384 ∧
        s.poolOverlap 0 c.colour c.tgt (c.opd % 2 ^ 14) (c.opd / 2 ^ 16) = false) ∧
    (let t := comm 0x15 1 1 15 0 0;
      let c := cmdOf 0 t;
      let s := commanding t { staged1 false false false with pools := [(15, { Pool.reset with valid := true, colour := 1, size := 9 })] };
      issuedB s 0 0 c 0 = true ∧ s.holdsPlot 0 c.colour = true ∧ poolInUse (s.pool (0 * 16 + c.tgt)) = false ∧ c.fl = 1 ∧ c.opd = 0) ∧
    (∀ fl, fl < 3 →
      let t := comm 0x18 fl 0 0 0 (2 ^ 32 + 5);
      let c := cmdOf 0 t;
      let is (r : Resident) : Bool := r.index = c.opd % 2 ^ 32 && r.gen = c.opd / 2 ^ 32;
      let r : Resident := { index := 5, name := [], gen := 1, holds := 1, bytes := [], marks := [] };
      let s := commanding t { State.reset with store := [r] };
      let u := commanding t { State.reset with store := [r, { r with gen := 2 }] };
      issuedB s 0 0 c 0 = true ∧ c.code = 0x18 ∧ c.tgt = 0 ∧ c.arg = 0 ∧ c.ldie = 0 ∧ c.fl = fl ∧ r.holds ≠ 0 ∧
        s.store.find? is = some r ∧ (∀ q ∈ s.store, q.name = r.name → q.gen ≤ r.gen) ∧
        issuedB u 0 0 c 0 = true ∧ u.store.find? is = some r ∧ r.holds = 1 ∧ u.store.filter is = [r] ∧
        ∃ q ∈ u.store, q.name = r.name ∧ r.gen < q.gen) ∧
    (∀ fl, fl < 2 →
      let t := comm 0x19 fl 1 0 0 0x10000;
      let c := cmdOf 0 t;
      let s := commanding t State.reset;
      issuedB s 0 0 c 0 = true ∧ c.code = 0x19 ∧ c.tgt = 0 ∧ c.arg = 0 ∧ c.opd % 2 ^ 16 = 0 ∧ c.opd < 2 ^ 52 ∧ c.fl = fl ∧
        paSpace c.opd = 0 ∧ s.paExists c.opd = true) ∧
    (let t := comm 0x17 0 1 0xFFFF 0 (400 + 850 * 2 ^ 16);
      let c := cmdOf 0 t;
      let s := commanding t State.reset;
      issuedB s 0 0 c 0 = true ∧ c.code = 0x17 ∧ c.fl = 0 ∧ c.arg = 0 ∧ c.opd < 2 ^ 26 ∧ c.opd / 2 ^ 11 % 32 = 0 ∧
        isPlaces (s.clockTargets 0 c) [] = true ∧ clockMhz c = 400 ∧ clockMv c = 850) := by
  unfold NoMoves
  refine ⟨?_, ?_, ?_, ?_, ?_, ?_, ?_⟩ <;> decide +kernel

/-- An image with one stateless actor without channels, and a plan that places it on element 15's slot 0. -/
def movable : List Byte :=
  bytesOf 288 ([(20, 1), (32, 1), (128, 3), (136, 144), (140, 128), (146, 2)] ++ (List.range 48).map fun i => (192 + i, 0xFF))
def movingPlan : Plan :=
  { noPlan with replicas := [{ actor := 0, replica := 0, die := 0, pos := 15, slot := 0, addr := 0x400, bitmap := 0 }] }

/-- A REBAL.MOVE of element 15's slot 0 to slot 7 of element 14 for colour 1, and its state. -/
def moveCmd (phase : TicketPhase) : Ticket := { comm 0x16 0 1 15 0 (14 + 7 * 2 ^ 19) with phase := phase }
def moving (t : Ticket) : State :=
  commanding t (launched movable { active1 with plan := movingPlan }
    { staged1 false false false with elems := [(15, { matching with colour := 1 })] })
def move15 : Move := { src := 15, slot := 0, dst := 14, dslot := 7 }

theorem witness_LongCommands :
    (let t := comm 0x13 0 1 15 0 (2 ^ 36 - 4096);
      let c := cmdOf 0 t;
      let s := commanding t { staged1 false false false with elems := [(15, { matching with colour := 1, cut := .frozen })] };
      issuedB s 0 0 c 0 = true ∧ c.code = 0x13 ∧ c.fl = 0 ∧ c.arg = 0 ∧ c.opd < 2 ^ 36 ∧ c.opd % 4096 = 0 ∧
        isPlaces (s.saveTargets 0 c) [c.tgt] = true ∧ c.tgt ≠ allTargets ∧
        ((((taken s 0 0).setStaging 0 c.colour { s.staging 0 c.colour with area := c.opd }).spillDie 0 c.colour).saveGates 0
          c.colour).maySave 0 c.tgt = true) ∧
    (let t := comm 0x13 1 1 63 0 0;
      let c := cmdOf 0 t;
      let s := commanding t { staged1 false false false with mas := [(63, { slot1 .running with weir := .sent })] };
      issuedB s 0 0 c 0 = true ∧ c.fl = 1 ∧ isPlaces (s.saveTargets 0 c) [c.tgt] = true ∧
        ((((taken s 0 0).setStaging 0 c.colour { s.staging 0 c.colour with area := c.opd }).spillDie 0 c.colour).saveGates 0
          c.colour).maySaveMa 0 c.tgt = true) ∧
    (let t := moveCmd .issued;
      let c := cmdOf 0 t;
      let s := moving t;
      let l := { active1 with plan := movingPlan };
      issuedB s 0 0 c 0 = true ∧ c.code = 0x16 ∧ c.fl = 0 ∧ c.arg < 8 ∧ c.opd < 2 ^ 22 ∧ c.opd % 2 ^ 13 < 6400 ∧
        isPlaces (s.elemTargets 0 c) [15] = true ∧ s.moveOf c 0 15 = some move15 ∧ s.launch c.colour = some l ∧
        s.moveAllowed l move15 = true ∧ unitsQuiet (s.elem move15.dst) = true ∧ Memory.wf (s.elem move15.dst).active = true) ∧
    (let t := { comm 0x0C 0 1 63 0 0 with phase := .performed 2 [63] };
      let c := cmdOf 0 t;
      let s := commanding t { State.reset with mas := [(63, slot1 .halted)] };
      let u := commanding t { State.reset with mas := [(63, { slot1 .halted with flight := [request 0] })] };
      s.ticket 0 0 = some t ∧ s.dieOf c.ldie = some 0 ∧ c.code = 0x0C ∧ (∀ n ∈ [63], quietMa (s.ma (maKey 0 n)) = true) ∧
        ∃ n ∈ [63], quietMa (u.ma (maKey 0 n)) = false) ∧
    (let t := { comm 0x14 0 1 63 0 0 with phase := .performed 2 [63] };
      let s := commanding t State.reset;
      s.ticket 0 0 = some t ∧ s.dieOf (cmdOf 0 t).ldie = some 0 ∧ (cmdOf 0 t).code ∉ [0x06, 0x0C, 0x13, 0x16, 0x17]) ∧
    (let t := { comm 0x06 0 1 0 3 0 with phase := .performed 0 [] };
      let c := cmdOf 0 t;
      let s := commanding t { staged1 false true true with elems := [(15, { matching with colour := 1, load := 3 })] };
      let u := commanding t { staged1 false true true with elems := [(15, { matching with colour := 1, load := 2, armed := true })] };
      let v := commanding t (staged1 false true false);
      c.code = 0x06 ∧ (s.staging 0 c.colour).armed = true ∧ s.allSwitched 0 c.colour (s.staging 0 c.colour).load = true ∧
        u.allSwitched 0 c.colour (u.staging 0 c.colour).load = false ∧ (v.staging 0 c.colour).armed = false) ∧
    (let t := moveCmd (.performed 0 [15]);
      let c := cmdOf 0 t;
      let s := moving t;
      let l := { active1 with plan := movingPlan };
      let q := packetOf 0 (.moved (8 * 15 + 0) (8 * 14 + 7));
      s.ticket 0 0 = some t ∧ c.code = 0x16 ∧ s.moveOf c 0 15 = some move15 ∧ (s.elem move15.src).configured = true ∧
        (s.elem move15.src).colour = c.colour ∧ moveGoes s c.colour move15 ∧ s.launch c.colour = some l ∧
        (replicaAt l.plan (move15.src / 6400) (move15.src % 6400) move15.slot).isSome = true ∧ move15.src ≠ move15.dst ∧
        (∀ q ∈ s.packets, isMoved move15 q.cargo = false) ∧
        ({ s with packets := [q] } : State).packets.find? (fun q => isMoved move15 q.cargo) = some q ∧ q.here = q.target ∧
        q.via = none) ∧
    (let t := { comm 0x17 0 1 0 0 (400 + 850 * 2 ^ 16) with phase := .performed 400 [0] };
      let c := cmdOf 0 t;
      let s := commanding t (staged1 false false false);
      let u := commanding t { State.reset with plots := [(0, { Plot.reset with limit := some 1375 })] };
      s.ticket 0 0 = some t ∧ c.code = 0x17 ∧ (s.plot (0 * 400 + 0)).limit = none ∧ u.ticket 0 0 = some t ∧
        (u.plot 0).limit = some 1375) := by
  unfold moveGoes
  refine ⟨?_, ?_, ?_, ?_, ?_, ?_, ?_, ?_⟩ <;> decide +kernel

/-- STATE.LOAD of element 15 from a save area, with its mark and colour at its start. -/
def restoring : State :=
  let a := State.reset.control 0 (elemArea 0 15)
  commanding (comm 0x14 2 1 15 0 0) { staged1 false false false with
    phys := [(a, 0x52), (a + 1, 0x49), (a + 2, 0x45), (a + 3, 0x57), (a + 4, 1)] }

theorem witness_StateLoad :
    (let c := cmdOf 0 (comm 0x14 2 1 15 0 0);
      issuedB restoring 0 0 c 0 = true ∧ c.code = 0x14 ∧ c.fl < 4 ∧ c.arg = 0 ∧ c.opd < 2 ^ 36 ∧ c.opd % 4096 = 0 ∧
        isPlaces (restoring.loadTargets 0 c) [c.tgt] = true ∧ c.fl % 2 = 0 ∧ c.tgt ≠ allTargets ∧
        ∀ p ∈ [c.tgt], restoring.areaBad 0 (elemArea c.opd p) = false ∧ unitsQuiet (restoring.elem (elemKey 0 p)) = true) ∧
    restoring.mayLoad 0 (cmdOf 0 (comm 0x14 2 1 15 0 0)) 15 = true := by
  refine ⟨by decide +kernel, ?_⟩
  have h := Memory.read_copy 4 restoring.phys (restoring.control 0 (elemArea 0 15)) 0 areaSize [] 0 rfl (by decide)
  have hr : Memory.read restoring.phys (restoring.control 0 (elemArea 0 15) + 0) 4 = 0x57454952 := by decide +kernel
  have hc : (cmdOf 0 (comm 0x14 2 1 15 0 0)).fl % 2 = 0 ∧ (cmdOf 0 (comm 0x14 2 1 15 0 0)).opd = 0 ∧
      (restoring.elem (elemKey 0 15)).configured = false := by decide +kernel
  simp only [Nat.add_zero] at h hr
  simp [State.mayLoad, hc.1, hc.2.1, hc.2.2, State.areaMem, Machine.fieldAt, h, hr, saveMagic]

/-- STATE.LOAD of slot 63 from a save area, with its mark and colour 1 at their place. -/
def restoringMa : State :=
  let a := State.reset.control 0 (maArea 0 63)
  commanding (comm 0x14 1 1 63 0 0) { staged1 false false false with
    phys := [(a + 112, 0x52), (a + 113, 0x49), (a + 114, 0x45), (a + 115, 0x57), (a + 116, 1)] }

theorem loads_of {s : State} {d : Nat} {c : Cmd} (hf : c.fl % 2 = 1) (ht : c.tgt ≠ allTargets)
    (hp : s.slotTargets d c = .places [c.tgt]) (hs : maSaved (s.areaMem d (maArea c.opd c.tgt)) c.colour = true) :
    s.loadTargets d c = .places [c.tgt] := by
  have same : ({ c with tgt := if c.tgt = allTargets then 0 else c.tgt } : Cmd) = c := by rw [if_neg ht]
  unfold State.loadTargets
  rw [if_pos hf, same, hp]
  simp [ht, hs]

theorem witness_MemoryActorLoad :
    (let c := cmdOf 0 (comm 0x14 1 1 63 0 0);
      issuedB restoringMa 0 0 c 0 = true ∧ c.code = 0x14 ∧ c.fl = 1 ∧ c.arg = 0 ∧ c.opd = 0 ∧ c.tgt = 63 ∧
        restoringMa.mayLoad 0 c 63 = true ∧ restoringMa.areaBad 0 (maArea c.opd 63) = false) ∧
    restoringMa.loadTargets 0 (cmdOf 0 (comm 0x14 1 1 63 0 0)) = .places [63] := by
  refine ⟨by decide +kernel, ?_⟩
  have hm := Memory.read_copy 4 restoringMa.phys (restoringMa.control 0 (maArea 0 63)) 112 areaSize [] 0 rfl (by decide)
  have hc := Memory.read_copy 1 restoringMa.phys (restoringMa.control 0 (maArea 0 63)) 116 areaSize [] 0 rfl (by decide)
  have rm : Memory.read restoringMa.phys (restoringMa.control 0 (maArea 0 63) + 112) 4 = 0x57454952 := by decide +kernel
  have rc : Memory.read restoringMa.phys (restoringMa.control 0 (maArea 0 63) + 116) 1 = 1 := by decide +kernel
  simp only [Nat.zero_add] at hm hc
  have saved : maSaved (restoringMa.areaMem 0 (maArea 0 63)) 1 = true := by
    simp [maSaved, State.areaMem, Machine.fieldAt, hm, hc, rm, rc, saveMagic]
  have hs : (cmdOf 0 (comm 0x14 1 1 63 0 0)).fl % 2 = 1 ∧ (cmdOf 0 (comm 0x14 1 1 63 0 0)).opd = 0 ∧
      (cmdOf 0 (comm 0x14 1 1 63 0 0)).tgt = 63 ∧ (cmdOf 0 (comm 0x14 1 1 63 0 0)).colour = 1 := by decide +kernel
  refine (loads_of hs.1 (by rw [hs.2.2.1]; decide) (places_of (by decide +kernel)) ?_).trans (by rw [hs.2.2.1])
  rw [hs.2.1, hs.2.2.1, hs.2.2.2, saved]

/-! ## Pre-emption -/

/-- An image of one load that asks for one plot, and the first plot as a region. -/
def onePlotImage : List Byte := bytesOf 128 [(32, 1), (34, 1), (35, 1)]
def plotRect : Rect := { x0 := 0, y0 := 0, w := 1, h := 1 }

theorem witness_CutEvents :
    (let e := { matching with cut := .closed };
      e.configured = true ∧ e.cut = .closed ∧ e.fir.status = .idle ∧ (elemState e).weirElement 0 ≠ none ∧
        ({ crowded with elems := [(0, { e with active := streamBlock })] } : State).weirElement 0 = none) ∧
    (let m := slot1 .running;
      let s : State := { State.reset with mas := [(63, m)], stagings := [(1, { Staging.reset with weir := true })] };
      m.st ≠ .unconfigured ∧ m.saved = false ∧ (s.staging 0 m.colour).weir = true ∧ m.weir = .none ∧
        ({ s with mas := [(63, { m with weir := .stopping })] } : State).maDrained 0 63 = true ∧
        (let u : State := { s with mas := [(63, { m with weir := .stopping })] };
          u.tryEmits (markerToken .weir m.colour) (u.maWeirOuts 0 63) ≠ none) ∧
        (let u : State := { s with
            mas := [(63, { m with weir := .stopping })], binds := [{ maBind 0 with colour := 1 }]
            chans := [{ flume ownPort (some 0) 1 (List.replicate 300 token1) with kind := .tagged }] };
          u.maDrained 0 63 = true ∧ u.tryEmits (markerToken .weir m.colour) (u.maWeirOuts 0 63) = none) ∧
        ({ s with mas := [(63, { m with weir := .stopping, flight := [request 0] })] } : State).maDrained 0 63 = false) ∧
    (let l := { active1 with st := .cutting };
      let s := launched (bareImage 2) l State.reset;
      let t := (l.dies.filter s.firmwareRuns).foldl (fun t d => t.firmwareSave 1 d) s;
      s.loaderRuns = true ∧ s.launch 1 = some l ∧ ¬EndsInCut s l ∧ ¬EndsInCut t l ∧ t.allSaved l = true ∧ t.switchDue l = false ∧
        t.outfallsWeired 1 = true ∧ t.inFlight 1 = 0) ∧
    (let l := { active1 with st := .cutting };
      let s := launched (bareImage 1) l { State.reset with elems := [(15, { running with colour := 1, active := matching.active })] };
      let t := (l.dies.filter s.firmwareRuns).foldl (fun t d => t.firmwareSave 1 d) s;
      s.loaderRuns = true ∧ s.launch 1 = some l ∧ ¬EndsInCut s l ∧ ¬EndsInCut t l ∧ t.allSaved l = false) ∧
    (let l := { active1 with st := .cutting };
      let s := launched (bareImage 1) l State.reset;
      s.launch 1 = some l ∧ s.loaderRuns = true ∧ EndsInCut s l) ∧
    (let l := { launch1 with st := .saved, dies := [0] };
      let s := launched onePlotImage l State.reset;
      s.launch 1 = some l ∧ s.loaderRuns = true ∧ waits l = true ∧ s.rectSuits l plotRect = true ∧ s.rectChosen l plotRect = true ∧
        s.grantable l plotRect = true ∧ s.behind l plotRect = false ∧
        s.planGood (s.imageOf 1) 1 (loadNumber l.load) plotRect l.dies noPlan = true ∧
        s.resumeGood l plotRect noPlan = true ∧ s.stagesAgain l plotRect noPlan = true ∧ (s.grant l plotRect l.dies).regionQuiet l = true ∧
        (s.grant l plotRect l.dies).regionStill l = true) := by
  unfold EndsInCut
  refine ⟨?_, ?_, ?_, ?_, ?_, ?_⟩ <;> decide +kernel

/-! ## Eolo -/

/-- Session 1, for every colour, which expects frame 3 and has sent up to frame 4. -/
def session1 : Session :=
  { num := 1, mask := 0xFFFF, seq := 5, ack := 3, window := 256, held := [], unacked := [], sent := 0, tries := 0, source := 9,
    carrier := .ethernet 0x88B6 0, imgLen := 0, img := [] }

/-- The next request of that session, of a code, with words as its body. -/
def req (code : Nat) (words : List Nat) : Frame :=
  { carrier := .ethernet 0x88B6 0, size := 64 + 8 * words.length, source := 9, ver := 1, type := 0, flags := 0, session := 1, seq := 3,
    ack := 5, window := 256, code := BitVec.ofNat 16 code, length := BitVec.ofNat 32 (8 * words.length), rid := 77,
    body := words.flatMap wordBytes }

/-- A state with that session. -/
def hosted (s : State) : State := { s with hw := { s.hw with sessions := [session1] } }

/-- A journal entry of an earlier request with the same number. -/
def repeatedOf (code : Nat) : JEntry :=
  { jseq := 0, boot := 1, session := 1, seq := 2, code := code, status := 3, rid := 77, summary := List.replicate 32 0 }

/-- The words of a launch descriptor for colour 1, image 0, lid 7, with a headgate word. -/
def descWords (gate : Nat) : List Nat := [2 ^ 60, 7 * 2 ^ 32, gate]

theorem witness_HostTransport :
    (let f := { req 1 [0xFFFF * 2 ^ 16 + 2 ^ 8] with session := 0, seq := 0 };
      let w := bodyWord f 0;
      let s : State := { State.reset with hw := { Headworks.reset with part := { Headworks.reset.part with mgmt := [9] } } };
      s.frameGood f = true ∧ f.type.toNat = 0 ∧ f.code.toNat = 1 ∧ f.session = 0 ∧ f.seq = 0 ∧ s.hw.recovery = false ∧
        f.body.length = 8 ∧ w < 2 ^ 32 ∧ w % 256 ≤ 1 ∧ 1 ≤ w / 2 ^ 8 % 256 ∧ bitOf w 16 = true ∧ f.source ∈ s.hw.part.mgmt ∧
        s.hw.sessions.length < 64 ∧ 64 ≤ (List.replicate 64 session1).length) ∧
    (Taken (hosted State.reset) (req 2 []) session1 ∧ (req 2 []).type.toNat = 0 ∧ (req 2 []).code.toNat = 2 ∧ (req 2 []).body = []) ∧
    (Taken (hosted State.reset) (req 0x0E []) session1 ∧ knownRequest (req 0x0E []) = false) ∧
    (let f := req 3 [15, 8, 5];
      let s := hosted { State.reset with hw := { Headworks.reset with journal := [repeatedOf 3] } };
      Taken s f session1 ∧ s.repeated f = some (repeatedOf 3) ∧ f.code.toNat = 3 ∧ 24 ≤ f.body.length ∧ bodyWord f 0 < 16 ∧
        bodyWord f 1 % 8 = 0 ∧ session1.may (bodyWord f 0) = true) ∧
    (let f := req 7 (descWords 15);
      let s := hosted { State.reset with hw := { Headworks.reset with journal := [repeatedOf 7] } };
      Taken s f session1 ∧ s.repeated f = some (repeatedOf 7) ∧ f.code.toNat = 7 ∧ f.body.length = 24 ∧ s.descriptorOk 0 f = true ∧
        (descriptorOf 0 f).colour ≠ 0 ∧ session1.may (descriptorOf 0 f).colour = true) ∧
    (State.reset.hw.recovery = false ∧ State.reset.frameSession (req 2 []) = none) ∧
    (let s := hosted State.reset;
      let f := req 2 [];
      s.frameSession f = some session1 ∧ tookOf session1 { f with seq := 3 + 257 } = .discard ∧
        tookOf session1 { f with seq := 3 + 256 } = .hold ∧ tookOf session1 { f with seq := 2 } = .again) ∧
    (let f := { req 0 [] with type := 3 };
      let x := { session1 with unacked := [req 2 []], sent := 1 };
      ({ State.reset with hw := { Headworks.reset with sessions := [x] } } : State).frameSession f = some x ∧ f.type.toNat = 3 ∧
        (f.ack - firstUnacked x).toNat ≤ x.sent) ∧
    ((hosted State.reset).session 1 = some session1 ∧ 0 < ({ session1 with unacked := [req 2 []], sent := 1, tries := 64 } : Session).sent) := by
  unfold Taken
  refine ⟨?_, ?_, ?_, ?_, ?_, ?_, ?_, ?_, ?_⟩ <;> decide +kernel

/-- An image of one load without actors, as the loader accepts it; its digest is SHAKE256 of the rest. -/
def le4 (a v : Nat) : Mem := (List.range 4).filterMap fun i =>
  if v / 256 ^ i % 256 = 0 then none else some (a + i, BitVec.ofNat 8 (v / 256 ^ i))
def sectionAt (n kind off len : Nat) : Mem := le4 (128 + 16 * n) kind ++ le4 (136 + 16 * n) off ++ le4 (140 + 16 * n) len
def undigested : List Byte := bytesOf 248 (le4 0 0x47544C53 ++ [(4, 1), (6, 1), (16, 1), (20, 6), (24, 248), (32, 1)] ++
  sectionAt 0 1 224 8 ++ sectionAt 1 2 232 16 ++ sectionAt 2 3 248 0 ++ sectionAt 3 4 248 0 ++ sectionAt 4 9 248 0 ++
  sectionAt 5 10 248 0 ++ [(224, 97)])
def goodImage : List Byte := undigested.take 64 ++
  [138, 48, 29, 224, 27, 243, 230, 246, 27, 121, 35, 137, 243, 78, 19, 211, 223, 249, 53, 124, 69, 97, 90, 211, 213, 69, 63, 120, 215,
    134, 110, 182] ++ undigested.drop 96

/-- An IMAGE request with bytes as its image. -/
def imageReq (total : Nat) (b : List Byte) : Frame :=
  let n := (8 - b.length % 8) % 8
  let body := wordBytes total ++ wordBytes 0 ++ b ++ List.replicate n 0
  { req 5 [] with size := 64 + body.length, length := BitVec.ofNat 32 body.length, body := body }

theorem goodImage_accepted : State.reset.checkImage goodImage = none := by decide +kernel

/-- No address of another space lies in the mirror of the journal. -/
theorem below_mirror (s : State) {a : Nat} (h : a < 3 * 2 ^ 48) : InMirror s a = false := by
  have : 3 * 2 ^ 48 ≤ mirrorAt s.hw.jseq := by unfold mirrorAt paOf; omega
  simp [InMirror]; omega

theorem witness_HostDataRequests :
    (let f := req 3 [0, 0x1000, 5];
      let s := hosted State.reset;
      Taken s f session1 ∧ f.type.toNat = 0 ∧ f.code.toNat = 3 ∧ 24 ≤ f.body.length ∧ bodyWord f 0 < 16 ∧ bodyWord f 1 % 8 = 0 ∧
        session1.may (bodyWord f 0) = true ∧ s.repeated f = none ∧
        s.granules (bodyWord f 0) (bodyWord f 1) .write (f.body.length / 8 - 2) = .inl [0x1000] ∧ inRetire 0x1000 = false ∧
        Memory.wf s.phys = true) ∧
    (let f := req 4 [0, 0x1000, 16];
      let s := hosted State.reset;
      Taken s f session1 ∧ f.code.toNat = 4 ∧ f.body.length = 24 ∧ bodyWord f 2 % 8 = 0 ∧ 8 ≤ bodyWord f 2 ∧ bodyWord f 2 ≤ 8184 ∧
        s.granules (bodyWord f 0) (bodyWord f 1) .read (bodyWord f 2 / 8) = .inl [0x1000, 0x1008] ∧
        s.hostReadAll [0x1000, 0x1008] = some (List.replicate 16 0)) ∧
    (let f := imageReq 512 (List.replicate 8 1);
      let s := hosted State.reset;
      Taken s f session1 ∧ f.type.toNat = 0 ∧ f.code.toNat = 5 ∧ 24 ≤ f.body.length ∧ bodyWord f 0 < 2 ^ 32 ∧ bodyWord f 1 = session1.img.length ∧
        session1.img = [] ∧ (session1.img ++ f.body.drop 16).length < bodyWord f 0) ∧
    (let f := imageReq 248 goodImage;
      let s := hosted State.reset;
      let got := session1.img ++ f.body.drop 16;
      Taken s f session1 ∧ f.code.toNat = 5 ∧ bodyWord f 0 ≤ got.length ∧ got.length < bodyWord f 0 + 8 ∧ s.repeated f = none ∧
        got.take (bodyWord f 0) = goodImage ∧ ∀ r ∈ s.store, r.name = graphName goodImage → r.gen ≤ imgGen goodImage) ∧
    (let f := { imageReq 8 (List.replicate 8 1) with body := wordBytes 8 ++ wordBytes 8 ++ List.replicate 8 1 };
      Taken (hosted State.reset) f session1 ∧ f.code.toNat = 5 ∧ 24 ≤ f.body.length ∧ bodyWord f 0 < 2 ^ 32 ∧
        bodyWord f 1 ≠ session1.img.length) ∧
    (let f := imageReq 8 (List.replicate 8 1);
      let s := hosted State.reset;
      Taken s f session1 ∧ bodyWord f 0 ≤ (f.body.drop 16).length ∧ (s.checkImage ((f.body.drop 16).take (bodyWord f 0))).isSome = true) ∧
    (let f := req 6 [2 ^ 32];
      let r : Resident := { index := 0, name := [], gen := 1, holds := 0, bytes := [], marks := [] };
      let s := hosted { State.reset with store := [r] };
      Taken s f session1 ∧ f.code.toNat = 6 ∧ f.body.length = 8 ∧ s.repeated f = none ∧
        (s.store.find? fun q => q.index = bodyWord f 0 % 2 ^ 32 && q.gen = bodyWord f 0 / 2 ^ 32) = some r ∧
        ({ r with holds := 1 } : Resident).holds ≠ 0) ∧
    (let f := req 8 [7 + 1 * 2 ^ 32 + 15 * 2 ^ 36, 3, 4];
      let s := hosted (launched (bareImage 1) active1 { State.reset with heads := [(15, gate1 .holding [] [])] });
      let w := bodyWord f 0;
      let colour := w / 2 ^ 32 % 16;
      let key := 0 * 16 + w / 2 ^ 36 % 16;
      Taken s f session1 ∧ f.code.toNat = 8 ∧ 24 ≤ f.body.length ∧ f.body.length % 16 = 8 ∧ f.body.length ≤ 8184 ∧ w < 2 ^ 46 ∧
        session1.may colour = true ∧ s.dieOf (w / 2 ^ 40 % 64) = some 0 ∧ s.streamOpen colour (BitVec.ofNat 32 w) key = true ∧
        streamTokens f colour = some [token1] ∧ (s.head (s.streamKey colour key)).answer = none) := by
  unfold Taken
  refine ⟨?_, ?_, ?_, ?_, ?_, ?_, ?_, ?_⟩ <;> decide +kernel

theorem witness_InMirror (s : State) : ∀ i, i < 8 → InMirror s (0x1000 + i) = false := fun _ _ => below_mirror s (by omega)

/-- A resident generation of image 0 with a bare image. -/
def resident0 : Resident := { index := 0, name := [], gen := 1, holds := 0, bytes := bareImage 1, marks := [] }

theorem witness_LaunchRequests :
    (let f := req 7 (descWords 15);
      let d := descriptorOf 0 f;
      let s := hosted { State.reset with store := [resident0] };
      Taken s f session1 ∧ f.type.toNat = 0 ∧ f.code.toNat = 7 ∧ f.body.length = 24 ∧ s.descriptorOk 0 f = true ∧ s.dieOf d.ldie = some 0 ∧
        d.colour ≠ 0 ∧ session1.may d.colour = true ∧ s.repeated f = none ∧ s.launch d.colour = none ∧ s.newest d.image = some resident0 ∧
        d.load < imgLoads resident0.bytes ∧ s.gateBusy (0 * 16 + d.gate) d.colour = false ∧ d.gate = 15 ∧
        hasFaultChannel resident0.bytes d.load = false) ∧
    (let f := req 7 [0, 7 * 2 ^ 32, 15];
      let s := hosted State.reset;
      Taken s f session1 ∧ f.code.toNat = 7 ∧ s.descriptorOk 0 f = true ∧ s.dieOf (descriptorOf 0 f).ldie = some 0 ∧ (descriptorOf 0 f).colour = 0) ∧
    (let f := req 7 [2 ^ 60, 8 * 2 ^ 32, 15];
      let d := descriptorOf 0 f;
      let s := hosted (launched (bareImage 1) active1 State.reset);
      Taken s f session1 ∧ s.descriptorOk 0 f = true ∧ s.dieOf d.ldie = some 0 ∧ s.launch d.colour = some active1 ∧ active1.lid ≠ d.lid) ∧
    (let f := req 7 (descWords 14);
      let d := descriptorOf 0 f;
      let s := hosted (launched (bareImage 1) active1 State.reset);
      Taken s f session1 ∧ s.launch d.colour = some active1 ∧ active1.lid = d.lid ∧ (s.newest d.image).isSome = true ∧
        d.load < imgLoads (s.imageOf active1.colour) ∧ s.gateBusy (0 * 16 + d.gate) d.colour = false ∧ d.gate ≠ 15 ∧ active1.dies ≠ [] ∧
        0 ∈ active1.dies) ∧
    (let f := req 0x0A (0 :: descWords 0);
      let d := descriptorOf 1 f;
      let s := hosted { State.reset with store := [resident0] };
      Taken s f session1 ∧ f.code.toNat = 0x0A ∧ f.body.length = 32 ∧ bodyWord f 0 < 256 ∧ s.descriptorOk 1 f = true ∧ d.colour ≠ 0 ∧
        session1.may d.colour = true ∧ s.repeated f = none ∧ kindByte f = 0 ∧ s.dieOf d.ldie = some 0 ∧ s.launch d.colour = none ∧
        s.newest d.image = some resident0 ∧ d.load < imgLoads resident0.bytes) ∧
    (let f := req 0x0A (1 :: descWords 0);
      let d := descriptorOf 1 f;
      let s := hosted (launched (bareImage 1) active1 State.reset);
      Taken s f session1 ∧ s.descriptorOk 1 f = true ∧ kindByte f = 1 ∧ s.launch d.colour = some active1 ∧ active1.lid = d.lid ∧
        active1.st = .active ∧ s.loaderRuns = true ∧ (hosted State.reset).launch d.colour = none) := by
  unfold Taken
  refine ⟨?_, ?_, ?_, ?_, ?_, ?_⟩ <;> decide +kernel

theorem witness_HostQueriesAndSettings :
    (∀ kind, kind < 5 →
      let f := req 9 (kind :: if kind = 4 then [47311] else if kind = 2 then [0, 0, 0, 0] else []);
      Taken (hosted State.reset) f session1 ∧ f.type.toNat = 0 ∧ f.code.toNat = 9 ∧ bodyWord f 0 < 256 ∧ kindByte f = kind ∧
        f.body.length = (if kind = 4 then 16 else if kind = 2 then 40 else 8) ∧ (kind = 4 → bodyWord f 1 < 65536) ∧ session1.may 0 = true) ∧
    (let f := req 0x0B [4, 127];
      let e := { repeatedOf 3 with jseq := 5 };
      let s := hosted { State.reset with hw := { Headworks.reset with journal := [e] } };
      Taken s f session1 ∧ f.code.toNat = 0x0B ∧ f.body.length = 16 ∧ 1 ≤ bodyWord f 1 ∧ bodyWord f 1 < 128 ∧ s.hw.journal.head? = some e ∧
        (s.hw.journal.filter fun e => bodyWord f 0 ≤ e.jseq) = [e] ∧ bodyWord f 0 < e.jseq) ∧
    (let f := req 0x0C [15 * 2 ^ 15, 1, 0, 1];
      let r : RepairTok := { dest := 15, isMa := false, slot := 0, tag := 1, kind := 0, subst := 0, colour := 1 };
      let s := hosted (launched (bareImage 1) active1 { State.reset with elems := [(15, { faulted with colour := 1 })] });
      let e := s.elem r.dest;
      Taken s f session1 ∧ f.code.toNat = 0x0C ∧ repairFields f = true ∧ session1.may (bodyWord f 3) = true ∧ s.repeated f = none ∧
        s.namedRepair f = some r ∧ s.repairDie f = some 0 ∧ s.firmwareRuns 0 = true ∧
        s.liveElem (r.dest / 6400) (r.dest % 6400) = true ∧ e.fir.status = .idle ∧ e.colour = r.colour ∧ e.configured = true ∧ e.cut ≠ .saved ∧
        findEntry e r.slot r.tag = some (5, entry .faulted) ∧ (entry .faulted).present = requiredMask e 0 ∧ slotOrdered e 0 = false) ∧
    (let f := req 0x0D [2 ^ 12 + 15 * 2 ^ 8, 65536, 65536, 7];
      let s := hosted State.reset;
      let u := hosted { State.reset with
        roots := [(0, some 0x10000)]
        phys := [(0x10000, 1), (0x10002, 2), (0x20000, 1), (0x20002, 4), (0x40000, 1), (0x40002, 5), (0x50000, 30), (0x50004, 0xF0),
          (0x50006, 2)]
        mas := [(0, { actor 0 with active := Memory.set (Memory.set (actor 0).active 56 0x40) 57 13 })] };
      Taken s f session1 ∧ f.code.toNat = 0x0D ∧ session1.may 0 = true ∧ s.repeated f = none ∧ s.peerKey f = some 15 ∧
        bodyWord f 0 / 2 ^ 6 % 4 = 0 ∧ windowOk f = true ∧ s.optInUse (15 / 16) (15 % 16) = false ∧
        u.optInUse (15 / 16) (15 % 16) = true) ∧
    (let f := req 0x0D [2 ^ 12 + 15 * 2 ^ 8 + 3 * 2 ^ 6, 65536, 65536, 7];
      Taken (hosted State.reset) f session1 ∧ bodyWord f 0 / 2 ^ 6 % 4 = 3 ∧ windowOk f = true) ∧
    (let f := req 0x0D [15 * 2 ^ 8 + 2 ^ 6, 15, 7];
      Taken (hosted State.reset) f session1 ∧ bodyWord f 0 / 2 ^ 6 % 4 = 1 ∧ f.body.length = 24 ∧ bodyWord f 0 < 2 ^ 12 ∧ bodyWord f 1 < 16 ∧
        bodyWord f 2 < 2 ^ 32) := by
  unfold Taken
  refine ⟨?_, ?_, ?_, ?_, ?_, ?_⟩ <;> decide +kernel

theorem witness_HostEvents :
    (let l := { active1 with st := .ended };
      ({ State.reset with launches := [l] } : State).launches[0]? = some l ∧
        (State.reset.out (completionOutfall l)).message ≠ some (completionBody l)) ∧
    (let f : OpenFault := { die := 0, pos := 0, record := record 1, colour := 1, told := false, channel := false, past := false };
      let s := hosted (launched (bareImage 1) active1 { State.reset with hw := { Headworks.reset with faultsOpen := [f] } });
      s.hw.faultsOpen = [f] ∧ s.firmwareRuns f.die = true ∧ s.eventSession ((s.launch f.colour).map Launch.session) f.colour = some 1) ∧
    (let h : HaltInfo := { code := 2, pc := 0x200, addr := 9, told := false };
      let s := hosted (ctlState { Controller.reset with halted := some h });
      (s.ctrl 0).halted = some h ∧ s.lowestSession 0 = some 1) ∧
    (let s := hosted (ctlState { Controller.reset with mbox := Controller.reset.mbox.set 2 [record 1] });
      s.lowestSession 0 = some 1 ∧ s.box 0 2 = record 1 :: []) := by decide +kernel

/-- Failures of the first 26 plot routers of the last die. -/
def lost : List DWord := (List.range 26).map fun p => BitVec.ofNat 64 (2 ^ 61 + p * 2 ^ 16 + 63)

theorem dead_of (recs fails : List DWord) (partner : Nat × Nat) (d : Nat) : (bootDie recs fails [] partner d).deadElems =
    (List.range 6400).filter fun p => (unitsOf recs 0 d).contains p || (unitsOf recs 1 d).contains (p / 16) := by simp only [bootDie]

theorem witness_DieWithLoss : (∀ f ∈ lost, recLevel f = 3 → recUnit f ≠ 16) ∧
    6400 - (bootDie lost lost [] (0, 0) 63).deadElems.length < 6000 := by
  have level : (lost.all fun f => decide (recLevel f = 1)) = true := by decide +kernel
  refine ⟨fun f hf h => absurd (of_decide_eq_true (List.all_eq_true.1 level f hf)) (by omega), ?_⟩
  have plots : ∀ n, n < 26 → (unitsOf lost 1 63).contains n = true := by decide +kernel
  have most : (List.range 416).Sublist (bootDie lost lost [] (0, 0) 63).deadElems := by
    have h := (List.range_sublist.2 (by decide : 416 ≤ 6400)).filter
      fun p => (unitsOf lost 0 63).contains p || (unitsOf lost 1 63).contains (p / 16)
    rw [List.filter_eq_self.2 fun p hp => by
      rw [plots (p / 16) (by have := List.mem_range.1 hp; omega), Bool.or_true]] at h
    rwa [dead_of]
  have h := most.length_le
  rw [List.length_range] at h
  generalize (bootDie lost lost [] (0, 0) 63).deadElems.length = n at h
  omega

theorem witness_BootAndPhysics :
    (State.reset.isCompute 63 = true ∧ Memory.wf State.reset.phys = true ∧ (State.reset.ctrl 63).released = true ∧ (State.reset.ctrl 63).halted = none) ∧
    ((State.reset.dieMap 0).cls ≠ .dead ∧ (1050 : Nat) < 1200 ∧ ({ Plot.reset with limit := some 400 } : Plot).limit = some 400 ∧
      Plot.reset.limit = none ∧ 400 < Plot.reset.mhz ∧ ({ Plot.reset with mhz := 400 } : Plot).mhz ≤ 400) := by decide +kernel

/-! ## Reserved bits, padding and limits -/

/-- The reserved bits of an MA.SET block (14 Table 14-9: len has 49 bits, off 48 and control 22) read as zero in a save area (00
R3). -/
theorem test_area_block_reserved :
    Memory.readBytes (areaBlock (Memory.writeBytes [] 0 (List.replicate 64 0xFF))) 8 16 =
      List.replicate 6 0xFF ++ [1, 0] ++ List.replicate 6 0xFF ++ [0, 0] ∧
    Memory.readBytes (areaBlock (Memory.writeBytes [] 0 (List.replicate 64 0xFF))) 56 8 = [0xFF, 0xFF, 0x3F, 0, 0, 0, 0, 0] := by
  decide +kernel

/-- The length of a frame is a multiple of 8 (16 Table 16-1). -/
theorem test_frame_padding : (wholeWords [1, 2, 3]).length = 8 ∧ wholeWords (List.replicate 16 7) = List.replicate 16 7 := by decide

/-- Below 100 °C a limited clock rises by 25 MHz to what was asked, and is limited no more (18 R471). -/
theorem test_limit_rises :
    limitRaised { Plot.reset with limit := some 1350, asked := 1400 } = some 1375 ∧
      limitRaised { Plot.reset with limit := some 1375, asked := 1400 } = none ∧
      clockReached { Plot.reset with limit := some 1375 } 1400 = 1375 := by decide

end Sys2Proof.Tests
end

section
/-! Laws of fault records, of sluices and of provisional effects: what each leaves alone. -/

namespace Sys2Proof.Machine

open Sys2Proof.Statements

/-! ## Fault records change their own tables only -/

section
variable (s : State) (die colour load : Nat) (h : Holds) (code : Nat) (o : Origin) (pos slot : Nat) (w2 w3 : DWord)

@[simp] theorem State.report_elem (k : Nat) : (s.report die colour load h code o pos slot w2 w3).elem k = s.elem k := rfl

/-- The record that a report appends for an element's firing: its die, its code, that it holds an entry, its detail word. -/
theorem State.report_entry_record (hc : code < 256) :
    ∃ r, (s.report die colour load .entry code o pos slot w2 w3).levee = s.levee ++ [r] ∧ r.die = die ∧
      r.record.w0.toNat % 256 = code ∧ r.record.w0.toNat / 65536 % 4 = 1 ∧ r.record.w3 = w3 := by
  refine ⟨_, rfl, rfl, ?_, ?_, rfl⟩ <;>
  · have hseq := ((tabGet s.seqs die).getD 0).isLt
    simp only [faultRecord, Holds.code, BitVec.toNat_ofNat]
    omega
end

/-! ## Sluices: holds dropped, notices sent -/

/-- Only sluice pools, free notices and packets that carry sluice requests or notices differ. -/
structure SluiceOnly (s u : State) : Prop where
  rest : u = { s with pools := u.pools, notices := u.notices, packets := u.packets }
  packets : u.packets.filter (fun x => !isSluice x.cargo) = s.packets.filter (fun x => !isSluice x.cargo)

namespace SluiceOnly
variable {s t u : State}

theorem refl (s : State) : SluiceOnly s s := ⟨rfl, rfl⟩

theorem trans (h : SluiceOnly s t) (g : SluiceOnly t u) : SluiceOnly s u := by
  refine ⟨?_, g.packets.trans h.packets⟩
  rw [g.rest, h.rest]

theorem elems (h : SluiceOnly s u) : u.elems = s.elems := by rw [h.rest]
theorem elem (h : SluiceOnly s u) (k : Nat) : u.elem k = s.elem k := by rw [h.rest]; rfl
theorem ctrls (h : SluiceOnly s u) : u.ctrls = s.ctrls := by rw [h.rest]
theorem phys (h : SluiceOnly s u) : u.phys = s.phys := by rw [h.rest]
theorem levee (h : SluiceOnly s u) : u.levee = s.levee := by rw [h.rest]
theorem focus (h : SluiceOnly s u) : u.focus = s.focus := by rw [h.rest]
theorem agenda (h : SluiceOnly s u) : u.agenda = s.agenda := by rw [h.rest]
theorem launches (h : SluiceOnly s u) : u.launches = s.launches := by rw [h.rest]
theorem chans (h : SluiceOnly s u) : u.chans = s.chans := by rw [h.rest]
end SluiceOnly

theorem State.setPool_sluiceOnly (s : State) (k : Nat) (p : Pool) : SluiceOnly s (s.setPool k p) := ⟨rfl, rfl⟩

theorem State.manage_sluiceOnly (s : State) (colour : Nat) (c : Cargo) (src dst : Loc) (h : isSluice c = true) :
    SluiceOnly s (s.manage colour c src dst) := by
  refine ⟨rfl, ?_⟩
  simp [State.manage, State.sendPacket, h]

theorem State.consume_sluiceOnly (s : State) (p : Cargo → Bool) (h : ∀ c, p c = true → isSluice c = true) :
    SluiceOnly s (s.consume p) := by
  refine ⟨rfl, ?_⟩
  rw [State.consume_packets, List.filter_filter]
  refine List.filter_congr fun x _ => ?_
  cases hp : p x.cargo
  · simp
  · simp [h _ hp]

theorem foldl_sluiceOnly {α : Type} (f : State → α → State) (h : ∀ s a, SluiceOnly s (f s a)) (l : List α) (s : State) :
    SluiceOnly s (l.foldl f s) := by
  induction l generalizing s with
  | nil => exact .refl s
  | cons a l ih => exact (h s a).trans (ih _)

theorem State.notify_sluiceOnly (s : State) (pk v : Nat) : SluiceOnly s (s.notify pk v) := by
  have told : SluiceOnly s { s.setPool pk { s.pool pk with waiters := (s.pool pk).waiters.filter fun w => w.1 ≠ v } with
      notices := s.notices ++ ((s.pool pk).waiters.filter fun w => w.1 = v).map fun w =>
        { elem := w.2, pool := pk, value := v } } := ⟨rfl, rfl⟩
  exact told.trans (foldl_sluiceOnly _ (fun t w => t.manage_sluiceOnly _ _ _ _ rfl) _ _)

theorem State.dropHolds_sluiceOnly (l : List (Nat × Nat)) (s : State) : SluiceOnly s (s.dropHolds l) := by
  induction l generalizing s with
  | nil => exact .refl s
  | cons h l ih => exact ((s.setPool_sluiceOnly _ _).trans (State.notify_sluiceOnly _ _ _)).trans (ih _)

/-! ## Undoing a firing (02 R54) -/

/-- The element once the provisional effects of its firing are undone. -/
def undone (e : Element) : Element :=
  { undoWindow e with fir := { e.fir with sends := [], holds := [], frees := [], advances := 0, opened := false, ask := .none } }

/-- Undoing replaces the element, and beyond it reaches sluices only. -/
theorem State.undo_sluiceOnly (s : State) (k : Nat) : SluiceOnly (s.setElem k (undone (s.elem k))) (s.undo k) := by
  unfold State.undo
  refine SluiceOnly.trans ?_ (State.dropHolds_sluiceOnly _ _)
  dsimp only [undone]
  split
  · refine (State.setPool_sluiceOnly _ _ _).trans (State.consume_sluiceOnly _ _ fun c hc => ?_)
    rw [of_decide_eq_true hc]
    rfl
  · exact .refl _

@[simp] theorem State.undo_elem_same (s : State) (k : Nat) : (s.undo k).elem k = undone (s.elem k) := by
  rw [(s.undo_sluiceOnly k).elem, State.elem_setElem_same]

theorem undoWindow_eq (e : Element) : undoWindow e = { e with wins := windowsBack e } := by
  unfold undoWindow windowsBack
  dsimp only
  cases findWin e e.fir.slot (e.fir.tag.extractLsb' 18 14) with
  | none => rfl
  | some j =>
    dsimp only
    cases tabGet e.wins (winKey e.fir.slot j) with
    | none => rfl
    | some w =>
      dsimp only
      cases e.fir.opened <;> rfl

theorem undone_eq (e : Element) : undone e = { e with
    wins := windowsBack e
    fir := { e.fir with sends := [], holds := [], frees := [], advances := 0, opened := false, ask := .none } } := by
  rw [undone, undoWindow_eq]

/-! ## The abort of a firing (02 R51) -/

/-- A faulted place changes the store and the ends, and nothing else of the element. -/
theorem faultPlace_eq (e : Element) : faultPlace e = { e with store := (faultPlace e).store, ends := (faultPlace e).ends } := by
  unfold faultPlace
  dsimp only
  split
  · split <;> rfl
  · rfl

/-- The entry of the firing is FAULTED with its operands intact. -/
theorem faultPlace_entry (e : Element) (en : Entry) (hp : e.fir.place < 64) (h : tabGet e.store e.fir.place = some en) :
    tabGet (faultPlace e).store e.fir.place = some { en with st := .faulted } := by
  simp [faultPlace, hp, h, setEntry, tabGet_tabSet_same]

theorem nth_setIfInBounds_same {α : Type} {n : Nat} (v : Vector α n) (i : Nat) (x d : α) (h : i < n) :
    nth (v.setIfInBounds i x).toList i d = x := by
  simp [nth, h]

/-- So is the end firing of its slot. -/
theorem faultPlace_end (e : Element) (hp : 64 ≤ e.fir.place) (h : e.fir.place < 72) :
    nth (faultPlace e).ends.toList (e.fir.place - 64) .ended = .faulted := by
  have : ¬e.fir.place < 64 := by omega
  simp only [faultPlace, this, if_false]
  exact nth_setIfInBounds_same _ _ _ _ (by omega)

/-- The element after the abort of its firing. -/
def abortedElem (e : Element) : Element :=
  { bumpPerf (faultPlace (undone e)) 2 1 with
    fir := { (undone e).fir with status := .idle, counted := false, latch := [], swait := none }
    core := { e.core with rpt := none, loops := [] } }

theorem State.abortFiring_elem_same (s : State) (k code pc : Nat) (detail : DWord) :
    (s.abortFiring k code pc detail).elem k = abortedElem (s.elem k) := by
  simp [State.abortFiring, abortedElem, undone_eq]

/-- An abort records one fault: its code, that it holds the entry, its detail word. -/
theorem State.abortFiring_record (s : State) (k code pc : Nat) (detail : DWord) (hc : code < 256) :
    ∃ r, (s.abortFiring k code pc detail).levee = s.levee ++ [r] ∧ r.die = k / 6400 ∧
      r.record.w0.toNat % 256 = code ∧ r.record.w0.toNat / 65536 % 4 = 1 ∧ r.record.w3 = detail := by
  have hl := (s.undo_sluiceOnly k).levee
  rw [State.setElem_levee] at hl
  rw [← hl]
  exact State.report_entry_record _ _ _ _ _ _ _ _ _ _ hc

theorem State.abortFiring_phys (s : State) (k code pc : Nat) (detail : DWord) :
    (s.abortFiring k code pc detail).phys = s.phys := (s.undo_sluiceOnly k).phys

theorem State.abortFiring_aborted (s : State) (k code pc : Nat) (detail : DWord) (hc : code < 256) :
    Aborted s (s.abortFiring k code pc detail) k code := by
  obtain ⟨r, hr, hdie, hcode, hholds, -⟩ := s.abortFiring_record k code pc detail hc
  unfold Aborted
  dsimp only
  rw [State.abortFiring_elem_same]
  have hp := faultPlace_eq (undone (s.elem k))
  have hplace : (undone (s.elem k)).fir.place = (s.elem k).fir.place := by rw [undone_eq]
  have hstore : (undone (s.elem k)).store = (s.elem k).store := by rw [undone_eq]
  refine ⟨rfl, rfl, rfl, rfl, fun en hlt hen => ?_, fun h1 h2 => ?_, ?_, ?_, ?_, rfl, rfl, State.abortFiring_phys .., r, hr, hdie, hcode,
    hholds⟩
  · have := faultPlace_entry (undone (s.elem k)) en (by rw [hplace]; exact hlt) (by rw [hplace, hstore]; exact hen)
    rwa [hplace] at this
  · have := faultPlace_end (undone (s.elem k)) (by rw [hplace]; exact h1) (by rw [hplace]; exact h2)
    rwa [hplace] at this
  · show (faultPlace (undone (s.elem k))).wins = _
    rw [hp, undone_eq]
  · show (faultPlace (undone (s.elem k))).mem = _
    rw [hp, undone_eq]
  · show (faultPlace (undone (s.elem k))).acc = _
    rw [hp, undone_eq]

theorem State.raiseAt_aborted (s : State) (d p code : Nat) (addr detail : DWord) (hf : s.focus = .element d p) (hc : code < 256) :
    Aborted s (s.raiseAt code addr detail) (elemKey d p) code := by
  rw [State.raiseAt_element s code addr detail d p hf]
  exact s.abortFiring_aborted _ _ _ _ hc

theorem State.raise_aborted (s : State) (d p code : Nat) (detail : DWord) (hf : s.focus = .element d p) (hc : code < 256) :
    Aborted s (s.raise code detail) (elemKey d p) code := s.raiseAt_aborted d p code _ detail hf hc

/-- Settles O14: what `raise` does on an element is the abort of its firing. -/
theorem firingAbort : Obligations.FiringAbort := fun s d p code addr detail hf hc =>
  ⟨s.raiseAt_aborted d p code addr detail hf hc, s.raise_aborted d p code detail hf hc⟩

end Sys2Proof.Machine
end

section
/-! What an element's instruction reaches: its own element, sluices, and the records of its faults (02 R48 to R54). -/

namespace Sys2Proof.Machine

open Host (Outcome)
open Sys2Proof.Statements

/-- Nothing but element k, sluices and fault records differs, of what an element could reach. -/
structure LocalTo (k : Nat) (s u : State) : Prop where
  ctrls : u.ctrls = s.ctrls
  phys : u.phys = s.phys
  launches : u.launches = s.launches
  chans : u.chans = s.chans
  packets : u.packets.filter (fun x => !isSluice x.cargo) = s.packets.filter (fun x => !isSluice x.cargo)
  focus : u.focus = s.focus
  agenda : u.agenda = s.agenda
  others : ∀ j, j ≠ k → u.elem j = s.elem j

/-- Whatever next state a meaning answers is local to element k. -/
def OutLocal (k : Nat) (s : State) (o : Out) : Prop := ∀ u, o = .next u → LocalTo k s u

section
variable {k : Nat} {s t u : State}

namespace LocalTo

theorem refl (s : State) : LocalTo k s s := ⟨rfl, rfl, rfl, rfl, rfl, rfl, rfl, fun _ _ => rfl⟩

theorem trans (h : LocalTo k s t) (g : LocalTo k t u) : LocalTo k s u :=
  ⟨g.ctrls.trans h.ctrls, g.phys.trans h.phys, g.launches.trans h.launches, g.chans.trans h.chans, g.packets.trans h.packets,
    g.focus.trans h.focus, g.agenda.trans h.agenda, fun j hj => (g.others j hj).trans (h.others j hj)⟩

theorem of_sluiceOnly (h : SluiceOnly s u) : LocalTo k s u :=
  ⟨h.ctrls, h.phys, h.launches, h.chans, h.packets, h.focus, h.agenda, fun j _ => h.elem j⟩

/-- The element in focus stays in focus. -/
theorem onElem (h : LocalTo k s u) (hk : OnElem s k) : OnElem u k := by
  obtain ⟨d, p, hf, rfl⟩ := hk
  exact ⟨d, p, h.focus.trans hf, rfl⟩

end LocalTo

theorem OutLocal.next (h : LocalTo k s u) : OutLocal k s (.next u) := fun _ e => by cases e; exact h

/-! ## Operations on the state -/

theorem State.setElem_local (s : State) (k : Nat) (e : Element) : LocalTo k s (s.setElem k e) :=
  ⟨rfl, rfl, rfl, rfl, rfl, rfl, rfl, fun _ hj => s.elem_setElem_other e hj⟩

theorem State.setPlot_local (s : State) (j : Nat) (p : Plot) : LocalTo k s (s.setPlot j p) :=
  ⟨rfl, rfl, rfl, rfl, rfl, rfl, rfl, fun _ _ => rfl⟩

theorem State.bumpFree_local (s : State) : LocalTo k s s.bumpFree := ⟨rfl, rfl, rfl, rfl, rfl, rfl, rfl, fun _ _ => rfl⟩

theorem State.report_local (s : State) (die colour load : Nat) (h : Holds) (code : Nat) (o : Origin) (pos slot : Nat)
    (w2 w3 : DWord) : LocalTo k s (s.report die colour load h code o pos slot w2 w3) :=
  ⟨rfl, rfl, rfl, rfl, rfl, rfl, rfl, fun _ _ => rfl⟩

theorem State.undo_local (s : State) (k : Nat) : LocalTo k s (s.undo k) :=
  (s.setElem_local k _).trans (.of_sluiceOnly (s.undo_sluiceOnly k))

theorem State.abortFiring_local (s : State) (k code pc : Nat) (detail : DWord) :
    LocalTo k s (s.abortFiring k code pc detail) :=
  ((s.undo_local k).trans (State.setElem_local _ _ _)).trans (State.report_local _ _ _ _ _ _ _ _ _ _ _)

theorem State.abandon_local (s : State) (k : Nat) (why : Park) : LocalTo k s (s.abandon k why) :=
  (s.undo_local k).trans (State.setElem_local _ _ _)

theorem State.defer_local (s : State) (k : Nat) (why : Park) : LocalTo k s (s.defer k why) := by
  unfold State.defer
  dsimp only
  split
  · exact s.abortFiring_local _ _ _ _
  · split
    · exact s.abortFiring_local _ _ _ _
    · exact s.abandon_local k why

/-! ## Operations on the core in focus -/

theorem State.setCore_local (hk : OnElem s k) (c : CoreRegs) : LocalTo k s (s.setCore c) := by
  obtain ⟨d, p, hf, rfl⟩ := hk
  simp only [State.setCore, hf]
  exact s.setElem_local _ _

theorem State.setReg_local (hk : OnElem s k) (r : BitVec 5) (v : DWord) : LocalTo k s (s.setReg r v) := State.setCore_local hk _

theorem State.setPred_local (hk : OnElem s k) (r : BitVec 3) (v : Bool) : LocalTo k s (s.setPred r v) := State.setCore_local hk _

theorem State.settle_local (hk : OnElem s k) : LocalTo k s s.settle := by
  obtain ⟨d, p, hf, rfl⟩ := hk
  simp only [State.settle, hf]
  exact s.setElem_local _ _

theorem State.stall_local (hk : OnElem s k) : LocalTo k s s.stall := by
  obtain ⟨d, p, hf, rfl⟩ := hk
  simp only [State.stall, hf]
  exact s.setElem_local _ _

theorem State.raiseAt_local (hk : OnElem s k) (code : Nat) (addr detail : DWord) : LocalTo k s (s.raiseAt code addr detail) := by
  obtain ⟨d, p, hf, rfl⟩ := hk
  rw [s.raiseAt_element code addr detail d p hf]
  exact s.abortFiring_local _ _ _ _

theorem State.raise_local (hk : OnElem s k) (code : Nat) (detail : DWord) : LocalTo k s (s.raise code detail) :=
  State.raiseAt_local hk _ _ _

theorem State.push_local (hk : OnElem s k) (q : Fin 3) (v : Word) : LocalTo k s (s.push q v) := by
  obtain ⟨d, p, hf, rfl⟩ := hk
  simp only [State.push, hf]
  exact s.setElem_local _ _

theorem State.storeBytes_local (hk : OnElem s k) (a v n : Nat) : LocalTo k s (s.storeBytes a v n) := by
  obtain ⟨d, p, hf, rfl⟩ := hk
  simp only [State.storeBytes, hf]
  exact s.setElem_local _ _

theorem State.useDraws_local (hk : OnElem s k) (rm : Rm) (n : Nat) : LocalTo k s (s.useDraws rm n) := by
  obtain ⟨d, p, hf, rfl⟩ := hk
  unfold State.useDraws
  split
  · rename_i hf'
    cases hf.symm.trans hf'
    exact s.setElem_local _ _
  · exact .refl s

theorem State.idst_local (hk : OnElem s k) (d : SQ) (v : DWord) : LocalTo k s (s.idst d v) := by
  cases d with
  | s r => exact State.setReg_local hk r v
  | q n => exact State.push_local hk n _

theorem State.fdst_local (hk : OnElem s k) (d : SQ) (v : Word) : LocalTo k s (s.fdst d v) := by
  cases d with
  | s r => exact State.setReg_local hk r _
  | q n => exact State.push_local hk n v

/-- Going on after a local effect is local. -/
theorem LocalTo.advance (h : LocalTo k s t) (hk : OnElem s k) (n : Nat := 4) : LocalTo k s (t.advance n) :=
  have ht := State.setCore_local (h.onElem hk) (t.core.advance n)
  (h.trans ht).trans (State.settle_local (ht.onElem (h.onElem hk)))

theorem LocalTo.goto (h : LocalTo k s t) (hk : OnElem s k) (pc : DWord) : LocalTo k s (t.goto pc) :=
  have ht := State.setCore_local (h.onElem hk) { t.core with pc := pc }
  (h.trans ht).trans (State.settle_local (ht.onElem (h.onElem hk)))

theorem LocalTo.stall (h : LocalTo k s t) (hk : OnElem s k) : LocalTo k s t.stall := h.trans (State.stall_local (h.onElem hk))

theorem LocalTo.raise (h : LocalTo k s t) (hk : OnElem s k) (code : Nat) (detail : DWord) : LocalTo k s (t.raise code detail) :=
  h.trans (State.raise_local (h.onElem hk) code detail)

theorem LocalTo.setElem (h : LocalTo k s t) (e : Element) : LocalTo k s (t.setElem k e) := h.trans (t.setElem_local k e)

theorem LocalTo.setReg (h : LocalTo k s t) (hk : OnElem s k) (r : BitVec 5) (v : DWord) : LocalTo k s (t.setReg r v) :=
  h.trans (State.setReg_local (h.onElem hk) r v)

theorem State.advance_local (hk : OnElem s k) (n : Nat := 4) : LocalTo k s (s.advance n) := (LocalTo.refl s).advance hk n

theorem State.goto_local (hk : OnElem s k) (pc : DWord) : LocalTo k s (s.goto pc) := (LocalTo.refl s).goto hk pc

theorem State.branch_local (hk : OnElem s k) (pc : DWord) : LocalTo k s (s.branch pc) := (State.setCore_local hk _).goto hk pc

/-! ## Pops -/

theorem State.settlePort_local (k i fuel : Nat) (s : State) : LocalTo k s (s.settlePort k i fuel) := by
  induction fuel generalizing s with
  | zero => exact .refl s
  | succ fuel ih =>
    unfold State.settlePort
    dsimp only
    split
    · exact .refl s
    · split
      · exact (s.setElem_local k _).trans (ih _)
      · exact (s.setElem_local k _).trans (ih _)
      · exact (s.setElem_local k _).trans (ih _)
      · exact (s.setElem_local k _).trans (ih _)
      · split
        · exact ((s.setElem_local k _).trans (State.report_local _ _ _ _ _ _ _ _ _ _ _)).trans (ih _)
        · exact .refl s
      · split
        · exact ((s.setElem_local k _).trans (State.report_local _ _ _ _ _ _ _ _ _ _ _)).trans (ih _)
        · exact .refl s
      · exact .refl s

theorem State.takePort_local (s : State) (k i : Nat) : LocalTo k s (s.takePort k i) :=
  (s.setElem_local k _).trans (State.settlePort_local k i 8 _)

/-- The state that a pop leaves, however it ends. -/
def Popped.state : Popped → State
  | .got s _ | .wait s | .fails s _ _ => s

theorem State.popPort_local (k : Nat) (q : Fin 3) (i fuel : Nat) (s : State) : LocalTo k s (s.popPort k q i fuel).state := by
  induction fuel generalizing s with
  | zero => exact .refl s
  | succ fuel ih =>
    unfold State.popPort
    split
    · split <;> exact .refl s
    · split
      · exact s.takePort_local k i
      · exact (s.takePort_local k i).trans (ih _)

theorem State.popOne_local (s : State) (k : Nat) (q : Fin 3) : LocalTo k s (s.popOne k q).state := by
  unfold State.popOne
  dsimp only
  split
  · split
    · exact .refl s
    · exact s.setElem_local k _
  · exact State.popPort_local k q _ 8 s
  · exact .refl s

/-- The state that the stream operands of an instruction leave, however they come out. -/
def Gate.state : Gate → State
  | .go s _ | .wait s | .fails s _ _ => s

theorem State.popAll_local (k : Nat) (l : List (Fin 3)) (s : State) (vals : List Word) :
    LocalTo k s (s.popAll k l vals).state := by
  induction l generalizing s vals with
  | nil => exact .refl s
  | cons q l ih =>
    have h := s.popOne_local k q
    unfold State.popAll
    split <;> rename_i hq <;> rw [hq] at h
    · exact h.trans (ih _ _)
    · exact h.setElem _
    · exact h

theorem State.gate_local (s : State) (k : Nat) (pops : List (Fin 3)) (push : Option (Fin 3)) :
    LocalTo k s (s.gate k pops push).state := by
  unfold State.gate
  dsimp only
  split
  · exact .refl s
  · exact .refl s
  · have h := State.popAll_local k (pops.drop (s.elem k).fir.latch.length) s (s.elem k).fir.latch
    split
    · rename_i hg
      rw [hg] at h
      split
      · split
        · exact h.setElem _
        · exact h
      · exact h
    · exact h

/-! ## Shapes of meanings -/

theorem onElement_local (hk : OnElem s k) (f : Nat → Out) (hf : OutLocal k s (f k)) : OutLocal k s (onElement s f) := by
  obtain ⟨d, p, h, rfl⟩ := hk
  rwa [onElement_element s f d p h]

/-- A controller's instruction on an element is ILLEGAL. -/
theorem onController_local (hk : OnElem s k) (f : Nat → Out) : OutLocal k s (onController s f) := by
  have h := State.raise_local hk cIllegal (noDetail cIllegal)
  obtain ⟨d, p, hf, rfl⟩ := hk
  rw [onController_element s f d p hf]
  exact .next h

/-- An instruction with operands is local if its effect is. -/
theorem withOperands_local (hk : OnElem s k) (ok : Bool) (pops : List (Fin 3)) (push : Option (Fin 3))
    (eff : State → List Word → State) (he : ∀ t vals, OnElem t k → LocalTo k t (eff t vals)) :
    OutLocal k s (withOperands s ok pops push eff) := by
  obtain ⟨d, p, hf, rfl⟩ := id hk
  simp only [withOperands, hf]
  split
  · exact .next (he s [] hk)
  · have h := s.gate_local (elemKey d p) pops push
    split <;> rename_i hg <;> rw [hg] at h
    · exact .next (h.trans (he _ _ (h.onElem hk)))
    · exact .next (h.stall hk)
    · exact .next (h.raise hk _ _)

theorem intOp2_local (hk : OnElem s k) (d : SQ) (a b : Src) (f : DWord → DWord → DWord) : OutLocal k s (intOp2 s d a b f) :=
  withOperands_local hk _ _ _ _ fun _ _ ht => (State.idst_local ht _ _).advance ht

theorem intOp1_local (hk : OnElem s k) (d : SQ) (a : Src) (f : DWord → DWord) : OutLocal k s (intOp1 s d a f) :=
  withOperands_local hk _ _ _ _ fun _ _ ht => (State.idst_local ht _ _).advance ht

theorem immOp_local (hk : OnElem s k) (d a : BitVec 5) (f : DWord → DWord) : OutLocal k s (immOp s d a f) :=
  .next ((State.setReg_local hk _ _).advance hk)

theorem srcOp2_local (hk : OnElem s k) (a b : Src) (eff : State → DWord → DWord → State)
    (he : ∀ t x y, OnElem t k → LocalTo k t (eff t x y)) : OutLocal k s (srcOp2 s a b eff) :=
  withOperands_local hk _ _ _ _ fun _ _ ht => (he _ _ _ ht).advance ht

theorem floatOp2_local (hk : OnElem s k) (d a b : SQ) (f : Word → Word → Word) : OutLocal k s (floatOp2 s d a b f) :=
  withOperands_local hk _ _ _ _ fun _ _ ht => (State.fdst_local ht _ _).advance ht

theorem floatOp1_local (hk : OnElem s k) (d a : SQ) (f : Word → Word) : OutLocal k s (floatOp1 s d a f) :=
  withOperands_local hk _ _ _ _ fun _ _ ht => (State.fdst_local ht _ _).advance ht

theorem fusedOp_local (hk : OnElem s k) (fmt : Fmt) (np na : Bool) (d : BitVec 5) (a b : SQ) :
    OutLocal k s (fusedOp s fmt np na d a b) :=
  withOperands_local hk _ _ _ _ fun _ _ ht => (State.setReg_local ht _ _).advance ht

theorem convertOp_local (hk : OnElem s k) (rm : Rm) (n : Nat) (d a : SQ) (f : (Nat → Word) → Word → Word) :
    OutLocal k s (convertOp s rm n d a f) :=
  withOperands_local hk _ _ _ _ fun _ _ ht =>
    have h := State.useDraws_local ht rm n
    (h.trans (State.fdst_local (h.onElem ht) _ _)).advance ht

theorem convertIntOp_local (hk : OnElem s k) (rm : Rm) (n : Nat) (d a : SQ) (f : (Nat → Word) → Word → DWord) :
    OutLocal k s (convertIntOp s rm n d a f) :=
  withOperands_local hk _ _ _ _ fun _ _ ht =>
    have h := State.useDraws_local ht rm n
    (h.trans (State.idst_local (h.onElem ht) _ _)).advance ht

theorem predOp_local (hk : OnElem s k) (pd : BitVec 3) (v : Bool) : OutLocal k s (predOp s pd v) :=
  .next ((State.setPred_local hk _ _).advance hk)

theorem checked_local (hk : OnElem s k) (f : Fails) (eff : State → State) (he : LocalTo k s (eff s)) :
    OutLocal k s (checked s f eff) := by
  unfold checked
  split
  · exact .next (State.raise_local hk _ _)
  · exact .next (he.advance hk)

theorem sendOne_local (hk : OnElem s k) (o : Nat) (kind : SendKind) (pops : List (Fin 3)) (tok : State → Nat → List Word → Token) :
    OutLocal k s (sendOne s o kind pops tok) := by
  refine onElement_local hk _ ?_
  split
  · exact .next (State.raise_local hk _ _)
  · exact .next (State.raise_local hk _ _)
  · exact withOperands_local hk _ _ _ _ fun t _ ht => (t.setElem_local k _).advance ht

theorem State.enqueue_local (hk : OnElem s k) (c : MCmd) : LocalTo k s (s.enqueue k c) := by
  unfold State.enqueue
  dsimp only
  split
  · exact State.stall_local hk
  · exact (s.setElem_local k _).advance hk

theorem queued_local (hk : OnElem s k) (c : MCmd) : OutLocal k s (queued s c) :=
  onElement_local hk _ (.next (State.enqueue_local hk c))

theorem queuedAt_local (hk : OnElem s k) (a : BitVec 5) (n : Nat) (w : Bool) (c : Nat → MCmd) :
    OutLocal k s (queuedAt s a n w c) := by
  refine onElement_local hk _ ?_
  split
  · exact .next (State.raise_local hk _ _)
  · exact .next (State.enqueue_local hk _)

theorem afterQueue_local (hk : OnElem s k) (eff : Nat → State → State) (he : ∀ t, OnElem t k → LocalTo k t (eff k t)) :
    OutLocal k s (afterQueue s eff) := by
  refine onElement_local hk _ ?_
  dsimp only
  split
  · exact .next (State.stall_local hk)
  · have h := s.setElem_local k { s.elem k with fir := { (s.elem k).fir with clean := false } }
    exact .next ((h.trans (he _ (h.onElem hk))).advance hk)

theorem loadFrom_local (hk : OnElem s k) (wd : LoadWidth) (d : BitVec 5) (ea : DWord) : OutLocal k s (loadFrom s wd d ea) := by
  unfold loadFrom
  split
  · exact .next (State.raiseAt_local hk _ _ _)
  · exact .next ((State.setReg_local hk _ _).advance hk)

theorem storeTo_local (hk : OnElem s k) (wd : StoreWidth) (d : BitVec 5) (ea : DWord) : OutLocal k s (storeTo s wd d ea) := by
  unfold storeTo
  split
  · exact .next (State.raiseAt_local hk _ _ _)
  · exact .next ((State.storeBytes_local hk _ _ _).advance hk)

/-! ## Instructions with a meaning of their own -/

/-- An effect on the element's own record, and on. -/
theorem setElemAdvance_local (hk : OnElem s k) (e : Element) : OutLocal k s (.next (s.setElem k e).advance) :=
  .next ((s.setElem_local k e).advance hk)

/-- A register written, and on. -/
theorem setRegAdvance_local (hk : OnElem s k) (d : BitVec 5) (v : DWord) (n : Nat := 4) :
    OutLocal k s (.next ((s.setReg d v).advance n)) :=
  .next ((State.setReg_local hk d v).advance hk n)

theorem execBr_local (hk : OnElem s k) (pn : Bool) (p : BitVec 3) (off : BitVec 22) : OutLocal k s (execBr pn p off s) := by
  unfold execBr
  split
  · exact .next (State.branch_local hk _)
  · exact .next (State.advance_local hk)

theorem execLoop_local (hk : OnElem s k) (c : BitVec 5) (body : BitVec 16) : OutLocal k s (execLoop c body s) := by
  unfold execLoop
  dsimp only
  split
  · exact .next (State.raise_local hk _ _)
  · split
    · exact .next (State.raise_local hk _ _)
    · split
      · exact .next (State.raise_local hk _ _)
      · split
        · exact .next (State.raise_local hk _ _)
        · split
          · exact .next (State.goto_local hk _)
          · exact .next ((State.setCore_local hk _).goto hk _)

theorem execRpt_local (hk : OnElem s k) (c : BitVec 5) (n : BitVec 4) : OutLocal k s (execRpt c n s) := by
  unfold execRpt
  dsimp only
  split
  · split
    · exact .next ((State.setCore_local hk _).raise hk _ _)
    · exact .next (State.raiseAt_local hk _ _ _)
  · split
    · exact .next (State.raise_local hk _ _)
    · split
      · exact .next (State.goto_local hk _)
      · exact .next ((State.setCore_local hk _).goto hk _)

theorem execSstop_local (hk : OnElem s k) (g : Fin 3) : OutLocal k s (execSstop g s) := by
  refine onElement_local hk _ ?_
  dsimp only
  split
  · exact .next (State.advance_local hk)
  · exact setElemAdvance_local hk _
  · exact setElemAdvance_local hk _
  · split
    · exact setElemAdvance_local hk _
    · exact .next (State.stall_local hk)
  · split <;> exact setElemAdvance_local hk _

theorem execSwait_local (hk : OnElem s k) (g : Fin 3) : OutLocal k s (execSwait g s) := by
  refine onElement_local hk _ ?_
  dsimp only
  split
  · exact .next (State.advance_local hk)
  · split
    · exact .next (State.raise_local hk _ _)
    · split
      · exact setElemAdvance_local hk _
      · exact .next ((s.setElem_local k _).stall hk)
  · split
    · exact .next (State.raise_local hk _ _)
    · exact .next (State.stall_local hk)
  · exact .next (State.stall_local hk)
  · exact .next (State.raise_local hk _ _)

theorem State.sendTile_local (hk : OnElem s k) (o n flits : Nat) (clear : Bool) : LocalTo k s (s.sendTile k o n flits clear) := by
  unfold State.sendTile
  split
  · exact State.raise_local hk _ _
  · have h := s.setElem_local k { s.elem k with
      fir := { (s.elem k).fir with sends := (s.elem k).fir.sends ++ s.bulk k o (tileAddr n) flits } }
    dsimp only
    split
    · exact (h.setElem _).advance hk
    · exact h.advance hk

theorem execSendbTile_local (hk : OnElem s k) (o n : BitVec 4) (scale clear : Bool) :
    OutLocal k s (execSendbTile o n scale clear s) := by
  refine onElement_local hk _ ?_
  split
  · exact .next (State.raise_local hk _ _)
  · split
    · exact .next (State.stall_local hk)
    · split
      · exact .next (State.stall_local hk)
      · exact .next (State.raise_local hk _ _)
      · exact .next (State.sendTile_local hk _ _ _ _)

theorem State.sendBulk_local (hk : OnElem s k) (o : Nat) (base n : DWord) : LocalTo k s (s.sendBulk k o base n) := by
  unfold State.sendBulk
  split
  · exact State.raise_local hk _ _
  · split
    · exact State.raise_local hk _ _
    · exact (s.setElem_local k _).advance hk

theorem execSendbMemory_local (hk : OnElem s k) (o : BitVec 4) (a : Src) (b : BitVec 5) :
    OutLocal k s (execSendbMemory o a b s) := by
  refine onElement_local hk _ ?_
  split
  · exact .next (State.raise_local hk _ _)
  · exact withOperands_local hk _ _ _ _ fun _ _ ht => State.sendBulk_local ht _ _ _

theorem execTagret_local (hk : OnElem s k) (a : Src) (fin : Bool) : OutLocal k s (execTagret a fin s) := by
  refine onElement_local hk _ ?_
  split
  · exact .next (State.raise_local hk _ _)
  · exact sendOne_local hk _ _ _ _

theorem execTagnext_local (hk : OnElem s k) (d : BitVec 5) : OutLocal k s (execTagnext d s) := by
  refine onElement_local hk _ ?_
  dsimp only
  split
  · exact .next (State.raise_local hk _ _)
  · split
    · exact .next (s.defer_local k _)
    · exact .next (((s.setElem_local k _).setReg hk _ _).advance hk)

theorem State.askContext_local (hk : OnElem s k) (pk i : Nat) (key : DWord) : LocalTo k s (s.askContext k pk i key) := by
  unfold State.askContext
  dsimp only
  split
  · exact State.raise_local hk _ _
  · refine LocalTo.stall (LocalTo.setElem ?_ _) hk
    exact (LocalTo.of_sluiceOnly (s.setPool_sluiceOnly _ _)).trans
      (.of_sluiceOnly (State.manage_sluiceOnly _ _ _ _ _ rfl))

theorem execCtxnew_local (hk : OnElem s k) (d : BitVec 5) (a : Src) (pool : BitVec 4) : OutLocal k s (execCtxnew d a pool s) := by
  refine onElement_local hk _ ?_
  dsimp only
  split
  · exact .next (((s.setElem_local k _).setReg hk _ _).advance hk)
  · exact .next (State.stall_local hk)
  · exact .next (s.defer_local k _)
  · split
    · exact .next (State.raise_local hk _ _)
    · exact withOperands_local hk _ _ _ _ fun _ _ ht => State.askContext_local ht _ _ _

theorem State.recordFree_local (hk : OnElem s k) (pk i : Nat) (v : DWord) : LocalTo k s (s.recordFree k pk i v) := by
  unfold State.recordFree
  dsimp only
  split
  · exact State.raise_local hk _ _
  · split
    · exact State.raise_local hk _ _
    · split
      · exact LocalTo.advance ((s.setElem_local k _).trans (.of_sluiceOnly (State.dropHolds_sluiceOnly _ _))) hk
      · exact (s.setElem_local k _).advance hk

theorem execCtxfree_local (hk : OnElem s k) (a : Src) (pool : BitVec 4) : OutLocal k s (execCtxfree a pool s) := by
  refine onElement_local hk _ ?_
  split
  · exact .next (State.raise_local hk _ _)
  · exact withOperands_local hk _ _ _ _ fun _ _ ht => State.recordFree_local ht _ _ _

theorem execIcvtf64_local (hk : OnElem s k) (dst : Fmt) (rm : Rm) (sgn : Bool) (d : SQ) (a : BitVec 5) :
    OutLocal k s (execIcvtf64 dst rm sgn d a s) :=
  withOperands_local hk _ _ _ _ fun _ _ ht =>
    have h := State.useDraws_local ht rm 1
    (h.trans (State.fdst_local (h.onElem ht) _ _)).advance ht

theorem execMma_local (hk : OnElem s k) (mf : MmaFmt) (sc clear : Bool) (acc : BitVec 2) (ta tb : BitVec 4) (a : BitVec 5) :
    OutLocal k s (execMma mf sc clear acc ta tb a s) := by
  unfold execMma
  split
  · exact queuedAt_local hk _ _ _ _
  · exact queued_local hk _

theorem execFenceE_local (hk : OnElem s k) : OutLocal k s (execFenceE s) := by
  refine onElement_local hk _ ?_
  split
  · exact .next (State.advance_local hk)
  · exact .next (State.stall_local hk)

theorem execPerf_local (hk : OnElem s k) (d : BitVec 5) (n : Fin 8) : OutLocal k s (execPerf d n s) :=
  onElement_local hk _ (.next ((((s.setElem_local k _).trans (State.bumpFree_local _)).setReg hk _ _).advance hk))

theorem execCyc_local (hk : OnElem s k) (d : BitVec 5) : OutLocal k s (execCyc d s) :=
  onElement_local hk _ (.next ((((s.setPlot_local _ _).trans (State.bumpFree_local _)).setReg hk _ _).advance hk))

/-! ## Every instruction but DONE -/

theorem exec_local (hk : OnElem s k) (i : Instr) (hi : i.isIsa = true) (hd : i ≠ .done) : OutLocal k s (exec i s) := by
  cases i <;> unfold exec
  case add | sub | and | or | xor | andn | orn | sll | srl | sra | rol | mul | mulh | mulhz | div | divz | rem | remz | min | max
      | minz | maxz | adds | subs | ext | extz | rand =>
    exact intOp2_local hk _ _ _ _
  case clz | ctz | popc | brev | bswap => exact intOp1_local hk _ _ _
  case addi | andi | ori | xori | slli | srli | srai => exact immOp_local hk _ _ _
  case ins | sel => exact srcOp2_local hk _ _ _ fun _ _ _ ht => State.setReg_local ht _ _
  case cmp => exact srcOp2_local hk _ _ _ fun _ _ _ ht => State.setPred_local ht _ _
  case pand | por | pxor | pnot | pmov | cmpi => exact predOp_local hk _ _
  case lui => exact setRegAdvance_local hk _ _
  case lix => exact setRegAdvance_local hk _ _ 8
  case ld | ldx => exact loadFrom_local hk _ _ _
  case st | stx => exact storeTo_local hk _ _ _
  case ldc | scount | mstat | qshape | rdid => exact onElement_local hk _ (setRegAdvance_local hk _ _)
  case br => exact execBr_local hk _ _ _
  case jmp => exact .next (State.branch_local hk _)
  case call | callr => exact .next ((State.setReg_local hk _ _).goto hk _)
  case jr | ret => exact .next (State.goto_local hk _)
  case done => exact absurd rfl hd
  case nop => exact .next (State.advance_local hk)
  case loop => exact execLoop_local hk _ _
  case rpt => exact execRpt_local hk _ _
  case fadd | fsub | fmul | fdiv | fmin | fmax | fcps | fpack => exact floatOp2_local hk _ _ _ _
  case fabs | fneg | fsqrt | frcp | frsq | fexp2 | flog2 | fsum2 | funpack => exact floatOp1_local hk _ _ _
  case fclass => exact withOperands_local hk _ _ _ _ fun _ _ ht => (State.setReg_local ht _ _).advance ht
  case fma | fms | fnma => exact fusedOp_local hk _ _ _ _ _ _
  case fcvt | fcvtFromE2m1 | fcvtToE2m1 | icvtf32 | icvtf8 => exact convertOp_local hk _ _ _ _ _
  case fcvti32 | fcvti64 | fcvti8 => exact convertIntOp_local hk _ _ _ _ _
  case icvtf64 => exact execIcvtf64_local hk _ _ _ _ _
  case fcmp => exact withOperands_local hk _ _ _ _ fun _ _ ht => (State.setPred_local ht _ _).advance ht
  case sbindGenerator | sbindInputPort | sbindOutputPort | scfg | sstart =>
    exact onElement_local hk _ (checked_local hk _ _ (s.setElem_local k _))
  case sbindUnbind => exact onElement_local hk _ (setElemAdvance_local hk _)
  case sstop => exact execSstop_local hk _
  case swait => exact execSwait_local hk _
  case send | sendt | mreq | stop | eos => exact sendOne_local hk _ _ _ _
  case sendbTile => exact execSendbTile_local hk _ _ _ _
  case sendbMemory => exact execSendbMemory_local hk _ _ _
  case tagnext => exact execTagnext_local hk _
  case tagret => exact execTagret_local hk _ _
  case tagmk | tagctx | tagiter =>
    exact onElement_local hk _ (withOperands_local hk _ _ _ _ fun _ _ ht => (State.setReg_local ht _ _).advance ht)
  case ctxnew => exact execCtxnew_local hk _ _ _
  case ctxfree => exact execCtxfree_local hk _ _
  case mma => exact execMma_local hk _ _ _ _ _ _ _
  case mzero | mfill | mempty | msr => exact queued_local hk _
  case mstore | mloada | mldm => exact queuedAt_local hk _ _ _ _
  case mread => exact afterQueue_local hk _ fun _ ht => State.setReg_local ht _ _
  case mwait => exact afterQueue_local hk _ fun t _ => .refl t
  case fault => exact onElement_local hk _ (withOperands_local hk _ _ _ _ fun _ _ ht => State.raise_local ht _ _)
  case fenceE => exact execFenceE_local hk
  case perf => exact execPerf_local hk _ _
  case cyc => exact execCyc_local hk _
  case scmd | scwait | csrr | csrw | eret | waitev | mbxrd | mbxwr | xinv => exact onController_local hk _
  all_goals exact absurd hi Bool.false_ne_true

end

/-- Settles O33: by the shape of each instruction's meaning, every one but DONE is local to the element in focus. -/
theorem elementInstructionIsLocal : Obligations.ElementInstructionIsLocal := by
  intro i s d p u hf hi hd hu
  have h := exec_local ⟨d, p, hf, rfl⟩ i hi hd u hu
  exact ⟨h.ctrls, h.phys, h.launches, h.chans, h.packets, h.focus, h.agenda, h.others⟩

end Sys2Proof.Machine
end

section
/-! Laws of registers, memory and going on, for the element in focus; and tag and context instructions (09 R268 to R272). -/

namespace Sys2Proof.Machine

open Host (Outcome)
open Sys2Proof.Statements

/-! ## The element in focus -/

theorem tabSet_tabSet {α : Type} (t : Tab α) (a : Nat) (x y : α) : tabSet (tabSet t a x) a y = tabSet t a y := by
  induction t with
  | nil => simp [tabSet]
  | cons h t ih =>
    obtain ⟨j, v⟩ := h
    by_cases hlt : a < j
    · simp [tabSet, hlt]
    · by_cases heq : a = j
      · simp [tabSet, heq]
      · simp [tabSet, hlt, heq, ih]

@[simp] theorem State.setElem_setElem (s : State) (k : Nat) (e e' : Element) : (s.setElem k e).setElem k e' = s.setElem k e' := by
  simp only [State.setElem, tabSet_tabSet]

@[simp] theorem State.pool_setElem (s : State) (k j : Nat) (e : Element) : (s.setElem k e).pool j = s.pool j := rfl

section
variable {k : Nat} {s t u : State}

theorem State.core_onElem (hk : OnElem s k) : s.core = (s.elem k).core := by
  obtain ⟨d, p, hf, rfl⟩ := hk
  simp [State.core, hf]

theorem State.setCore_onElem (hk : OnElem s k) (c : CoreRegs) : s.setCore c = s.setElem k { s.elem k with core := c } := by
  obtain ⟨d, p, hf, rfl⟩ := hk
  simp [State.setCore, hf]

theorem State.stall_onElem (hk : OnElem s k) :
    s.stall = s.setElem k { s.elem k with fir := { (s.elem k).fir with status := .stalled, counted := true } } := by
  obtain ⟨d, p, hf, rfl⟩ := hk
  simp [State.stall, hf]

/-- An element whose instruction of n bytes has completed. -/
def wentOn (e : Element) (n : Nat) : Element :=
  { e with core := e.core.advance n, fir := { e.fir with status := .running, counted := false, latch := [], swait := none } }

theorem State.advance_onElem (hk : OnElem s k) (n : Nat) : s.advance n = s.setElem k (wentOn (s.elem k) n) := by
  obtain ⟨d, p, hf, rfl⟩ := hk
  simp [State.advance, State.setCore, State.settle, State.core, hf, wentOn]

theorem State.setReg_onElem (hk : OnElem s k) (r : BitVec 5) (v : DWord) :
    s.setReg r v = s.setElem k { s.elem k with core := (s.elem k).core.setReg r v } := by
  rw [State.setReg, State.setCore_onElem hk, State.core_onElem hk]

theorem onElem_setElem (hk : OnElem s k) (j : Nat) (e : Element) : OnElem (s.setElem j e) k := hk

/-- A register written and on: what becomes of the element in focus. -/
theorem State.setReg_advance_onElem (hk : OnElem s k) (r : BitVec 5) (v : DWord) (n : Nat := 4) :
    (s.setReg r v).advance n = s.setElem k (wentOn { s.elem k with core := (s.elem k).core.setReg r v } n) := by
  rw [State.setReg_onElem hk, State.advance_onElem (onElem_setElem hk k _), State.elem_setElem_same, State.setElem_setElem]

end

/-! ## Frames of memory -/

section
variable {s t u : State}

theorem sameMemory_refl (s : State) : SameMemory s s := ⟨fun _ _ => rfl, fun _ _ => rfl, fun _ => rfl⟩

theorem sameMemory_trans (h : SameMemory s t) (g : SameMemory t u) : SameMemory s u :=
  ⟨fun k a => (g.1 k a).trans (h.1 k a), fun d a => (g.2.1 d a).trans (h.2.1 d a), fun a => (g.2.2 a).trans (h.2.2 a)⟩

/-- Memories that are the same read the same. -/
theorem sameMemory_of_eq (he : ∀ k, (u.elem k).mem = (s.elem k).mem) (hc : u.ctrls = s.ctrls) (hp : u.phys = s.phys) :
    SameMemory s u := by
  refine ⟨fun k a => by rw [he], fun d a => ?_, fun a => by rw [hp]⟩
  simp only [State.ctrl, hc]

theorem State.setElem_sameMemory (s : State) (k : Nat) (e : Element) (h : e.mem = (s.elem k).mem) :
    SameMemory s (s.setElem k e) := by
  refine sameMemory_of_eq (fun j => ?_) rfl rfl
  by_cases hj : j = k
  · subst hj
    rw [State.elem_setElem_same, h]
  · rw [s.elem_setElem_other e hj]

theorem SluiceOnly.sameMemory (h : SluiceOnly s u) : SameMemory s u :=
  sameMemory_of_eq (fun k => by rw [h.elem]) h.ctrls h.phys

theorem State.setReg_advance_sameMemory {k : Nat} (hk : OnElem s k) (r : BitVec 5) (v : DWord) :
    SameMemory s (s.setReg r v).advance := by
  rw [State.setReg_advance_onElem hk]
  exact s.setElem_sameMemory k _ rfl

theorem State.advance_sameMemory {k : Nat} (hk : OnElem s k) : SameMemory s s.advance := by
  rw [State.advance_onElem hk]
  exact s.setElem_sameMemory k _ rfl

/-! ## Frames of registers -/

variable {ws : List (BitVec 5)} {wp : List (BitVec 3)}

theorem sameRegs_of_core (hf : u.focus = s.focus) (hc : u.core = s.core) : SameRegs s u ws wp :=
  ⟨hf, fun r _ => by rw [State.reg, State.reg, hc], fun n _ => by rw [hc]⟩

theorem sameRegs_trans (h : SameRegs s t ws wp) (g : SameRegs t u ws wp) : SameRegs s u ws wp :=
  ⟨g.1.trans h.1, fun r hr => (g.2.1 r hr).trans (h.2.1 r hr), fun n hn => (g.2.2 n hn).trans (h.2.2 n hn)⟩

theorem State.advance_sameRegs (s : State) (n : Nat) : SameRegs s (s.advance n) ws wp :=
  ⟨s.advance_focus n, fun r _ => s.reg_advance n r, fun r _ => s.pred_advance n r⟩

theorem State.setReg_sameRegs (s : State) (d : BitVec 5) (v : DWord) : SameRegs s (s.setReg d v) [d] wp :=
  ⟨s.setReg_focus d v, fun r hr => s.reg_setReg_other v (by simpa using hr), fun n _ => by
    rw [CoreRegs.pred, CoreRegs.pred, s.core_setReg_p]⟩

theorem State.setReg_advance_sameRegs (s : State) (d : BitVec 5) (v : DWord) : SameRegs s (s.setReg d v).advance [d] wp :=
  sameRegs_trans (s.setReg_sameRegs d v) (State.advance_sameRegs _ 4)

theorem State.setReg_advance_reg (s : State) {d : BitVec 5} (v : DWord) (h : d ≠ 0) : (s.setReg d v).advance.reg d = v := by
  rw [State.reg_advance, s.reg_setReg_same v h]

/-- A change to an element that keeps its core keeps the registers. -/
theorem State.setElem_sameRegs {k : Nat} (hk : OnElem s k) (e : Element) (h : e.core = (s.elem k).core) :
    SameRegs s (s.setElem k e) ws wp :=
  sameRegs_of_core rfl (by rw [State.core_onElem (onElem_setElem hk k e), State.elem_setElem_same, h, State.core_onElem hk])

theorem SluiceOnly.sameRegs (h : SluiceOnly s u) : SameRegs s u ws wp :=
  sameRegs_of_core h.focus (by rw [h.rest]; rfl)

end

/-! ## Operands that are ready (08 R251 to R253) -/

section
variable {k : Nat} {s t : State} {ok : Bool} {pops : List (Fin 3)} {push : Option (Fin 3)} {vals : List Word}

/-- An instruction whose operands are ready has its effect. -/
theorem withOperands_ready (h : Ready s ok pops push t vals) (eff : State → List Word → State) :
    withOperands s ok pops push eff = .next (eff t vals) := by
  unfold Ready at h
  split at h
  · rename_i d hf
    obtain ⟨rfl, rfl, rfl⟩ := h
    simp [withOperands, hf]
  · rename_i d p hf
    obtain ⟨hp, hq, rfl, rfl⟩ | ⟨hn, hg⟩ := h
    · simp [withOperands, hf, hp, hq]
    · exact withOperands_go s ok pops push eff d p t vals hf hn hg

/-- The pops of an element's instruction are local to it. -/
theorem ready_local (hk : OnElem s k) (h : Ready s ok pops push t vals) : LocalTo k s t := by
  obtain ⟨d, p, hf, rfl⟩ := hk
  simp only [Ready, hf] at h
  obtain ⟨-, -, rfl, -⟩ | ⟨-, hg⟩ := h
  · exact .refl _
  · have := s.gate_local (elemKey d p) pops push
    rwa [hg] at this

theorem ready_onElem (hk : OnElem s k) (h : Ready s ok pops push t vals) : OnElem t k := (ready_local hk h).onElem hk

theorem onElement_onElem (hk : OnElem s k) (f : Nat → Out) : onElement s f = f k := by
  obtain ⟨d, p, hf, rfl⟩ := hk
  exact onElement_element s f d p hf

end

/-! ## Tags (02 R55, 09 R270) -/

/-- A tag as a number: its context above its iteration. -/
theorem zeroExtend_tag (c : BitVec 14) (i : BitVec 18) :
    BitVec.zeroExtend 64 (c ++ i) = BitVec.ofNat 64 (c.toNat * 2 ^ 18 + i.toNat) := by
  apply BitVec.eq_of_toNat_eq
  have hc := c.isLt
  have hi := i.isLt
  rw [BitVec.zeroExtend, BitVec.toNat_setWidth, BitVec.toNat_append, ← Nat.shiftLeft_add_eq_or_of_lt hi, Nat.shiftLeft_eq,
    BitVec.toNat_ofNat]

theorem zeroExtend_extract (x : DWord) (i n : Nat) :
    BitVec.zeroExtend 64 (x.extractLsb' i n) = BitVec.ofNat 64 (x.toNat / 2 ^ i % 2 ^ n) := by
  apply BitVec.eq_of_toNat_eq
  rw [BitVec.zeroExtend, BitVec.toNat_setWidth, BitVec.extractLsb'_toNat, BitVec.toNat_ofNat, Nat.shiftRight_eq_div_pow]

/-- The context of the firing's tag, from xt. -/
theorem tagOf_ctx (e : Element) : (tagOf e).extractLsb' 18 14 = e.xt.extractLsb' 18 14 := by
  apply BitVec.eq_of_toNat_eq
  simp only [tagOf, BitVec.truncate, BitVec.extractLsb'_toNat, BitVec.toNat_setWidth, Nat.shiftRight_eq_div_pow]
  omega

theorem exec_tagmk {k : Nat} {s t : State} {a b : Src} {vals : List Word} (hk : OnElem s k) (d : BitVec 5)
    (h : Ready s false (srcPops a ++ srcPops b) none t vals) :
    exec (.tagmk d a b) s = .next (t.setReg d (BitVec.ofNat 64 ((t.src a vals).toNat % 2 ^ 14 * 2 ^ 18 +
      (t.src b (srcRest a vals)).toNat % 2 ^ 18))).advance := by
  show execTagmk d a b s = _
  rw [execTagmk, onElement_onElem hk, withOperands_ready h, zeroExtend_tag]
  simp only [BitVec.extractLsb'_toNat, Nat.shiftRight_zero]

theorem exec_tagctx {k : Nat} {s t : State} {a : Src} {vals : List Word} (hk : OnElem s k) (d : BitVec 5)
    (h : Ready s false (srcPops a) none t vals) :
    exec (.tagctx d a) s = .next (t.setReg d (BitVec.ofNat 64 ((t.src a vals).toNat / 2 ^ 18 % 2 ^ 14))).advance := by
  show execTagctx d a s = _
  rw [execTagctx, onElement_onElem hk, withOperands_ready h, zeroExtend_extract]

theorem exec_tagiter {k : Nat} {s t : State} {a : Src} {vals : List Word} (hk : OnElem s k) (d : BitVec 5)
    (h : Ready s false (srcPops a) none t vals) :
    exec (.tagiter d a) s = .next (t.setReg d (BitVec.ofNat 64 ((t.src a vals).toNat % 2 ^ 18))).advance := by
  show execTagiter d a s = _
  rw [execTagiter, onElement_onElem hk, withOperands_ready h, zeroExtend_extract]
  simp

/-! ## Windows (02 R55, 09 R268) -/

/-- A TAGNEXT that is not refused writes the next tag of its context and goes on. -/
theorem exec_tagnext {k : Nat} {s : State} (hk : OnElem s k) (d : BitVec 5) (e' : Element) (i : BitVec 18)
    (hw : winEntries (s.elem k) (s.elem k).fir.slot ≠ 0)
    (hr : windowRefused (s.elem k) (s.elem k).fir.slot ((s.elem k).xt.extractLsb' 18 14) = false)
    (hi : issueIter (s.elem k) (s.elem k).fir.slot ((s.elem k).xt.extractLsb' 18 14) = (e', i)) :
    exec (.tagnext d) s = .next ((s.setElem k e').setReg d
      (BitVec.ofNat 64 (((s.elem k).xt.extractLsb' 18 14).toNat * 2 ^ 18 + i.toNat))).advance := by
  show execTagnext d s = _
  simp only [execTagnext, onElement_onElem hk, tagOf_ctx, hw, hr, hi, zeroExtend_tag, if_false, Bool.false_eq_true]

/-- The element once an open window entry has issued one more iteration. -/
def issuedIn (e : Element) (slot j : Nat) (w : Win) : Element :=
  { e with wins := tabSet e.wins (winKey slot j) { w with n := w.n + 1 }, fir := { e.fir with advances := e.fir.advances + 1 } }

theorem windowSlot_open {e : Element} {slot j : Nat} {c : BitVec 14} {w : Win} (hf : findWin e slot c = some j)
    (hw : tabGet e.wins (winKey slot j) = some w) : windowSlot e slot c = some (j, some w) := by
  simp [windowSlot, hf, hw]

/-- With no entry open in any place, the first place opens. -/
theorem windowSlot_first {e : Element} {slot : Nat} (c : BitVec 14) (h0 : 0 < winEntries e slot)
    (hn : ∀ j, j < winEntries e slot → tabGet e.wins (winKey slot j) = none) : windowSlot e slot c = some (0, none) := by
  have hf : findWin e slot c = none := by
    refine List.find?_eq_none.2 fun j hj => ?_
    simp [hn j (List.mem_range.1 hj)]
  obtain ⟨n, hn'⟩ := Nat.exists_eq_succ_of_ne_zero (Nat.pos_iff_ne_zero.1 h0)
  simp [windowSlot, hf, hn', List.range_succ_eq_map, hn 0 h0]

theorem tagnext_open {k : Nat} {s : State} (hk : OnElem s k) (d : BitVec 5) (j : Nat) (w : Win)
    (hf : findWin (s.elem k) (s.elem k).fir.slot ((s.elem k).xt.extractLsb' 18 14) = some j)
    (hw : tabGet (s.elem k).wins (winKey (s.elem k).fir.slot j) = some w) (hj : j < winEntries (s.elem k) (s.elem k).fir.slot)
    (hr : (w.n - w.o).toNat < winSize (s.elem k) (s.elem k).fir.slot) :
    ∃ u, exec (.tagnext d) s = .next u ∧ SameRegs s u [d] [] ∧ SameMemory s u ∧
      (d ≠ 0 → u.reg d = BitVec.ofNat 64 (((s.elem k).xt.extractLsb' 18 14).toNat * 2 ^ 18 + w.n.toNat)) ∧
      tabGet (u.elem k).wins (winKey (s.elem k).fir.slot j) = some { w with n := w.n + 1 } := by
  have hs := windowSlot_open hf hw
  refine ⟨_, exec_tagnext hk d (issuedIn (s.elem k) (s.elem k).fir.slot j w) w.n (by omega) ?_ ?_, ?_, ?_, ?_, ?_⟩
  · simp only [windowRefused, hs, windowRoom, hr, decide_true, Bool.not_true]
  · simp [issueIter, hs, issuedIn]
  · exact sameRegs_trans (State.setElem_sameRegs hk _ (by rfl)) (State.setReg_advance_sameRegs _ _ _)
  · exact sameMemory_trans (s.setElem_sameMemory k _ (by rfl)) (State.setReg_advance_sameMemory (onElem_setElem hk k _) _ _)
  · exact State.setReg_advance_reg _ _
  · rw [State.setReg_advance_onElem (onElem_setElem hk k _)]
    simp [wentOn, issuedIn, tabGet_tabSet_same]

/-- The element once the first window entry of a slot has opened at iteration 0, with a clear bitmap. -/
def openedFirst (e : Element) (slot : Nat) (c : BitVec 14) : Element :=
  { emWrite e (bitmapBase e slot + 0 * bitmapBytes e slot) 0 (bitmapBytes e slot) with
    wins := tabSet e.wins (winKey slot 0) { ctx := c, n := 1, o := 0, final := false }
    fir := { e.fir with advances := 1, opened := true } }

theorem tagnext_first {k : Nat} {s : State} (hk : OnElem s k) (d : BitVec 5)
    (h0 : 0 < winEntries (s.elem k) (s.elem k).fir.slot) (hs : 0 < winSize (s.elem k) (s.elem k).fir.slot)
    (hn : ∀ j, j < winEntries (s.elem k) (s.elem k).fir.slot →
      tabGet (s.elem k).wins (winKey (s.elem k).fir.slot j) = none) :
    ∃ u, exec (.tagnext d) s = .next u ∧ SameRegs s u [d] [] ∧
      (d ≠ 0 → u.reg d = BitVec.ofNat 64 (((s.elem k).xt.extractLsb' 18 14).toNat * 2 ^ 18)) ∧
      tabGet (u.elem k).wins (winKey (s.elem k).fir.slot 0) =
        some { ctx := (s.elem k).xt.extractLsb' 18 14, n := 1, o := 0, final := false } := by
  have hw := windowSlot_first ((s.elem k).xt.extractLsb' 18 14) h0 hn
  refine ⟨_, exec_tagnext hk d (openedFirst (s.elem k) (s.elem k).fir.slot ((s.elem k).xt.extractLsb' 18 14)) 0 (by omega) ?_ ?_,
    ?_, ?_, ?_⟩
  · simp only [windowRefused, hw, decide_eq_false_iff_not]
    omega
  · simp only [issueIter, hw, openedFirst]
  · exact sameRegs_trans (State.setElem_sameRegs hk _ (by rfl)) (State.setReg_advance_sameRegs _ _ _)
  · intro hd
    rw [State.setReg_advance_reg _ _ hd, show (0 : BitVec 18).toNat = 0 from rfl, Nat.add_zero]
  · rw [State.setReg_advance_onElem (onElem_setElem hk k _)]
    simp [wentOn, openedFirst, tabGet_tabSet_same]

/-! ## Contexts (02 R58, 09 R271, R272) -/

/-- A CTXNEW whose value the sluice has granted. -/
theorem ctxnew_granted {k : Nat} {s : State} (hk : OnElem s k) (d : BitVec 5) (a : Src) (pool : BitVec 4) (v : Nat)
    (h : (s.elem k).fir.ask = .granted v) :
    ∃ u, exec (.ctxnew d a pool) s = .next u ∧ SameMemory s u ∧ SameRegs s u [d] [] ∧ (d ≠ 0 → u.reg d = BitVec.ofNat 64 v) ∧
      (u.elem k).fir.ask = .none ∧ (u.elem k).fir.holds = (s.elem k).fir.holds := by
  have he : exec (.ctxnew d a pool) s = .next ((s.setAsk k .none).setReg d (BitVec.ofNat 64 v)).advance := by
    show execCtxnew d a pool s = _
    simp only [execCtxnew, onElement_onElem hk, h]
  refine ⟨_, he, ?_, ?_, State.setReg_advance_reg _ _, ?_⟩
  · exact sameMemory_trans (s.setElem_sameMemory k _ (by rfl)) (State.setReg_advance_sameMemory (onElem_setElem hk k _) _ _)
  · exact sameRegs_trans (State.setElem_sameRegs hk _ (by rfl)) (State.setReg_advance_sameRegs _ _ _)
  · rw [State.setAsk, State.setReg_advance_onElem (onElem_setElem hk k _)]
    simp [wentOn]

/-- A CTXNEW that has asked nothing asks the sluice for the value of its key, and stalls. -/
theorem ctxnew_asks {k : Nat} {s t : State} {a : Src} {vals : List Word} (hk : OnElem s k) (d : BitVec 5) (pool : BitVec 4) (pk : Nat)
    (h : (s.elem k).fir.ask = .none) (hp : s.poolKey (s.elem k).colour pool.toNat = some pk)
    (hr : Ready s false (srcPops a) none t vals) :
    exec (.ctxnew d a pool) s = .next (t.askContext k pk pool.toNat (t.src a vals)) := by
  show execCtxnew d a pool s = _
  simp only [execCtxnew, onElement_onElem hk, h, hp, withOperands_ready hr]

theorem State.askContext_asked {k : Nat} {t : State} (hk : OnElem t k) (pk i : Nat) (key : DWord) (v : Nat)
    (hv : v = (imgPool (t.imageOf (t.elem k).colour) i).base + key.toNat % (imgPool (t.imageOf (t.elem k).colour) i).size)
    (hh : (pk, v) ∉ (t.elem k).fir.holds) : let u := t.askContext k pk i key
    (u.elem k).fir.ask = .asked pk v ∧ (u.elem k).fir.status = .stalled ∧ (u.pool pk).asks = (t.pool pk).asks ++ [(v, k)] := by
  subst hv
  simp only [State.askContext, List.contains_iff_mem, hh, if_false, State.setAsk]
  rw [State.stall_onElem (by exact hk)]
  refine ⟨by simp, by simp, ?_⟩
  show ((t.setPool pk _).pool pk).asks = _
  simp

/-- A CTXFREE of a value of its pool. -/
theorem exec_ctxfree {k : Nat} {s t : State} {a : Src} {vals : List Word} (hk : OnElem s k) (pool : BitVec 4) (pk : Nat)
    (hp : s.poolKey (s.elem k).colour pool.toNat = some pk) (hr : Ready s false (srcPops a) none t vals) :
    exec (.ctxfree a pool) s = .next (t.recordFree k pk pool.toNat (t.src a vals)) := by
  show execCtxfree a pool s = _
  simp only [execCtxfree, onElement_onElem hk, hp, withOperands_ready hr]

section
variable {k : Nat} {t : State} {pk i : Nat} {v : DWord}

/-- A free of an allocated value is recorded. -/
theorem State.recordFree_allocated (hk : OnElem t k) (hlo : (imgPool (t.imageOf (t.elem k).colour) i).base ≤ v.toNat)
    (hhi : v.toNat < (imgPool (t.imageOf (t.elem k).colour) i).base + (imgPool (t.imageOf (t.elem k).colour) i).size)
    (hf : (pk, v.toNat) ∉ (t.elem k).fir.frees) (ha : v.toNat ∈ (t.pool pk).alloc) (hh : (pk, v.toNat) ∉ (t.elem k).fir.holds) :
    let u := t.recordFree k pk i v
    SameMemory t u ∧ SameRegs t u [] [] ∧ (u.elem k).fir.frees = (t.elem k).fir.frees ++ [(pk, v.toNat)] ∧ u.pools = t.pools := by
  have he : t.recordFree k pk i v = (t.setElem k { t.elem k with fir := { (t.elem k).fir with
      frees := (t.elem k).fir.frees ++ [(pk, v.toNat)] } }).advance := by
    simp [State.recordFree, State.freeable, hf, ha, hh, Nat.not_lt.2 hlo, Nat.not_le.2 hhi]
  simp only [he]
  refine ⟨?_, sameRegs_trans (State.setElem_sameRegs hk _ (by rfl)) (State.advance_sameRegs _ _), ?_, ?_⟩
  · exact sameMemory_trans (t.setElem_sameMemory k _ (by rfl)) (State.advance_sameMemory (onElem_setElem hk k _))
  · simp [State.advance_onElem (onElem_setElem hk k _), wentOn]
  · simp [State.advance_onElem (onElem_setElem hk k _)]

theorem foldl_manage_pools {α : Type} (l : List α) (colour : Nat) (c : α → Cargo) (src : State → α → Loc)
    (dst : α → Loc) (s : State) :
    (l.foldl (fun t w => t.manage colour (c w) (src t w) (dst w)) s).pools = s.pools := by
  induction l generalizing s with
  | nil => rfl
  | cons w l ih => exact ih _

/-- Notices take the waiters of a value from its pool, and nothing else. -/
theorem State.notify_pools (s : State) (pk v : Nat) : (s.notify pk v).pools =
    (s.setPool pk { s.pool pk with waiters := (s.pool pk).waiters.filter fun w => w.1 ≠ v }).pools := by
  unfold State.notify
  exact foldl_manage_pools _ _ (fun w : Nat × Nat => Cargo.notice pk v w.2) (fun t _ => t.attach (pk / 16))
    (fun w => elemLoc w.2) _

theorem State.notify_held (s : State) (pk v : Nat) : ((s.notify pk v).pool pk).held = (s.pool pk).held := by
  rw [State.pool, State.notify_pools]
  simp [tabGet_tabSet_same]

theorem State.advance_pools {s : State} (hk : OnElem s k) : s.advance.pools = s.pools := by
  rw [State.advance_onElem hk, State.setElem_pools]

/-- A free of a value that the firing itself has taken cancels its hold. -/
theorem State.recordFree_held (hk : OnElem t k) (hlo : (imgPool (t.imageOf (t.elem k).colour) i).base ≤ v.toNat)
    (hhi : v.toNat < (imgPool (t.imageOf (t.elem k).colour) i).base + (imgPool (t.imageOf (t.elem k).colour) i).size)
    (hf : (pk, v.toNat) ∉ (t.elem k).fir.frees) (hh : (pk, v.toNat) ∈ (t.elem k).fir.holds) : let u := t.recordFree k pk i v
    SameMemory t u ∧ SameRegs t u [] [] ∧ (pk, v.toNat) ∉ (u.elem k).fir.holds ∧ (∀ h ∈ (u.pool pk).held, h.1 ≠ v.toNat) ∧
      (u.elem k).fir.frees = (t.elem k).fir.frees := by
  have he : t.recordFree k pk i v = (t.cancelHold k pk v.toNat).advance := by
    simp [State.recordFree, State.freeable, hf, hh, Nat.not_lt.2 hlo, Nat.not_le.2 hhi]
  have hd := State.dropHolds_sluiceOnly [(pk, v.toNat)] (t.setElem k { t.elem k with
    fir := { (t.elem k).fir with holds := (t.elem k).fir.holds.filter (· ≠ (pk, v.toNat)) } })
  have hk' : OnElem (t.cancelHold k pk v.toNat) k := by
    obtain ⟨d, p, hfoc, rfl⟩ := hk
    exact ⟨d, p, hd.focus.trans hfoc, rfl⟩
  have hel : (t.cancelHold k pk v.toNat).elem k = _ := (hd.elem k).trans (State.elem_setElem_same _ _ _)
  simp only [he]
  refine ⟨?_, ?_, ?_, ?_, ?_⟩
  · exact sameMemory_trans (sameMemory_trans (t.setElem_sameMemory k _ (by rfl)) hd.sameMemory) (State.advance_sameMemory hk')
  · exact sameRegs_trans (sameRegs_trans (State.setElem_sameRegs hk _ (by rfl)) hd.sameRegs) (State.advance_sameRegs _ _)
  · rw [State.advance_onElem hk', State.elem_setElem_same, wentOn, hel]
    simp
  · rw [State.pool, State.advance_pools hk']
    show ∀ h ∈ ((State.notify _ pk v.toNat).pool pk).held, h.1 ≠ v.toNat
    rw [State.notify_held]
    simp
  · rw [State.advance_onElem hk', State.elem_setElem_same, wentOn, hel]

end

/-- Settles O19, instruction by instruction from the lemmas above. -/
theorem tagAndContextResult : Obligations.TagAndContextResult := by
  refine ⟨fun s k hk => ⟨fun d a b t vals h => exec_tagmk hk d h, fun d a t vals h => ⟨exec_tagctx hk d h, exec_tagiter hk d h⟩,
    fun d j w hf hw hj hr => tagnext_open hk d j w hf hw hj hr, fun d h0 _ hs hn => tagnext_first hk d h0 hs hn⟩,
    fun s k hk => ⟨fun d a pool v h => ctxnew_granted hk d a pool v h, fun d a pool pk h hp t vals hr hh => ?_,
      fun a pool pk hp t vals hr hlo hhi hf => ⟨fun ha hh => ?_, fun hh => ?_⟩⟩⟩
  · exact ⟨_, ctxnew_asks hk d pool pk h hp hr, State.askContext_asked (ready_onElem hk hr) pk _ _ _ rfl hh⟩
  · exact ⟨_, exec_ctxfree hk pool pk hp hr, State.recordFree_allocated (ready_onElem hk hr) hlo hhi hf ha hh⟩
  · exact ⟨_, exec_ctxfree hk pool pk hp hr, State.recordFree_held (ready_onElem hk hr) hlo hhi hf hh⟩

end Sys2Proof.Machine
end

section
/-! Turnouts and confluences (02 R32 to R34): tokens that leave a node, heads that it takes from its inputs. -/

namespace Sys2Proof.Machine

open Host (Outcome)
open Sys2Proof.Statements

/-! ## Channel endpoints -/

/-- A change of a channel endpoint that keeps its key is found there. -/
theorem State.chanAt_mapChan_same {s : State} {d : Dest} {colour : Nat} {load : Option Nat} {f : Chan → Chan} {c : Chan}
    (h : s.chanAt d colour load = some c) (hd : (f c).dest = c.dest) (hc : (f c).colour = c.colour) (hl : (f c).load = c.load) :
    (s.mapChan d colour load f).chanAt d colour load = some (f c) := by
  unfold State.chanAt State.mapChan at *
  dsimp only
  generalize s.chans = l at h ⊢
  have hp := List.find?_some h
  simp only [Bool.and_eq_true, decide_eq_true_eq] at hp
  induction l with
  | nil => cases h
  | cons x l ih =>
    rw [List.map_cons, List.find?_cons]
    rw [List.find?_cons] at h
    by_cases hx : (x.dest = d && x.colour = colour && x.load = load) = true
    · rw [hx] at h
      cases h
      simp [hd, hc, hl, hp]
    · rw [Bool.not_eq_true] at hx
      rw [hx] at h
      simpa [hx] using ih h

/-- The endpoints of other consumers stay as they are. -/
theorem State.chanAt_mapChan_other (s : State) {d d' : Dest} (colour : Nat) (load : Option Nat) {f : Chan → Chan}
    (hd : ∀ c, (f c).dest = c.dest) (hne : d' ≠ d) :
    (s.mapChan d colour load f).chanAt d' colour load = s.chanAt d' colour load := by
  unfold State.chanAt State.mapChan
  dsimp only
  induction s.chans with
  | nil => rfl
  | cons x l ih =>
    rw [List.map_cons, List.find?_cons, List.find?_cons]
    by_cases hx : x.dest = d
    · have hx' : ∀ y : Chan, y.dest = d → (y.dest = d' && y.colour = colour && y.load = load) = false :=
        fun y hy => by simp [hy, Ne.symm hne]
      rw [hx' x hx]
      by_cases hk : (x.dest = d && x.colour = colour && x.load = load) = true
      · rw [if_pos hk, hx' (f x) (by rw [hd, hx])]
        exact ih
      · rw [if_neg hk, hx' x hx]
        exact ih
    · have hk : ¬(x.dest = d && x.colour = colour && x.load = load) = true := by simp [hx]
      rw [if_neg hk, ih]

/-- With nothing of its queue in the spillway, taking the head of a flume queue asks for nothing. -/
theorem State.popChan_unspilled {s : State} {d : Dest} {colour : Nat} {load : Option Nat} {f : Chan → Chan} {c : Chan}
    (h : s.chanAt d colour load = some c) (hs : (f c.pop).spilled = []) (hd : (f c.pop).dest = c.dest)
    (hc : (f c.pop).colour = c.colour) (hl : (f c.pop).load = c.load) :
    s.popChan d colour load f = s.mapChan d colour load fun c => f c.pop := by
  have hf := State.chanAt_mapChan_same (f := fun c => f c.pop) h hd hc hl
  simp [State.popChan, State.askSpilled, hf, hs]

/-! ## Taking the head of an input -/

section
variable {s : State} {die node i : Nat} {t : Token} {c : Chan}

/-- A node's head with its endpoint. -/
theorem State.nodeHead_some (h : s.nodeHead die node i = some t) :
    ∃ c, s.nodeIn die node i = some c ∧ c.head = some t := by
  simpa [State.nodeHead, Option.bind_eq_some_iff] using h

/-- The state once the head of input i has been taken, with nothing of it in the spillway. -/
def State.tookHead (s : State) (die node i : Nat) (t : Token) : State :=
  s.mapChan (nodeDest die node i) (s.node (nodeKey die node)).colour (some (s.node (nodeKey die node)).load)
    fun c => countMarks t c.pop

theorem State.nodePop_eq (h : s.nodeHead die node i = some t) (hs : ∀ c, s.nodeIn die node i = some c → c.spilled = []) :
    s.nodePop die node i = s.tookHead die node i t := by
  obtain ⟨c, hc, -⟩ := State.nodeHead_some h
  unfold State.nodePop
  simp only [h]
  exact State.popChan_unspilled hc (hs c hc) rfl rfl rfl

theorem State.tookHead_nodeIn_same (h : s.nodeHead die node i = some t) :
    ((s.tookHead die node i t).nodeIn die node i).map Chan.queue = (s.nodeIn die node i).map fun c => c.pop.queue := by
  obtain ⟨c, hc, -⟩ := State.nodeHead_some h
  have := State.chanAt_mapChan_same (f := fun c => countMarks t c.pop) hc rfl rfl rfl
  rw [hc]
  exact congrArg (Option.map Chan.queue) this

theorem State.tookHead_nodeIn_other {j : Nat} (hj : j ≠ i) :
    (s.tookHead die node i t).nodeIn die node j = s.nodeIn die node j :=
  s.chanAt_mapChan_other _ _ (fun _ => rfl) (by simpa [nodeDest] using hj)

theorem State.tookHead_nodeHead_other {j : Nat} (hj : j ≠ i) :
    (s.tookHead die node i t).nodeHead die node j = s.nodeHead die node j := by
  rw [State.nodeHead, State.tookHead_nodeIn_other hj, State.nodeHead]

end

/-! ## A token that leaves a node -/

section
variable {s : State} {die node o : Nat} {b : Bind} {t : Token}

/-- An outlet with a credit sends its token. -/
theorem State.nodeEmit_one (hb : s.srcBind (nodeSource die node o) t.colour (s.node (nodeKey die node)).load = some b)
    (hc : s.credit b t = true) :
    s.nodeEmit die node [o] t = some (s.emit (nodeSource die node o) (s.node (nodeKey die node)).load t) := by
  simp [State.nodeEmit, State.tryEmits, State.tryEmit, hb, hc]

/-- A state with other bindings and further packets. -/
def State.sent (s : State) (l : List Bind) (ps : List Packet) : State := { s with binds := l, packets := s.packets ++ ps }

@[simp] theorem State.sent_nodeIn (s : State) (l : List Bind) (ps : List Packet) (die node i : Nat) :
    (s.sent l ps).nodeIn die node i = s.nodeIn die node i := rfl

/-- What a token that leaves changes: bindings and packets. -/
theorem State.emit_packets (src : Source) (load : Nat) (hb : s.srcBind src t.colour load = some b) (ht : strayStop b t = false) :
    ∃ l, s.emit src load t = s.sent l ((pickDests b t).map (s.packet b t)) := by
  rw [s.emit_bound src load b t hb ht]
  exact ⟨_, rfl⟩

theorem strayStop_data (h : t.kind = .data) : strayStop b t = false := by simp [strayStop, h]

end

/-! ## Turnouts (R32) -/

/-- A turnout with both heads and a credit sends the pair's token and takes both heads. -/
theorem execTurnoutPair_pair {s : State} {die node : Nat} {t p : Token} {b : Bind} {r : Nat × Token}
    (hl : nodeLive (s.node (nodeKey die node)) = true)
    (hk : nodeKind (s.node (nodeKey die node)).active = .split ∨ nodeKind (s.node (nodeKey die node)).active = .arm)
    (hw : (s.node (nodeKey die node)).weired = false) (hd : s.nodeWeirs die node = false)
    (ht : s.nodeHead die node 0 = some t) (htk : t.kind = .data) (hp : s.nodeHead die node 1 = some p) (hpk : p.kind = .data)
    (h0 : s.nodeEnded die node 0 = false) (h1 : s.nodeEnded die node 1 = false)
    (hr : turnoutRoute (s.node (nodeKey die node)) t p = r)
    (hb : s.srcBind (nodeSource die node r.1) r.2.colour (s.node (nodeKey die node)).load = some b)
    (hc : s.credit b r.2 = true) :
    execTurnoutPair die node s = .next
      (((s.emit (nodeSource die node r.1) (s.node (nodeKey die node)).load r.2).nodePop die node 0).nodePop die node 1) := by
  have hpred : s.turnoutPred die node p = none := by simp [State.turnoutPred, hpk, h0]
  have hdata : s.turnoutData die node t = some
      (((s.emit (nodeSource die node r.1) (s.node (nodeKey die node)).load r.2).nodePop die node 0).nodePop die node 1) := by
    simp [State.turnoutData, htk, h1, hp, hpk, hr, State.nodeEmit_one hb hc]
  have hkind : (decide (nodeKind (s.node (nodeKey die node)).active = .split) ||
      decide (nodeKind (s.node (nodeKey die node)).active = .arm)) = true := by simpa using hk
  simp [execTurnoutPair, hl, hkind, hw, State.weirDue, hd, ht, hp, hpred, hdata]

/-- Both heads are taken by two pops. -/
theorem State.nodePop_both {s : State} {die node : Nat} {t p : Token} (ht : s.nodeHead die node 0 = some t)
    (hp : s.nodeHead die node 1 = some p) (hs : ∀ i c, s.nodeIn die node i = some c → c.spilled = []) :
    (s.nodePop die node 0).nodePop die node 1 = (s.tookHead die node 0 t).tookHead die node 1 p := by
  rw [State.nodePop_eq ht (hs 0)]
  refine State.nodePop_eq ?_ ?_
  · rw [State.tookHead_nodeHead_other (by decide), hp]
  · rw [State.tookHead_nodeIn_other (by decide)]
    exact hs 1

/-- A turnout's token leaves, and its two heads are gone. -/
theorem turnoutPair_sends {s : State} {die node o : Nat} {t p t' : Token} {b : Bind}
    (ht : s.nodeHead die node 0 = some t) (hp : s.nodeHead die node 1 = some p)
    (hs : ∀ i c, s.nodeIn die node i = some c → c.spilled = []) (hk : t'.kind = .data)
    (hb : s.srcBind (nodeSource die node o) t'.colour (s.node (nodeKey die node)).load = some b) :
    let u := ((s.emit (nodeSource die node o) (s.node (nodeKey die node)).load t').nodePop die node 0).nodePop die node 1
    u.packets = s.packets ++ (pickDests b t').map (s.packet b t') ∧
      (u.nodeIn die node 0).map Chan.queue = (s.nodeIn die node 0).map (fun c => c.pop.queue) ∧
      (u.nodeIn die node 1).map Chan.queue = (s.nodeIn die node 1).map (fun c => c.pop.queue) := by
  obtain ⟨l, he⟩ := State.emit_packets (nodeSource die node o) (s.node (nodeKey die node)).load hb (strayStop_data hk)
  dsimp only
  rw [he, State.nodePop_both (s := s.sent l _) ht hp hs]
  refine ⟨rfl, ?_, ?_⟩
  · rw [State.tookHead_nodeIn_other (by decide)]
    exact State.tookHead_nodeIn_same ht
  · rw [State.tookHead_nodeIn_same (by rw [State.tookHead_nodeHead_other (by decide)]; exact hp),
      State.tookHead_nodeIn_other (by decide)]
    rfl

/-! ## Unordered confluences (R33) -/

/-- The token at an input of an unordered confluence leaves as it is. -/
theorem unorderedConfluence_sends {s : State} {die node i : Nat} {t : Token} {b : Bind}
    (hl : nodeLive (s.node (nodeKey die node)) = true) (hk : nodeKind (s.node (nodeKey die node)).active = .unorderedConf)
    (ht : s.nodeHead die node i = some t) (hs : ∀ c, s.nodeIn die node i = some c → c.spilled = [])
    (hb : s.srcBind (nodeSource die node 0) t.colour (s.node (nodeKey die node)).load = some b) (hst : strayStop b t = false)
    (hc : s.credit b t = true) :
    ∃ u, execUnorderedConfluence die node i s = .next u ∧ u.packets = s.packets ++ (pickDests b t).map (s.packet b t) ∧
      (u.nodeIn die node i).map Chan.queue = (s.nodeIn die node i).map (fun c => c.pop.queue) := by
  obtain ⟨l, he⟩ := State.emit_packets (nodeSource die node 0) (s.node (nodeKey die node)).load hb hst
  have hpop : (s.sent l ((pickDests b t).map (s.packet b t))).nodePop die node i = _ := State.nodePop_eq ht hs
  refine ⟨(s.sent l ((pickDests b t).map (s.packet b t))).tookHead die node i t, ?_, rfl, State.tookHead_nodeIn_same ht⟩
  simp only [execUnorderedConfluence, hl, hk, decide_true, Bool.and_self, if_true, ht, State.nodeEmit_one hb hc, he, Option.map_some,
    hpop, Option.getD_some]

/-! ## Ordered confluences (R34) -/

/-- A sum over the members of a key does not rise by a map that keeps keys and raises no term. -/
theorem sum_filter_map_le {α : Type} (key : α → Bool) (f : α → α) (g : α → Nat) (hk : ∀ c, key (f c) = key c)
    (hg : ∀ c, g (f c) ≤ g c) (l : List α) : (((l.map f).filter key).map g).sum ≤ ((l.filter key).map g).sum := by
  rw [List.filter_map, show key ∘ f = key from funext hk, List.map_map]
  exact List.sum_le_sum fun c _ => hg c

/-- Fewer tokens of a channel are held on a die once a head has been taken. -/
theorem State.flumeHeld_tookHead (s : State) (die node i : Nat) (t : Token) (x colour chan : Nat) (load : Option Nat) :
    (s.tookHead die node i t).flumeHeld x colour chan load ≤ s.flumeHeld x colour chan load := by
  unfold State.flumeHeld State.flumeQueued State.chanOn State.tookHead State.mapChan
  dsimp only
  refine Nat.add_le_add (Nat.add_le_add (le_refl _) ?_) ?_
  · refine sum_filter_map_le _ _ _ (fun c => ?_) (fun c => ?_) _ <;> split
    · rfl
    · rfl
    · simp only [countMarks, Chan.pop, List.length_tail]
      omega
    · exact le_refl _
  · refine sum_filter_map_le _ _ _ (fun c => ?_) (fun c => ?_) _ <;> split
    · rfl
    · rfl
    · exact le_refl _
    · exact le_refl _

/-- A credit stays once a head has been taken. -/
theorem State.credit_tookHead {s : State} {die node i : Nat} (t : Token) {b : Bind} {t' : Token} (h : s.credit b t' = true) :
    (s.tookHead die node i t).credit b t' = true := by
  unfold State.credit at *
  rw [List.all_eq_true] at *
  intro d hd
  have := of_decide_eq_true (h d hd)
  have hle := s.flumeHeld_tookHead die node i t d.die b.colour b.chan b.load
  exact decide_eq_true (Nat.lt_of_le_of_lt hle this)

/-- The context of a token as an ordered confluence holds it: opened at iteration 0, with the token in slot 0. -/
def firstHeld (t : Token) : Reorder := { newReorder (t.tag.extractLsb' 18 14) with slots := [(0, [t])] }

/-- The context once its first token has left. -/
def firstPassed (t : Token) : Reorder :=
  { ctx := t.tag.extractLsb' 18 14, e := 1, emitted := true, ended := false, slots := [] }

/-- The state with a node's table replaced. -/
def State.withTable (s : State) (die node : Nat) (l : List Reorder) : State :=
  s.setNode (nodeKey die node) { s.node (nodeKey die node) with table := l }

section
variable {s : State} {die node i : Nat} {t : Token} {b : Bind}

/-- The first data token of a context opens it and stands in its slot 0. -/
theorem State.placeToken_first (ht0 : (s.node (nodeKey die node)).table = [])
    (hd : 1 ≤ ((s.node (nodeKey die node)).active.extractLsb' 2 7).toNat) (hi : t.tag.extractLsb' 0 18 = 0) :
    s.placeToken die node i t = (s.withTable die node [firstHeld t]).nodePop die node i := by
  have hopen : placing (s.node (nodeKey die node)) t = .opens := by simp [placing, findReorder, ht0, reorderContexts]
  have hslot : placing { s.node (nodeKey die node) with table := [newReorder (t.tag.extractLsb' 18 14)] } t = .slot 0 := by
    have : 0 < nodeDepth (s.node (nodeKey die node)).active := hd
    simp [placing, findReorder, newReorder, hi, this]
  have hfind : findReorder { s.node (nodeKey die node) with table := [newReorder (t.tag.extractLsb' 18 14)] }
      (t.tag.extractLsb' 18 14) = some (newReorder (t.tag.extractLsb' 18 14)) := by simp [findReorder, newReorder]
  simp only [State.placeToken, hopen, if_true, ht0, List.nil_append, hfind, hslot]
  simp [State.withTable, firstHeld, newReorder, setReorder, tabSet, tabGet]

/-- The token in slot 0 of its only context leaves. -/
theorem State.flushOut_first (htab : (s.node (nodeKey die node)).table = [firstHeld t]) (hk : t.kind = .data)
    (hb : s.srcBind (nodeSource die node 0) t.colour (s.node (nodeKey die node)).load = some b) (hc : s.credit b t = true) :
    s.flushOut die node 1 =
      (s.emit (nodeSource die node 0) (s.node (nodeKey die node)).load t).withTable die node [firstPassed t] := by
  have hnext : nextOut (s.node (nodeKey die node)) = some (firstHeld t, t, []) := by
    simp [nextOut, htab, firstHeld, tabGet]
  obtain ⟨l, he⟩ := State.emit_packets (nodeSource die node 0) (s.node (nodeKey die node)).load hb (strayStop_data hk)
  have hnode : (s.emit (nodeSource die node 0) (s.node (nodeKey die node)).load t).node (nodeKey die node) =
      s.node (nodeKey die node) := by
    rw [he]
    rfl
  have hafter : afterOut (firstHeld t) t [] = firstPassed t := by
    simp [afterOut, firstHeld, firstPassed, newReorder, marked, shiftSlots, tabDel, hk]
  simp only [State.flushOut, hnext, State.nodeEmit_one hb hc, hnode, hafter, State.withTable]
  simp [setReorder, closeReorder, htab, firstHeld, firstPassed, newReorder]

@[simp] theorem State.withTable_node (s : State) (die node : Nat) (l : List Reorder) :
    (s.withTable die node l).node (nodeKey die node) = { s.node (nodeKey die node) with table := l } := by
  simp [State.withTable]

@[simp] theorem State.withTable_nodeIn (s : State) (die node i : Nat) (l : List Reorder) :
    (s.withTable die node l).nodeIn die node i = s.nodeIn die node i := by
  unfold State.nodeIn
  rw [State.withTable_node]
  rfl

/-- An ordered confluence without contexts passes the first data token of a context. -/
theorem orderedConfluence_sends (hl : nodeLive (s.node (nodeKey die node)) = true)
    (hk : nodeKind (s.node (nodeKey die node)).active = .orderedConf) (hw : (s.node (nodeKey die node)).weired = false)
    (hd : s.nodeWeirs die node = false) (ht : s.nodeHead die node i = some t)
    (hs : ∀ c, s.nodeIn die node i = some c → c.spilled = []) (htk : t.kind = .data)
    (ht0 : (s.node (nodeKey die node)).table = []) (hD : 1 ≤ ((s.node (nodeKey die node)).active.extractLsb' 2 7).toNat)
    (hi : t.tag.extractLsb' 0 18 = 0)
    (hb : s.srcBind (nodeSource die node 0) t.colour (s.node (nodeKey die node)).load = some b) (hc : s.credit b t = true) :
    ∃ u, execOrderedConfluence die node i s = .next u ∧ u.packets = s.packets ++ (pickDests b t).map (s.packet b t) ∧
      (u.nodeIn die node i).map Chan.queue = (s.nodeIn die node i).map (fun c => c.pop.queue) ∧
      (u.node (nodeKey die node)).table = [firstPassed t] := by
  have hwh : (s.withTable die node [firstHeld t]).nodeHead die node i = some t := by
    rw [State.nodeHead, State.withTable_nodeIn]
    exact ht
  have hplace := State.placeToken_first (i := i) ht0 hD hi
  rw [State.nodePop_eq hwh (by rw [State.withTable_nodeIn]; exact hs)] at hplace
  generalize hv : (s.withTable die node [firstHeld t]).tookHead die node i t = v at hplace
  have hvn : v.node (nodeKey die node) = { s.node (nodeKey die node) with table := [firstHeld t] } := by
    subst hv
    exact State.withTable_node _ _ _ _
  have hvb : v.srcBind (nodeSource die node 0) t.colour (s.node (nodeKey die node)).load = some b := by
    subst hv
    exact hb
  have hvc : v.credit b t = true := by
    subst hv
    exact State.credit_tookHead t hc
  obtain ⟨l, he⟩ := State.emit_packets (nodeSource die node 0) (s.node (nodeKey die node)).load hvb (strayStop_data htk)
  have hflush := State.flushOut_first (s := v) (by rw [hvn]) htk (by rw [hvn]; exact hvb) hvc
  have hheld : heldTokens (v.node (nodeKey die node)) = 1 := by
    rw [hvn]
    rfl
  have hnone : heldTokens (s.node (nodeKey die node)) = 0 := by simp [heldTokens, ht0]
  rw [hvn, he] at hflush
  refine ⟨(v.sent l ((pickDests b t).map (v.packet b t))).withTable die node [firstPassed t], ?_, ?_, ?_, ?_⟩
  · simp only [execOrderedConfluence, hl, hk, hw, State.weirDue, hd, hnone, State.flushOut, ht, htk, hplace, hheld, hflush]
    rfl
  · subst hv
    rfl
  · subst hv
    rw [State.withTable_nodeIn, State.sent_nodeIn, State.tookHead_nodeIn_same hwh, State.withTable_nodeIn]
  · rw [State.withTable_node]

end

/-- Settles O38, one clause for each kind of node. -/
theorem nodeEvents : Obligations.NodeEvents := by
  intro s die node key n hconf hsaved hweir hweirs hspill
  have hl : nodeLive (s.node (nodeKey die node)) = true := by
    show (n.configured && !n.saved) = true
    rw [hconf, hsaved]
    rfl
  refine ⟨fun t p b hk ht htk hp hpk h0 h1 => ?_, fun t b i hk ht hb hst hc => ?_, fun t b i hk ht htk ht0 hD hi hb hc => ?_⟩
  · intro bit o t' hb hc
    have hr : turnoutRoute n t p = (o, t') := by
      simp only [turnoutRoute, o, t', bit]
      split <;> rfl
    have hk' : t'.kind = .data := by
      simp only [t']
      split <;> exact htk
    have hcol : t'.colour = t.colour := by
      simp only [t']
      split <;> rfl
    have hb' : s.srcBind (nodeSource die node o) t'.colour n.load = some b := by
      rw [hcol]
      exact hb
    exact ⟨_, execTurnoutPair_pair hl hk hweir hweirs ht htk hp hpk h0 h1 hr hb' hc, turnoutPair_sends ht hp hspill hk' hb'⟩
  · exact unorderedConfluence_sends hl hk ht (hspill i) hb hst hc
  · exact orderedConfluence_sends hl hk hweir hweirs ht (hspill i) htk ht0 hD hi hb hc

end Sys2Proof.Machine
end

section
/-! The commit of a firing that holds a stop for a channel that is not ordered. -/

namespace Sys2Proof.Machine

open Host (Outcome)
open Sys2Proof.Statements

/-- DONE with every output accepted commits the firing. -/
theorem execDone_accepted {s : State} {k : Nat} (hk : OnElem s k) (ha : s.commitAccepted k (s.commitSends k) = true) :
    exec .done s = .next (s.commit k) := by
  change execDone s = _
  rw [execDone, onElement_onElem hk, if_pos ha]

/-- A stop of colour 0. -/
def bufferedStop : Send :=
  { port := 0, tok := { payload := 0, tag := 0, kind := .stop, level := 1, arm := false, colour := 0, fin := false } }

/-- Output port 0 of the first element, bound to a tagged channel with one consumer. -/
def taggedBind : Bind :=
  { source := elemSource 0 0, load := some 0, colour := 0, chan := 0, kind := .tagged
    dests := [{ die := 0, kind := .element, pos := 1, din := 0 }]
    closed := false, switched := false, weired := false, seq := 0, merges := false }

/-- The first element runs a firing whose buffer holds a stop for that channel. -/
def strayStopState : State :=
  { State.reset with
    focus := .element 0 0
    binds := [taggedBind]
    elems := [(0, { Element.reset with
      configured := true
      fir := { Firing.idle with status := .running, sends := [bufferedStop] } })] }

theorem strayStopState_onElem : OnElem strayStopState 0 := ⟨0, 0, rfl, rfl⟩

theorem strayStopState_accepted : strayStopState.commitAccepted 0 (strayStopState.commitSends 0) = true := by decide +kernel

/-- The stop goes no further: the commit sends no packet. -/
theorem strayStopState_commit_packets : (strayStopState.commit 0).packets = [] := by decide +kernel

/-- Refutes O21: a buffered stop for a channel that is not ordered is dropped at the commit (`strayStop`), and the last clause
for DONE says that every buffered token leaves for the consumers of its channel. -/
theorem not_elementSystemAndDone : ¬ Obligations.ElementSystemAndDone := by
  unfold Obligations.ElementSystemAndDone
  rintro ⟨-, hdone⟩
  obtain ⟨u, hu, -, -, -, -, -, -, -, -, hpackets⟩ := (hdone strayStopState 0 strayStopState_onElem).1 strayStopState_accepted
  obtain rfl : strayStopState.commit 0 = u := Outcome.next.inj 
    ((execDone_accepted strayStopState_onElem strayStopState_accepted).symm.trans hu)
  have hsent : (strayStopState.commit 0).packets = [strayStopState.packet taggedBind bufferedStop.tok
      { die := 0, kind := .element, pos := 1, din := 0 }] :=
    hpackets bufferedStop taggedBind (by decide) rfl rfl (by decide +kernel)
  rw [strayStopState_commit_packets] at hsent
  exact List.cons_ne_nil _ _ hsent.symm

end Sys2Proof.Machine
end

section
/-! Laws of matching: what its checks change (02 R41 to R44). -/

namespace Sys2Proof.Machine

open Host (Outcome)
open Sys2Proof.Statements

/-! ## Tables -/

theorem mem_tabSet {α : Type} {t : Tab α} {a : Nat} {y : α} {x : Nat × α} (h : x ∈ tabSet t a y) : x = (a, y) ∨ x ∈ t := by
  induction t with
  | nil => simpa [tabSet] using h
  | cons z t ih =>
    obtain ⟨j, v⟩ := z
    rw [tabSet] at h
    split at h
    · simpa using h
    · split at h
      · exact (List.mem_cons.mp h).imp id (List.mem_cons_of_mem _)
      · rcases List.mem_cons.mp h with rfl | h
        · exact .inr List.mem_cons_self
        · exact (ih h).imp id (List.mem_cons_of_mem _)

theorem tabGet_ne_none {α : Type} {t : Tab α} {x : Nat × α} (h : x ∈ t) : tabGet t x.1 ≠ none := by
  induction t with
  | nil => cases h
  | cons z t ih =>
    rw [tabGet]
    split
    · exact Option.some_ne_none _
    · rename_i hz
      rcases List.mem_cons.mp h with rfl | h
      · exact absurd rfl hz
      · exact ih h

/-! ## Entries that the checks leave alone -/

section
variable {k : Nat} {s t u : State} {e : Element} {p : Nat} {en : Entry}

theorem LocalTo.sameMemory (h : LocalTo k s u) (hm : (u.elem k).mem = (s.elem k).mem) : SameMemory s u := by
  refine sameMemory_of_eq (fun j => ?_) h.ctrls h.phys
  by_cases hj : j = k
  · rw [hj, hm]
  · rw [h.others j hj]

/-- Entry en stands at place p and nothing else does; its actor is not ordered. -/
structure HoldsFree (e : Element) (p : Nat) (en : Entry) : Prop where
  here : tabGet e.store p = some en
  only : ∀ x ∈ e.store, x.1 = p → x.2 = en
  free : slotOrdered e en.slot = false

/-- A free place that is given an entry holds it alone. -/
theorem holdsFree_setEntry (hp : tabGet e.store p = none) (ho : slotOrdered e en.slot = false) :
    HoldsFree (setEntry e p en) p en := by
  refine ⟨tabGet_tabSet_same _ _ _, fun x hx hxp => ?_, ho⟩
  rcases mem_tabSet hx with rfl | hx
  · rfl
  · exact absurd (hxp ▸ hp) (tabGet_ne_none hx)

/-- The checks of matching change fault records and, of element k, its entries of ordered actors and its marks of a fault
raised. -/
structure Checked (k : Nat) (s u : State) : Prop extends LocalTo k s u where
  own : u.elem k = { s.elem k with
    store := (u.elem k).store, slotFull := (u.elem k).slotFull, matchFull := (u.elem k).matchFull }
  keeps : ∀ p en, HoldsFree (s.elem k) p en → HoldsFree (u.elem k) p en

namespace Checked

theorem refl (s : State) : Checked k s s := ⟨.refl s, rfl, fun _ _ h => h⟩

theorem trans (h : Checked k s t) (g : Checked k t u) : Checked k s u :=
  ⟨h.toLocalTo.trans g.toLocalTo, by rw [g.own, h.own], fun p en he => g.keeps p en (h.keeps p en he)⟩

/-- A record of a fault is no other change. -/
theorem report (h : Checked k s u) (die colour load : Nat) (ho : Holds) (code : Nat) (o : Origin) (pos slot : Nat) (w2 w3 : DWord) :
    Checked k s (u.report die colour load ho code o pos slot w2 w3) :=
  h.trans ⟨u.report_local die colour load ho code o pos slot w2 w3, rfl, fun _ _ he => he⟩

/-- The marks of a fault raised. -/
theorem marks (s : State) (k : Nat) (l : List Nat) (m : Bool) :
    Checked k s (s.setElem k { s.elem k with slotFull := l, matchFull := m }) :=
  ⟨s.setElem_local k _, by rw [State.elem_setElem_same], fun _ _ he => by
    rw [State.elem_setElem_same]; exact ⟨he.here, he.only, he.free⟩⟩

/-- An entry of an ordered actor changed. -/
theorem ordered {j : Nat} {x y : Entry} (hx : (j, x) ∈ (s.elem k).store) (ho : slotOrdered (s.elem k) x.slot = true) :
    Checked k s (s.setElem k (setEntry (s.elem k) j y)) := by
  refine ⟨s.setElem_local k _, by rw [State.elem_setElem_same]; rfl, fun p en he => ?_⟩
  rw [State.elem_setElem_same]
  have hj : p ≠ j := fun hj => by
    have : x = en := he.only (j, x) hx hj.symm
    rw [this, he.free] at ho
    cases ho
  refine ⟨(tabGet_tabSet_other _ _ hj).trans he.here, fun z hz hzp => ?_, he.free⟩
  rcases mem_tabSet hz with rfl | hz
  · exact absurd hzp.symm hj
  · exact he.only z hz hzp

theorem sameMemory (h : Checked k s u) : SameMemory s u := h.toLocalTo.sameMemory (by rw [h.own])
theorem portQueue (h : Checked k s u) (i : Nat) : portQueue (u.elem k) i = portQueue (s.elem k) i := by rw [h.own]; rfl
end Checked

theorem disagreement_mem {a : Nat} (h : disagreement e a = some (p, en)) : (p, en) ∈ e.store ∧ slotOrdered e en.slot = true := by
  unfold disagreement at h
  split at h
  · rename_i hc
    simp only [Bool.and_eq_true] at hc
    have hm := List.mem_of_find?_eq_some h
    simp only [slotEntries, List.mem_filter, decide_eq_true_eq] at hm
    exact ⟨hm.1, hm.2 ▸ hc.1.2⟩
  · cases h

theorem State.raiseDisagreement_checked (s : State) (k a : Nat) : Checked k s (s.raiseDisagreement k a) := by
  unfold State.raiseDisagreement
  dsimp only
  split
  · exact .refl s
  · rename_i h
    obtain ⟨hm, ho⟩ := disagreement_mem h
    exact (Checked.ordered hm ho).report _ _ _ _ _ _ _ _ _ _

theorem State.raiseSlotFull_checked (s : State) (k a : Nat) : Checked k s (s.raiseSlotFull k a) := by
  unfold State.raiseSlotFull
  dsimp only
  split
  · split
    · exact .refl s
    · exact (Checked.marks s k _ _).report _ _ _ _ _ _ _ _ _ _
  · exact Checked.marks s k _ _

theorem State.raiseFull_checked (s : State) (k : Nat) : Checked k s (s.raiseFull k) := by
  unfold State.raiseFull
  dsimp only
  split
  · split
    · exact .refl s
    · exact (Checked.marks s k _ _).report _ _ _ _ _ _ _ _ _ _
  · exact Checked.marks s k _ _

theorem foldl_checked (f : State → Nat → State) (h : ∀ s a, Checked k s (f s a)) (l : List Nat) (s : State) :
    Checked k s (l.foldl f s) := by
  induction l generalizing s with
  | nil => exact .refl s
  | cons a l ih => exact (h s a).trans (ih (f s a))

theorem State.checkMatch_checked (s : State) (k : Nat) : Checked k s (s.checkMatch k) := by
  have h1 := foldl_checked _ (fun s a => State.raiseDisagreement_checked s k a) (List.range 8) s
  have h2 := foldl_checked _ (fun s a => State.raiseSlotFull_checked s k a) (List.range 8)
    ((List.range 8).foldl (fun t a => t.raiseDisagreement k a) s)
  unfold State.checkMatch
  exact (h1.trans h2).trans (State.raiseFull_checked _ k)

end

end Sys2Proof.Machine
end

section
/-! Tokens on their way into an element (02 R36 to R39), retire tokens (R56), and sluices (R58). -/

namespace Sys2Proof.Machine

open Host (Outcome)
open Sys2Proof.Statements

/-! ## Port queues -/

section
variable {k i : Nat} {s t u : State} {e : Element} {x : Token} {q : List Token}

theorem portQueue_setPortQueue (e : Element) (q : List Token) (hi : i < 8) : portQueue (setPortQueue e i q) i = q :=
  nth_setIfInBounds_same _ _ _ _ hi

/-- An empty queue has nothing to settle. -/
theorem State.settlePort_nil (h : portQueue (s.elem k) i = []) (n : Nat) : s.settlePort k i n = s := by
  cases n with
  | zero => rfl
  | succ n =>
    unfold State.settlePort
    dsimp only
    rw [h]

/-- A data token at the head of a queue whose port has not ended stays there. -/
theorem State.settlePort_data (h : portQueue (s.elem k) i = x :: q) (hx : x.kind = .data) (he : s.portEnded k i = false) (n : Nat) :
    s.settlePort k i n = s := by
  cases n with
  | zero => rfl
  | succ n =>
    unfold State.settlePort
    dsimp only
    rw [h]
    dsimp only
    rw [hx]
    simp [he]

/-- Taking the only token of a queue. -/
theorem State.takePort_last (h : portQueue (s.elem k) i = [x]) (hi : i < 8) :
    s.takePort k i = s.setElem k (setPortQueue (s.elem k) i []) := by
  unfold State.takePort
  dsimp only
  rw [h, List.tail_cons]
  exact State.settlePort_nil (by rw [State.elem_setElem_same, portQueue_setPortQueue _ _ hi]) 8

/-- Drains have not ended at a port that holds a token. -/
theorem State.portDrains_held (h : portQueue (s.elem k) i ≠ []) : s.portDrains k i = s := by
  unfold State.portDrains
  generalize List.finRange 3 = l
  induction l with
  | nil => rfl
  | cons g l ih =>
    rw [List.foldl_cons]
    have hg : (if drainPort (s.elem k).gens[g] = i then s.drainEnds k g else s) = s := by
      split
      · rename_i hd
        unfold State.drainEnds
        dsimp only
        rw [hd, if_neg (by simp [h])]
      · rfl
    rw [hg, ih]

/-! ## From a flume queue into a port queue -/

theorem State.producersWithin_congr (h : u.binds = s.binds) (p : Source → Bool) (colour load n : Nat) (d : Dest) :
    u.producersWithin p colour load n d = s.producersWithin p colour load n d := by
  induction n generalizing d with
  | zero => rfl
  | succ n ih => simp only [State.producersWithin, h, ih]

/-- Whether a port is ended is a matter of the bindings and of what the element has counted. -/
theorem State.portEnded_congr (h : u.binds = s.binds) (hc : (u.elem k).colour = (s.elem k).colour)
    (hl : (u.elem k).load = (s.elem k).load) (he : (u.elem k).portEos = (s.elem k).portEos) (i : Nat) :
    u.portEnded k i = s.portEnded k i := by
  have hn : u.portProducers k i = s.portProducers k i := by
    simp only [State.portProducers, State.producers, State.producersThat, State.producersWithin_congr h, h, hc, hl]
  rw [State.portEnded, State.portEnded, hn, he]

/-- Taking the head of a flume queue changes that endpoint, and may ask for a spilled token. -/
theorem State.popChan_eq (s : State) (d : Dest) (colour : Nat) (load : Option Nat) (f : Chan → Chan) : ∃ l,
    s.popChan d colour load f = { s.mapChan d colour load fun c => f c.pop with packets := l } := by
  unfold State.popChan State.askSpilled
  split
  · exact ⟨_, rfl⟩
  · split
    · exact ⟨_, rfl⟩
    · exact ⟨_, rfl⟩

theorem State.releaseToPort_empty {d : Dest} {colour : Nat} {c : Chan} {rest : List Token} (hk : k = elemKey d.die d.pos)
    (hc : s.chanAt d colour (some (s.elem k).load) = some c) (hq : c.queue = x :: rest) (hs : c.stuck = false)
    (hx : x.kind = .data) (hcfg : (s.elem k).configured = true) (hcut : (s.elem k).cut ≠ .saved) (hcol : (s.elem k).colour = colour)
    (hm : portMode (s.elem k) d.din ≠ .unbound) (hi : d.din < 8) (hp : portQueue (s.elem k) d.din = [])
    (hend : s.portEnded k d.din = false) :
    s.releaseToPort d colour = ((s.popChan d colour (some (s.elem k).load) id).setElem k
      (setPortQueue (s.elem k) d.din [x])).checkMatch k := by
  have hhead : c.head = some x := by simp [Chan.head, hs, hq]
  obtain ⟨l, hl⟩ := s.popChan_eq d colour (some (s.elem k).load) id
  unfold State.releaseToPort
  dsimp only
  rw [← hk, hc]
  dsimp only
  rw [hhead]
  dsimp only
  rw [if_pos (by simp [hcfg, hcut, hcol, hm, hp, portPlaces]), hp, List.nil_append]
  set v := (s.popChan d colour (some (s.elem k).load) id).setElem k (setPortQueue (s.elem k) d.din [x]) with hv
  have hve : v.elem k = setPortQueue (s.elem k) d.din [x] := by rw [hv, State.elem_setElem_same]
  have hvq : portQueue (v.elem k) d.din = [x] := by rw [hve, portQueue_setPortQueue _ _ hi]
  have hvend : v.portEnded k d.din = false := by
    rw [← hend]
    exact State.portEnded_congr (by rw [hv, hl]; rfl) (by rw [hve]; rfl) (by rw [hve]; rfl) (by rw [hve]; rfl) d.din
  rw [State.settlePort_data hvq hx hvend, State.portDrains_held (by rw [hvq]; exact List.cons_ne_nil _ _)]

/-! ## Opening an entry -/

theorem findEntry_none {a : Nat} {tag : Word} (h : ∀ y ∈ e.store, ¬(y.2.slot = a ∧ y.2.tag = tag)) : findEntry e a tag = none := by
  simpa [findEntry] using h

theorem freePlace_least {p : Nat} (hp : p < 64) (hfree : tabGet e.store p = none) (hmin : ∀ j, j < p → tabGet e.store j ≠ none) :
    freePlace e = some p := by
  unfold freePlace
  rw [List.find?_range_eq_some]
  refine ⟨by simp [hfree], List.mem_range.mpr hp, fun j hj => ?_⟩
  simpa [← Option.ne_none_iff_isSome] using hmin j hj

/-- The element once the head token x of port i has opened an entry at place p. -/
def opened (e : Element) (p i : Nat) (x : Token) : Element :=
  putOperand { e with births := e.births + 1 } p (newEntry (portSlot e i) x.tag e.births) i x

theorem State.matchPort_opens {p : Nat} (he : s.elem k = e) (hm : portMode e i = .matching) (hq : portQueue e i = [x])
    (hx : x.kind = .data) (ho : slotOrdered e (portSlot e i) = false)
    (hno : ∀ y ∈ e.store, ¬(y.2.slot = portSlot e i ∧ y.2.tag = x.tag))
    (hroom : (e.store.filter fun y => y.2.slot = portSlot e i).length < quotaOf e (portSlot e i))
    (hp : p < 64) (hfree : tabGet e.store p = none) (hmin : ∀ j, j < p → tabGet e.store j ≠ none) :
    s.matchPort k i = (s.setElem k (opened e p i x)).takePort k i := by
  have hhead : matchHead e i = some x := by simp [matchHead, hm, hq, hx]
  have hopens : matchRoom e i x = .opens p := by
    unfold matchRoom
    simp only [findEntry_none hno, ho, Bool.false_and, Bool.false_eq_true, if_false, freePlace_least hp hfree hmin]
    rw [if_neg (by simpa [slotEntries] using hroom)]
  unfold State.matchPort
  dsimp only
  rw [he, hhead]
  dsimp only
  rw [hopens]
  rfl

/-- What an entry holds of a token: its tag, and the payload as an operand of its slot. -/
structure Opened (e : Element) (i : Nat) (x : Token) (en : Entry) : Prop where
  slot : en.slot = portSlot e i
  tag : en.tag = x.tag
  payload : nth en.payloads.toList (portOperand e i) 0 = x.payload
  present : en.present.getLsbD (portOperand e i) = true

theorem placeOperand_opened (e : Element) (i : Nat) (x : Token) (age : Nat) (st : EntryState) :
    Opened e i x { placeOperand (newEntry (portSlot e i) x.tag age) (portOperand e i) x with st := st } := by
  have hn : portOperand e i < 4 := Nat.mod_lt _ (by decide)
  refine ⟨rfl, rfl, nth_setIfInBounds_same _ _ _ _ hn, ?_⟩
  simp [placeOperand, newEntry, hn]

/-- Which entry opens, and what else of the element stays. -/
theorem opened_holds {p : Nat} (e : Element) (x : Token) (hfree : tabGet e.store p = none) (ho : slotOrdered e (portSlot e i) = false) :
    ∃ en, HoldsFree (opened e p i x) p en ∧ Opened e i x en ∧ (opened e p i x).mem = e.mem ∧ (opened e p i x).ports = e.ports ∧
      (opened e p i x).rr = e.rr := by
  unfold opened putOperand
  dsimp only
  split
  · have h := holdsFree_setEntry (e := { e with births := e.births + 1 })
      (en := { placeOperand (newEntry (portSlot e i) x.tag e.births) (portOperand e i) x with st := .ready }) hfree ho
    exact ⟨_, ⟨h.here, h.only, h.free⟩, placeOperand_opened e i x e.births .ready, rfl, rfl, rfl⟩
  · exact ⟨_, holdsFree_setEntry hfree ho, placeOperand_opened e i x e.births .part, rfl, rfl, rfl⟩

theorem matchToken_opens {die pos p : Nat} (hk : k = elemKey die pos) (hcfg : (s.elem k).configured = true)
    (hcut : (s.elem k).cut ≠ .saved) (hrr : (s.elem k).rr < 8) (hm : portMode (s.elem k) (s.elem k).rr = .matching)
    (hq : portQueue (s.elem k) (s.elem k).rr = [x]) (hx : x.kind = .data)
    (ho : slotOrdered (s.elem k) (portSlot (s.elem k) (s.elem k).rr) = false)
    (hno : ∀ y ∈ (s.elem k).store, ¬(y.2.slot = portSlot (s.elem k) (s.elem k).rr ∧ y.2.tag = x.tag))
    (hroom : ((s.elem k).store.filter fun y => y.2.slot = portSlot (s.elem k) (s.elem k).rr).length <
      quotaOf (s.elem k) (portSlot (s.elem k) (s.elem k).rr))
    (hp : p < 64) (hfree : tabGet (s.elem k).store p = none) (hmin : ∀ j, j < p → tabGet (s.elem k).store j ≠ none) :
    ∃ u en, exec (.matchToken die pos) s = .next u ∧ tabGet (u.elem k).store p = some en ∧ Opened (s.elem k) (s.elem k).rr x en ∧
      portQueue (u.elem k) (s.elem k).rr = [] ∧ (u.elem k).rr = ((s.elem k).rr + 1) % 8 ∧ SameMemory s u := by
  set e := s.elem k with he
  set e1 : Element := { e with rr := (e.rr + 1) % 8 } with he1
  obtain ⟨en, hholds, hen, hmem, hports, hrr1⟩ := opened_holds (i := e.rr) (p := p) e1 x hfree ho
  set e2 := setPortQueue (opened e1 p e.rr x) e.rr []
  have hopen : (s.setElem k e1).matchPort k e.rr = s.setElem k e2 := by
    rw [State.matchPort_opens (State.elem_setElem_same s k e1) hm hq hx ho hno hroom hp hfree hmin, State.setElem_setElem,
      State.takePort_last (x := x) (by rw [State.elem_setElem_same, portQueue, hports]; exact hq) hrr, State.elem_setElem_same,
      State.setElem_setElem]
  have hc := (s.setElem k e2).checkMatch_checked k
  have hown := hc.own
  have hkeeps := hc.keeps p en
  rw [State.elem_setElem_same] at hown hkeeps
  refine ⟨(s.setElem k e2).checkMatch k, en, ?_, (hkeeps ⟨hholds.here, hholds.only, hholds.free⟩).here,
    ⟨hen.slot, hen.tag, hen.payload, hen.present⟩, ?_, by rw [hown]; exact hrr1,
    sameMemory_trans (s.setElem_sameMemory k e2 hmem) hc.sameMemory⟩
  · change execMatchToken die pos s = _
    unfold execMatchToken
    dsimp only
    rw [← hk, ← he, if_pos (by simp [hcfg, hcut]), hopen]
  · rw [hc.portQueue, State.elem_setElem_same, portQueue_setPortQueue _ _ hrr]

/-! ## Retire tokens (02 R56) -/

/-- A byte that is not zero is read where it was written. -/
theorem Memory.get_set_nonzero (m : Mem) (a : Nat) {b : Byte} (hb : b ≠ 0) : Memory.get (Memory.set m a b) a = b := by
  induction m with
  | nil => rw [Memory.set, if_neg hb, Memory.get, if_pos rfl]
  | cons y m ih =>
    obtain ⟨j, v⟩ := y
    rw [Memory.set]
    split
    · rw [Memory.get, if_pos rfl]
    · split
      · rw [Memory.get, if_pos rfl]
      · rename_i h
        rw [Memory.get, if_neg (Ne.symm h), ih]

/-- A bit of a retire bitmap that has been set reads as set. -/
theorem getBitmap_setBitmap (e : Element) (slot idx : Nat) (n : BitVec 18) :
    getBitmap (setBitmap e slot idx n true) slot idx n = true := by
  set pl := bitmapBit e slot idx n with hpl
  have hbit : pl.2 < 8 := Nat.mod_lt _ (by decide)
  set b : Byte := Memory.get e.mem pl.1 ||| 1#8 <<< pl.2 with hb
  have hset : b.getLsbD pl.2 = true := by simp [hb, hbit]
  have hne : b ≠ 0 := fun h => by simp [h] at hset
  have hmem : (setBitmap e slot idx n true).mem = Memory.set e.mem pl.1 b := by
    simp [setBitmap, emWrite, Memory.write, ← hpl, ← hb]
  have hplace : bitmapBit (setBitmap e slot idx n true) slot idx n = pl := rfl
  rw [getBitmap, hplace, hmem, Memory.get_set_nonzero _ _ hne]
  exact hset

/-- The one outstanding iteration of a window retires: its bit is set, and cleared as the window advances past it. -/
theorem retireIn_one {slot idx : Nat} {w : Win} (hf : w.final = false) (hx : x.fin = false) (ho : x.tag.extractLsb' 0 18 = w.o)
    (hn : w.n = w.o + 1) : retireIn e slot idx w x = { setBitmap (setBitmap e slot idx w.o true) slot idx w.o false with
      wins := tabSet e.wins (winKey slot idx) { w with o := w.n } } := by
  have hfuel : (w.n - w.o).toNat = 1 := by rw [hn]; simp
  have hne : w.o ≠ w.n := by rw [hn]; bv_omega
  unfold retireIn
  dsimp only
  rw [ho, hfuel, advanceO, getBitmap_setBitmap]
  have hn' : w.o + 1#18 = w.n := hn.symm
  simp [hne, advanceO, hf, hx, hn', setBitmap, emWrite]

theorem State.retire_one {slot j : Nat} {w : Win} (hfind : findWin (s.elem k) slot (x.tag.extractLsb' 18 14) = some j)
    (hw : tabGet (s.elem k).wins (winKey slot j) = some w) (ho : x.tag.extractLsb' 0 18 = w.o) (hn : w.n = w.o + 1) :
    s.retire k slot x = s.setElem k (retireIn (s.elem k) slot j w x) := by
  unfold State.retire
  dsimp only
  rw [hfind]
  dsimp only
  rw [hw]
  dsimp only
  rw [ho, hn, if_neg (by simp)]

/-! ## Waking parked firings (02 R53) -/

/-- Only the entries, the end firings and the READY order differ. -/
def Woken (e e' : Element) : Prop := e' = { e with store := e'.store, ends := e'.ends, ready := e'.ready }

theorem foldl_woken {α : Type} (f : Element → α → Element) (h : ∀ e a, Woken e (f e a)) (l : List α) (e : Element) :
    Woken e (l.foldl f e) := by
  induction l generalizing e with
  | nil => rfl
  | cons a l ih =>
    unfold Woken at *
    rw [List.foldl_cons, ih, h]

theorem wakeEnd_woken (p : Park → Bool) (e : Element) (a : Fin 8) : Woken e (wakeEnd p e a) := by
  unfold wakeEnd
  split
  · split <;> rfl
  · rfl

theorem wakeEntry_woken (p : Park → Bool) (e : Element) (j : Nat) : Woken e (wakeEntry p e j) := by
  unfold wakeEntry
  split
  · split <;> rfl
  · rfl

theorem wakeEntries_woken (e : Element) (p : Park → Bool) : Woken e (wakeEntries e p) := by
  have h1 := foldl_woken (wakeEntry p) (wakeEntry_woken p) (byAge e) e
  have h2 := foldl_woken (wakeEnd p) (wakeEnd_woken p) (List.finRange 8) ((byAge e).foldl (wakeEntry p) e)
  unfold Woken wakeEntries at *
  rw [h2, h1]

theorem wakeEntries_ports (e : Element) (p : Park → Bool) : (wakeEntries e p).ports = e.ports := by rw [wakeEntries_woken e p]

theorem wakeEntries_wins (e : Element) (p : Park → Bool) : (wakeEntries e p).wins = e.wins := by rw [wakeEntries_woken e p]

/-- With no end firing parked, waking the end firings changes nothing. -/
theorem foldl_wakeEnd_none (p : Park → Bool) (h : ∀ (a : Fin 8) w r, e.ends[a] ≠ .parked w r) (l : List (Fin 8)) :
    l.foldl (wakeEnd p) e = e := by
  induction l with
  | nil => rfl
  | cons a l ih =>
    have ha : wakeEnd p e a = e := by
      unfold wakeEnd
      split
      · rename_i w r hp
        exact absurd hp (h a w r)
      · rfl
    rw [List.foldl_cons, ha, ih]

/-- The one entry of a store, parked for what wakes it, becomes READY behind the others. -/
theorem wakeEntries_single {p : Nat} {en : Entry} (q : Park → Bool) (hs : e.store = [(p, en)]) (hst : en.st = .parked)
    (hq : q en.park = true) (h : ∀ (a : Fin 8) w r, e.ends[a] ≠ .parked w r) :
    wakeEntries e q = { e with store := [(p, { en with st := .ready, park := .none })], ready := e.ready ++ [p] } := by
  have hage : byAge e = [p] := by simp [byAge, hs, insertByAge]
  have hwake : wakeEntry q e p = { e with store := [(p, { en with st := .ready, park := .none })], ready := e.ready ++ [p] } := by
    simp [wakeEntry, hs, tabGet, hst, hq, setEntry, tabSet]
  unfold wakeEntries
  rw [hage, List.foldl_cons, List.foldl_nil, hwake, foldl_wakeEnd_none q]
  exact h

theorem retireToken_one {die pos port j : Nat} {w : Win} (hk : k = elemKey die pos) (hm : portMode (s.elem k) port = .ret)
    (hcut : (s.elem k).cut ≠ .saved) (hport : port < 8) (hq : portQueue (s.elem k) port = [x]) (hx : x.kind = .retire)
    (hfin : x.fin = false) (hfind : findWin (s.elem k) (portSlot (s.elem k) port) (x.tag.extractLsb' 18 14) = some j)
    (hw : tabGet (s.elem k).wins (winKey (portSlot (s.elem k) port) j) = some w) (hf : w.final = false)
    (ho : x.tag.extractLsb' 0 18 = w.o) (hn : w.n = w.o + 1) :
    ∃ u, exec (.retireToken die pos port) s = .next u ∧ portQueue (u.elem k) port = [] ∧
      tabGet (u.elem k).wins (winKey (portSlot (s.elem k) port) j) = some { w with o := w.n } := by
  set e := s.elem k with he
  set e' := retireIn e (portSlot e port) j w x with he'
  have heq := retireIn_one (e := e) (slot := portSlot e port) (idx := j) hf hfin ho hn
  have hports : e'.ports = e.ports := by rw [he', heq]; rfl
  have htook : (s.setElem k e').takePort k port = s.setElem k (setPortQueue e' port []) := by
    rw [State.takePort_last (x := x) (by rw [State.elem_setElem_same, portQueue, hports]; exact hq) hport, State.elem_setElem_same,
      State.setElem_setElem]
  refine ⟨s.setElem k (wakeEntries (setPortQueue e' port []) (· = .window)), ?_, ?_, ?_⟩
  · change execRetireToken die pos port s = _
    unfold execRetireToken
    dsimp only
    rw [← hk, ← he, hq]
    dsimp only
    rw [if_pos (by simp [hm, hx, hcut]), State.retire_one hfind hw ho hn, htook, State.elem_setElem_same, State.setElem_setElem]
  · rw [State.elem_setElem_same, portQueue, wakeEntries_ports]
    exact portQueue_setPortQueue e' [] hport
  · rw [State.elem_setElem_same, wakeEntries_wins, setPortQueue, he', heq]
    exact tabGet_tabSet_same _ _ _

/-! ## Sluices (02 R58, 09 R271) -/

theorem freeNotice_wakes {i p : Nat} {n : Notice} {en : Entry} (hi : s.notices[i]? = some n)
    (ha : s.arrived (fun c => c = .notice n.pool n.value n.elem) = true) (hs : (s.elem n.elem).store = [(p, en)]) (hst : en.st = .parked)
    (hpark : en.park = .context n.pool n.value) (hends : ∀ (a : Fin 8) w r, (s.elem n.elem).ends[a] ≠ .parked w r) :
    ∃ u, exec (.freeNotice i) s = .next u ∧ u.notices = s.notices.eraseIdx i ∧
      (u.elem n.elem).store = [(p, { en with st := .ready, park := .none })] ∧
      (u.elem n.elem).ready = (s.elem n.elem).ready ++ [p] := by
  have hw := wakeEntries_single (· = .context n.pool n.value) hs hst (by simp [hpark]) hends
  refine ⟨({ s with notices := dropNth s.notices i }.consume fun c => c = Cargo.notice n.pool n.value n.elem).setElem n.elem
    (wakeEntries (s.elem n.elem) (· = Park.context n.pool n.value)), ?_, ?_, ?_, ?_⟩
  · change execFreeNotice i s = _
    unfold execFreeNotice
    rw [hi]
    dsimp only
    rw [if_neg (by simpa using ha)]
    rfl
  · exact (List.eraseIdx_eq_take_drop_succ _ _).symm
  · rw [State.elem_setElem_same]
    exact congrArg Element.store hw
  · rw [State.elem_setElem_same]
    exact congrArg Element.ready hw


theorem State.sluiceStall_fir (s : State) (k : Nat) : ((s.sluiceStall k).elem k).fir = (s.elem k).fir := by
  unfold State.sluiceStall
  dsimp only
  split
  · rfl
  · change ((s.setElem k _).elem k).fir = _
    rw [State.elem_setElem_same]

theorem sluiceReply_grants {die pool v : Nat} {rest : List (Nat × Nat)} (hasks : (s.pool (die * 16 + pool)).asks = (v, k) :: rest)
    (ha : s.arrived (fun c => c = .ask (die * 16 + pool) v k) = true) (hv : v ∉ (s.pool (die * 16 + pool)).alloc)
    (hh : ∀ h ∈ (s.pool (die * 16 + pool)).held, h.1 ≠ v) :
    ∃ u, exec (.sluiceReply die pool) s = .next u ∧ (u.pool (die * 16 + pool)).asks = rest ∧
      (u.pool (die * 16 + pool)).held = (s.pool (die * 16 + pool)).held ++ [(v, k)] ∧
      (u.elem k).fir.ask = .granted v ∧ (u.elem k).fir.holds = (s.elem k).fir.holds ++ [(die * 16 + pool, v)] := by
  set pk := die * 16 + pool with hpk
  set t := (s.consume fun c => c = Cargo.ask pk v k).sluiceStall k with ht
  have hfir : (t.elem k).fir = (s.elem k).fir := State.sluiceStall_fir _ k
  refine ⟨(t.setPool pk { s.pool pk with asks := rest, held := (s.pool pk).held ++ [(v, k)] }).setElem k
    { t.elem k with fir := { (t.elem k).fir with ask := .granted v, holds := (t.elem k).fir.holds ++ [(pk, v)] } }, ?_, ?_, ?_, ?_, ?_⟩
  · change execSluiceReply die pool s = _
    unfold execSluiceReply
    dsimp only
    rw [← hpk, hasks]
    dsimp only
    rw [if_neg (by simpa using ha), if_neg (by simpa using ⟨hv, fun x hx => hh (v, x) hx rfl⟩)]
  · rw [State.pool_setElem, State.pool_setPool_same]
  · rw [State.pool_setElem, State.pool_setPool_same]
  · rw [State.elem_setElem_same]
  · rw [State.elem_setElem_same, hfir]

/-! ## Delivery of a packet (13 R351) -/

theorem State.reportWeir_packets (s : State) (d : Dest) (colour : Nat) (load : Option Nat) :
    (s.reportWeir d colour load).packets = s.packets := by
  unfold State.reportWeir
  split
  · rfl
  · dsimp only
    split <;> rfl

theorem State.reportWeir_chans (s : State) (d : Dest) (colour : Nat) (load : Option Nat) :
    (s.reportWeir d colour load).chans = s.chans := by
  unfold State.reportWeir
  split
  · rfl
  · dsimp only
    split <;> rfl

theorem tokenArrival_delivers {i : Nat} {p : Packet} {c : Chan} (hi : s.packets[i]? = some p) (hhere : p.here = p.target)
    (hvia : p.via = none) (hp : p.cargo = .token x) (hx : x.kind = .data) (hc : s.chanAt p.dest p.colour p.load = some c)
    (hkind : c.kind ≠ .ordered) (hsp : c.spilled = []) :
    ∃ u, exec (.tokenArrival (.packet i)) s = .next u ∧ u.packets = s.packets.eraseIdx i ∧
      (u.chanAt p.dest p.colour p.load).map Chan.queue = some (c.queue ++ [x]) := by
  have hdeliver : c.deliver p.seq x = { c with weirs := c.weirs + 0, passed := c.passed + 0, queue := c.queue ++ [x] } := by
    simp [Chan.deliver, hkind, Chan.append, hsp, hx]
  have harrive : s.arrive i =
      ({ s with packets := dropNth s.packets i } : State).mapChan p.dest p.colour p.load (·.deliver p.seq x) := by
    unfold State.arrive
    rw [hi]
    dsimp only
    rw [if_pos (by simp [State.deliverable, Packet.atTarget, hhere, hvia, Packet.token, hp, hx]), hp]
  refine ⟨(s.arrive i).reportWeir p.dest p.colour p.load, ?_, ?_, ?_⟩
  · change execTokenArrival (.packet i) s = _
    unfold execTokenArrival
    dsimp only
    rw [hi]
  · rw [State.reportWeir_packets, harrive]
    exact (List.eraseIdx_eq_take_drop_succ _ _).symm
  · have hat : (s.arrive i).chanAt p.dest p.colour p.load = some (c.deliver p.seq x) := by
      rw [harrive]
      exact State.chanAt_mapChan_same (s := { s with packets := dropNth s.packets i }) hc (by rw [hdeliver]) (by rw [hdeliver])
        (by rw [hdeliver])
    rw [State.chanAt, State.reportWeir_chans]
    rw [State.chanAt] at hat
    rw [hat, hdeliver]
    rfl

/-- The head of a flume queue moves into the empty port queue that it backs. -/
theorem tokenArrival_releases {d : Dest} {colour : Nat} {c : Chan} {rest : List Token} (hd : d.kind = .element)
    (hk : k = elemKey d.die d.pos) (hc : s.chanAt d colour (some (s.elem k).load) = some c) (hq : c.queue = x :: rest)
    (hs : c.stuck = false) (hx : x.kind = .data) (hcfg : (s.elem k).configured = true) (hcut : (s.elem k).cut ≠ .saved)
    (hcol : (s.elem k).colour = colour) (hm : portMode (s.elem k) d.din ≠ .unbound) (hi : d.din < 8)
    (hp : portQueue (s.elem k) d.din = []) (hend : s.portEnded k d.din = false) :
    ∃ u, exec (.tokenArrival (.release d colour)) s = .next u ∧ portQueue (u.elem k) d.din = [x] ∧
      (u.chanAt d colour (some (s.elem k).load)).map Chan.queue = some c.pop.queue ∧ SameMemory s u := by
  obtain ⟨l, hl⟩ := s.popChan_eq d colour (some (s.elem k).load) id
  set v := (s.popChan d colour (some (s.elem k).load) id).setElem k (setPortQueue (s.elem k) d.din [x]) with hv
  have hchecked := v.checkMatch_checked k
  refine ⟨v.checkMatch k, ?_, ?_, ?_, ?_⟩
  · change execTokenArrival (.release d colour) s = _
    unfold execTokenArrival
    dsimp only
    rw [hd]
    dsimp only
    rw [State.releaseToPort_empty hk hc hq hs hx hcfg hcut hcol hm hi hp hend]
  · rw [hchecked.portQueue, hv, State.elem_setElem_same, portQueue_setPortQueue _ _ hi]
  · have hpop := State.chanAt_mapChan_same (f := fun c => id c.pop) hc rfl rfl rfl
    have hchan : (v.checkMatch k).chanAt d colour (some (s.elem k).load) = some c.pop := by
      rw [← id_eq c.pop, ← hpop, State.chanAt, State.chanAt, hchecked.chans, hv, hl]
      rfl
    rw [hchan]
    rfl
  · refine sameMemory_trans (sameMemory_of_eq (fun j => ?_) (by rw [hv, hl]; rfl) (by rw [hv, hl]; rfl)) hchecked.sameMemory
    by_cases hj : j = k
    · rw [hj, hv, State.elem_setElem_same]
      rfl
    · rw [hv, hl, State.elem_setElem_other _ _ hj]
      rfl

end

/-- Settles O36: each event by the law of what it moves. -/
theorem tokenEvents : Obligations.TokenEvents := by
  unfold Obligations.TokenEvents
  refine ⟨?_, ?_, ?_, ?_, ?_, ?_⟩
  · intro s d colour c t rest hd k e hc hq hs ht hcfg hcut hcol hm hi hp hend
    exact tokenArrival_releases hd rfl hc hq hs ht hcfg hcut hcol hm hi hp hend
  · intro s i p c t hi hhere hvia hp ht hc hkind hsp
    exact tokenArrival_delivers hi hhere hvia hp ht hc hkind hsp
  · intro s die pos h p k e hcfg hcut hrr hm hq hh ho hno hroom hp hfree hmin
    obtain ⟨u, en, hu, hen, ⟨hslot, htag, hpay, hpres⟩, hport, hturn, hmem⟩ :=
      matchToken_opens rfl hcfg hcut hrr hm hq hh ho hno hroom hp hfree hmin
    exact ⟨u, en, hu, hen, hslot, htag, hpay, hpres, hport, hturn, hmem⟩
  · intro s die pos port t j w k e a hm hcut hport hq ht hfin hfind hw hf ho hn
    exact retireToken_one rfl hm hcut hport hq ht hfin hfind hw hf ho hn
  · intro s i n p en hi ha hs hst hpark hends
    exact freeNotice_wakes hi ha hs hst hpark hends
  · intro s die pool v k rest pk hasks ha hv hh
    exact sluiceReply_grants hasks ha hv hh

end Sys2Proof.Machine
end

section
/-! How firings begin, end and resume (02 R42, R45 to R53; 07 R192). -/

namespace Sys2Proof.Machine

open Host (Outcome)
open Sys2Proof.Statements

section
variable {k d p : Nat} {s : State} {e : Element} {en : Entry}

/-! ## Limits -/

theorem stepLimit_aborts (hf : s.focus = .element d p) (hrun : (s.elem (elemKey d p)).fir.status = .running)
    (hcount : (s.elem (elemKey d p)).fir.counted = false)
    (hlim : stepLimitOf (s.elem (elemKey d p)) (s.elem (elemKey d p)).fir.slot ≤ (s.elem (elemKey d p)).fir.steps) :
    ∃ u, exec .stepLimit s = .next u ∧ Aborted s u (elemKey d p) 0x06 := by
  refine ⟨s.raise cStepLimit (noDetail cStepLimit), ?_, s.raise_aborted d p cStepLimit _ hf (by decide)⟩
  change execStepLimit s = _
  rw [execStepLimit, if_pos]
  simp [State.limited, hf, State.limitReached, hrun, hcount, hlim]

theorem atDeferralLimit_entry (hp : e.fir.place < 64) (hen : tabGet e.store e.fir.place = some en)
    (hlim : defLimitOf e e.fir.slot ≤ en.defcnt) : atDeferralLimit e = true := by
  simp [atDeferralLimit, firDefcnt, hp, hen, hlim]

/-- At its limit a clean firing's deferral is a fault. -/
theorem State.defer_atLimit (why : Park) (hclean : (s.elem k).fir.clean = true) (hlim : atDeferralLimit (s.elem k) = true) :
    s.defer k why = s.abortFiring k (deferCode why) (s.elem k).core.pc.toNat 0 := by
  unfold State.defer
  dsimp only
  rw [hclean, if_neg (by decide), if_pos hlim]

theorem deferralLimit_context {v pk : Nat} (hk : OnElem s k) (hrun : (s.elem k).fir.status ≠ .idle)
    (hclean : (s.elem k).fir.clean = true) (hlim : atDeferralLimit (s.elem k) = true) (hask : (s.elem k).fir.ask = .refused pk v) :
    ∃ u, exec (.deferralLimit .context) s = .next u ∧ Aborted s u k 0x0B := by
  refine ⟨s.defer k (.context pk v), ?_, ?_⟩
  · change execDeferralLimit .context s = _
    rw [execDeferralLimit, onElement_onElem hk, if_neg (by simp [hrun, hclean, hlim]), hask]
  · rw [State.defer_atLimit _ hclean hlim]
    exact s.abortFiring_aborted k cCtxExhausted _ _ (by decide)

theorem deferralLimit_window {r : BitVec 5} (hk : OnElem s k) (hrun : (s.elem k).fir.status ≠ .idle)
    (hclean : (s.elem k).fir.clean = true) (hlim : atDeferralLimit (s.elem k) = true) (hfetch : s.fetch = .ok (.tagnext r))
    (hwin : winEntries (s.elem k) (s.elem k).fir.slot ≠ 0)
    (href : windowRefused (s.elem k) (s.elem k).fir.slot ((s.elem k).xt.extractLsb' 18 14) = true) :
    ∃ u, exec (.deferralLimit .window) s = .next u ∧ Aborted s u k 0x0A := by
  refine ⟨s.defer k .window, ?_, ?_⟩
  · change execDeferralLimit .window s = _
    rw [execDeferralLimit, onElement_onElem hk, if_neg (by simp [hrun, hclean, hlim]), hfetch]
    dsimp only
    rw [if_pos (by simp [hwin, tagOf_ctx, href])]
  · rw [State.defer_atLimit _ hclean hlim]
    exact s.abortFiring_aborted k cTagWindow _ _ (by decide)

/-! ## The run queue and end firings -/

theorem runQueueJoin_oldest {die pos : Nat} {rest : List Nat} (hk : k = elemKey die pos) (hr : (s.elem k).ready = p :: rest)
    (hroom : (s.elem k).runq.length < 16) (hen : tabGet (s.elem k).store p = some en) :
    ∃ u, exec (.runQueueJoin die pos) s = .next u ∧ (u.elem k).ready = rest ∧ (u.elem k).runq = (s.elem k).runq ++ [p] ∧
      tabGet (u.elem k).store p = some { en with st := .queued } ∧ SameMemory s u := by
  refine ⟨s.setElem k (setEntry { s.elem k with ready := rest, runq := (s.elem k).runq ++ [p] } p { en with st := .queued }),
    ?_, ?_, ?_, ?_, s.setElem_sameMemory k _ rfl⟩
  · change execRunQueueJoin die pos s = _
    unfold execRunQueueJoin
    dsimp only
    rw [← hk, hr]
    dsimp only
    rw [if_neg (by simpa [runqSize] using hroom), hen]
  · rw [State.elem_setElem_same]
    rfl
  · rw [State.elem_setElem_same]
    rfl
  · rw [State.elem_setElem_same]
    exact tabGet_tabSet_same _ _ _

theorem endFiringReady_ended {die pos : Nat} (hk : k = elemKey die pos) (a : Fin 8) (hcfg : (s.elem k).configured = true)
    (hcut : (s.elem k).cut ≠ .saved) (hact : (s.elem k).ends[a] = .active) (hv : slotValid (s.elem k) a = true)
    (hreq : requiredPorts (s.elem k) a ≠ []) (hend : ∀ i ∈ requiredPorts (s.elem k) a, s.portEnded k i = true)
    (hno : ∀ x ∈ (s.elem k).store, x.2.slot ≠ a.val) :
    ∃ u, exec (.endFiringReady die pos a) s = .next u ∧ (u.elem k).ends[a] = .ready false ∧
      (u.elem k).ready = (s.elem k).ready ++ [64 + a.val] ∧ SameMemory s u := by
  have hst : nth (s.elem k).ends.toList a .ended = .active := by simpa [nth] using hact
  have hended : s.slotEnded k a = true := by simpa [State.slotEnded, hv, hreq] using hend
  have hnone : slotEntries (s.elem k) a = [] := by simpa [slotEntries] using hno
  refine ⟨s.setElem k { s.elem k with
    ends := (s.elem k).ends.setIfInBounds a (.ready false), ready := (s.elem k).ready ++ [endPlace a] }, ?_, ?_, ?_,
    s.setElem_sameMemory k _ rfl⟩
  · change execEndFiringReady die pos a s = _
    unfold execEndFiringReady
    dsimp only
    rw [← hk, hst, if_pos (by simp [hcfg, hcut, hended]), if_pos hnone]
  · rw [State.elem_setElem_same]
    simp
  · rw [State.elem_setElem_same]
    rfl

/-! ## Which firing is dispatched (02 R46) -/

/-- One firing stands in the run queue, the entry en at place p, of an actor that is not ordered. -/
structure OneQueued (e : Element) (p : Nat) (en : Entry) : Prop where
  runq : e.runq = [p]
  place : p < 64
  entry : tabGet e.store p = some en
  slot : en.slot < 8
  free : slotOrdered e en.slot = false

namespace OneQueued
variable {a : Nat} {u : Bool}

theorem placeSlot (h : OneQueued e p en) : placeSlot e p = en.slot := by simp [Machine.placeSlot, h.place, h.entry]

/-- Its slot is the only candidate, in its class. -/
theorem candidate_iff (h : OneQueued e p en) : slotCandidate e u a = true ↔ slotUrgent e en.slot = u ∧ en.slot = a := by
  simp only [slotCandidate, h.runq, List.any_cons, List.any_nil, Bool.or_false, h.placeSlot, Bool.and_eq_true, Bool.not_eq_true',
    decide_eq_true_eq]
  constructor
  · rintro ⟨⟨hu, -⟩, rfl⟩
    exact ⟨hu, rfl⟩
  · rintro ⟨hu, rfl⟩
    exact ⟨⟨hu, by simp [slotHeld, h.free]⟩, rfl⟩

theorem nextSlot_class (h : OneQueued e p en) : nextSlot e (slotUrgent e en.slot) = some en.slot := by
  unfold nextSlot
  generalize (if slotUrgent e en.slot then e.lastUrgent else e.lastNormal) = last
  cases hf : ((List.range 8).map fun j => (last + 1 + j) % 8).find? (slotCandidate e (slotUrgent e en.slot)) with
  | some b => rw [(h.candidate_iff.mp (List.find?_some hf)).2]
  | none =>
    have hs := h.slot
    have hmem : en.slot ∈ (List.range 8).map fun j => (last + 1 + j) % 8 :=
      List.mem_map.mpr ⟨(en.slot + 7 * (last + 1)) % 8, List.mem_range.mpr (Nat.mod_lt _ (by decide)), by omega⟩
    exact absurd (h.candidate_iff.mpr ⟨rfl, rfl⟩) (by simpa using List.find?_eq_none.mp hf _ hmem)

theorem nextSlot_other (h : OneQueued e p en) (hu : slotUrgent e en.slot ≠ u) : nextSlot e u = none := by
  unfold nextSlot
  refine List.find?_eq_none.mpr fun a _ hc => hu (h.candidate_iff.mp hc).1

theorem waitingSlots (h : OneQueued e p en) (hu : slotUrgent e en.slot = false) : waitingSlots e = [en.slot] := by
  have hfilter : ∀ n < 8, (List.range 8).filter (fun b => decide (n = b)) = [n] := by decide
  rw [← hfilter en.slot h.slot]
  refine List.filter_congr fun b _ => ?_
  rw [Bool.eq_iff_iff, h.candidate_iff, decide_eq_true_eq]
  exact and_iff_right hu

theorem normalSlot (h : OneQueued e p en) (hu : slotUrgent e en.slot = false) (s : State) : s.normalSlot e = some en.slot := by
  unfold State.normalSlot
  split
  · have hgood : ([en.slot] : List Nat).filter (withinFifteen e) = [en.slot] := by
      simp [withinFifteen, h.waitingSlots hu]
    unfold looseSlot
    dsimp only
    rw [h.waitingSlots hu, hgood, if_neg (List.cons_ne_nil _ _)]
    simp [Nat.mod_one]
  · exact hu ▸ h.nextSlot_class

theorem selectFiring (h : OneQueued e p en) (s : State) : s.selectFiring e = some (en.slot, p) := by
  have hfind : (e.runq.find? fun q => Machine.placeSlot e q = en.slot) = some p := by simp [h.runq, h.placeSlot]
  unfold State.selectFiring
  cases hu : slotUrgent e en.slot with
  | true =>
    rw [← hu, h.nextSlot_class]
    dsimp only
    rw [hfind]
    rfl
  | false =>
    rw [h.nextSlot_other (u := true) (by simp [hu]), h.normalSlot hu]
    dsimp only
    rw [hfind]
    rfl

end OneQueued

/-! ## The element that a dispatch begins with (02 R48) -/

theorem State.withWaits_eq (s : State) (e : Element) (a : Nat) : ∃ w, s.withWaits e a = { e with waits := w } := by
  unfold State.withWaits
  split
  · exact ⟨_, rfl⟩
  · exact ⟨e.waits, rfl⟩

/-- What an operand contributes to xc.opd: its presence and its level. -/
def opdNibble (en : Entry) (n : Nat) : Nat := if maskBit en.present n then 8 + (nth en.levels.toList n 0).toNat else 0

theorem opdNibble_lt (en : Entry) (n : Nat) : opdNibble en n < 16 := by
  have := (nth en.levels.toList n 0).isLt
  unfold opdNibble
  split <;> omega

theorem opdNibble_present (en : Entry) (n : Nat) : opdNibble en n / 8 % 2 = 1 ↔ en.present.getLsbD n = true := by
  have := (nth en.levels.toList n 0).isLt
  unfold opdNibble maskBit
  split
  · exact iff_of_true (by omega) ‹_›
  · exact iff_of_false (by omega) ‹_›

theorem opdField_eq (en : Entry) :
    opdField en = opdNibble en 0 + 16 * opdNibble en 1 + 256 * opdNibble en 2 + 4096 * opdNibble en 3 := by
  change 16 ^ 0 * opdNibble en 0 + (16 ^ 1 * opdNibble en 1 + (16 ^ 2 * opdNibble en 2 + (16 ^ 3 * opdNibble en 3 + 0))) = _
  omega

theorem opdField_lt (en : Entry) : opdField en < 65536 := by
  have h0 := opdNibble_lt en 0
  have h1 := opdNibble_lt en 1
  have h2 := opdNibble_lt en 2
  have h3 := opdNibble_lt en 3
  rw [opdField_eq]
  omega

theorem opdField_present (en : Entry) (n : Fin 4) : opdField en / 2 ^ (4 * n.val + 3) % 2 = 1 ↔ en.present.getLsbD n.val = true := by
  rw [← opdNibble_present, opdField_eq]
  have h0 := opdNibble_lt en 0
  have h1 := opdNibble_lt en 1
  have h2 := opdNibble_lt en 2
  have h3 := opdNibble_lt en 3
  fin_cases n
  · show _ / 2 ^ 3 % 2 = 1 ↔ opdNibble en 0 / 8 % 2 = 1
    omega
  · show _ / 2 ^ 7 % 2 = 1 ↔ opdNibble en 1 / 8 % 2 = 1
    omega
  · show _ / 2 ^ 11 % 2 = 1 ↔ opdNibble en 2 / 8 % 2 = 1
    omega
  · show _ / 2 ^ 15 % 2 = 1 ↔ opdNibble en 3 / 8 % 2 = 1
    omega

section
variable (defcnt slot opd : Nat) (retry isEnd urg arm : Bool)

theorem xcValue_toNat (hs : slot < 8) (ho : opd < 65536) : (xcValue defcnt retry isEnd urg arm slot opd).toNat =
    opd + slot * 65536 + arm.toNat * 524288 + urg.toNat * 1048576 + isEnd.toNat * 2097152 + retry.toNat * 4194304 +
      min defcnt 0xFFFF * 4294967296 := by
  have h1 := arm.toNat_le
  have h2 := urg.toNat_le
  have h3 := isEnd.toNat_le
  have h4 := retry.toNat_le
  have h5 : min defcnt 0xFFFF ≤ 0xFFFF := Nat.min_le_right _ _
  rw [xcValue, BitVec.toNat_ofNat]
  change _ % 18446744073709551616 = _
  exact Nat.mod_eq_of_lt (by show _ + min defcnt 0xFFFF * 4294967296 < _; omega)

theorem getLsbD_eq_decide (x : DWord) (n : Nat) : x.getLsbD n = decide (x.toNat / 2 ^ n % 2 = 1) :=
  Nat.testBit_eq_decide_div_mod_eq

/-- A bit that a flag gives. -/
theorem decide_flag {n : Nat} (b : Bool) (h : n % 2 = b.toNat) : decide (n % 2 = 1) = b := by
  rw [h]
  cases b <;> rfl

theorem xcValue_slot (hs : slot < 8) (ho : opd < 65536) :
    ((xcValue defcnt retry isEnd urg arm slot opd).extractLsb' 16 3).toNat = slot := by
  rw [BitVec.extractLsb'_toNat, xcValue_toNat defcnt slot opd retry isEnd urg arm hs ho, Nat.shiftRight_eq_div_pow]
  have h1 := arm.toNat_le
  have h2 := urg.toNat_le
  omega

theorem xcValue_flags (hs : slot < 8) (ho : opd < 65536) : let x := xcValue defcnt retry isEnd urg arm slot opd
    x.getLsbD 19 = arm ∧ x.getLsbD 20 = urg ∧ x.getLsbD 21 = isEnd ∧ x.getLsbD 22 = retry := by
  have h1 := arm.toNat_le
  have h2 := urg.toNat_le
  have h3 := isEnd.toNat_le
  have h4 := retry.toNat_le
  dsimp only
  simp only [getLsbD_eq_decide, xcValue_toNat defcnt slot opd retry isEnd urg arm hs ho]
  refine ⟨decide_flag arm ?_, decide_flag urg ?_, decide_flag isEnd ?_, decide_flag retry ?_⟩ <;> omega

theorem xcValue_defcnt (hs : slot < 8) (ho : opd < 65536) :
    (xcValue defcnt retry isEnd urg arm slot opd).toNat / 2 ^ 32 = min defcnt 0xFFFF := by
  have h1 := arm.toNat_le
  have h2 := urg.toNat_le
  have h3 := isEnd.toNat_le
  have h4 := retry.toNat_le
  rw [xcValue_toNat defcnt slot opd retry isEnd urg arm hs ho]
  omega

theorem xcValue_opd (hs : slot < 8) (ho : opd < 65536) {n : Nat} (hn : n < 16) :
    (xcValue defcnt retry isEnd urg arm slot opd).getLsbD n = decide (opd / 2 ^ n % 2 = 1) := by
  rw [getLsbD_eq_decide, xcValue_toNat defcnt slot opd retry isEnd urg arm hs ho]
  congr 2
  interval_cases n <;> omega

end

/-- The bytes of a halfword. -/
theorem armEntry_lt (e : Element) (a : Nat) (arm : Bool) : armEntry e a arm < 65536 := by
  unfold armEntry slotField
  generalize 32 * a + _ = x
  have h1 := (Memory.get e.active x).isLt
  have h2 := (Memory.get e.active (x + 1)).isLt
  simp only [Memory.read]
  omega

/-- What a dispatch of the entry en at place p gives its element. -/
structure Dispatched (e : Element) (p : Nat) (en : Entry) (u : Element) : Prop where
  runq : u.runq = []
  entry : tabGet u.store p = some { en with st := .running }
  pc : u.core.pc.toNat = armEntry e en.slot en.arm
  x : u.x = en.payloads
  xt : u.xt = en.tag.zeroExtend 64
  xc : u.xc = xcValue en.defcnt en.retry false (slotUrgent e en.slot) en.arm en.slot (opdField en)
  core : u.core.reg 0 = 0 ∧ u.core.pred 0 = true ∧ u.core.loops = []
  fir : u.fir = { Firing.idle with status := .running, place := p, slot := en.slot, tag := en.tag, retry := en.retry }
  mem : u.mem = e.mem
  pend : u.pend = e.pend

theorem dispatchElem_dispatched (h : OneQueued e p en) (s : State) :
    Dispatched e p en (dispatchElem (s.withWaits e en.slot) s.free en.slot p) := by
  obtain ⟨w, hw⟩ := s.withWaits_eq e en.slot
  have hpc : (BitVec.ofNat 64 (armEntry e en.slot en.arm)).toNat = armEntry e en.slot en.arm := by
    rw [BitVec.toNat_ofNat]
    exact Nat.mod_eq_of_lt ((armEntry_lt e en.slot en.arm).trans (by decide))
  rw [hw]
  unfold dispatchElem
  simp only [h.entry, h.runq]
  exact ⟨by simp [setEntry], tabGet_tabSet_same _ _ _, hpc, rfl, rfl, rfl, ⟨rfl, rfl, rfl⟩, rfl, rfl, rfl⟩

/-- With an entry address in range and nothing that waits, the dispatch raises nothing. -/
theorem State.entryFault_none (ha : (s.elem k).core.pc.toNat % 4 = 0) (hr : (s.elem k).core.pc.toNat + 4 ≤ 0xC000)
    (hp : (s.elem k).pend = none) : s.entryFault k = s := by
  unfold State.entryFault
  dsimp only
  rw [if_neg (by simpa using ha), if_neg (by simp only [emEnd]; omega), hp]

theorem dispatch_one {die pos : Nat} (hk : k = elemKey die pos) (hcfg : (s.elem k).configured = true) (hcut : (s.elem k).cut = .open)
    (hcopy : (s.elem k).copyFault = false) (hidle : (s.elem k).fir.status = .idle) (hpend : (s.elem k).pend = none)
    (h : OneQueued (s.elem k) p en) (ha : armEntry (s.elem k) en.slot en.arm % 4 = 0)
    (hr : armEntry (s.elem k) en.slot en.arm + 4 ≤ 0xC000) :
    ∃ u, exec (.dispatch die pos) s = .next u ∧ SameMemory s u ∧ Dispatched (s.elem k) p en (u.elem k) := by
  have hd := dispatchElem_dispatched h s
  set e' := dispatchElem (s.withWaits (s.elem k) en.slot) s.free en.slot p
  have helem : ((s.setElem k e').bumpFree).elem k = e' := State.elem_setElem_same s k e'
  refine ⟨(s.setElem k e').bumpFree, ?_, s.setElem_sameMemory k e' hd.mem, by rw [helem]; exact hd⟩
  change execDispatch die pos s = _
  unfold execDispatch
  dsimp only
  rw [← hk, if_pos (by simp [hcfg, hcut, hcopy, hidle]), h.selectFiring s]
  dsimp only
  rw [State.entryFault_none (by rw [helem, hd.pc]; exact ha) (by rw [helem, hd.pc]; exact hr) (by rw [helem, hd.pend, hpend])]

/-! ## Commit (02 R50) -/

theorem State.emit_rest (s : State) (src : Source) (load : Nat) (t : Token) :
    ∃ b ps, s.emit src load t = { s with binds := b, packets := ps } := by
  unfold State.emit
  split
  · exact ⟨_, _, rfl⟩
  · split <;> exact ⟨_, _, rfl⟩

/-- The tokens of a commit change bindings and packets. -/
theorem State.release_rest (l : List Send) (s : State) (k : Nat) : ∃ b ps, s.release k l = { s with binds := b, packets := ps } := by
  induction l generalizing s with
  | nil => exact ⟨_, _, rfl⟩
  | cons x l ih =>
    obtain ⟨b, ps, hx⟩ := s.emit_rest (elemSource k x.port) (s.elem k).load x.tok
    obtain ⟨b', ps', hl⟩ := ih (s.emit (elemSource k x.port) (s.elem k).load x.tok)
    rw [State.release, hl, hx]
    exact ⟨b', ps', rfl⟩

theorem State.commitContexts_sluiceOnly (s : State) (k : Nat) : SluiceOnly s (s.commitContexts k) :=
  (foldl_sluiceOnly State.commitHold (fun s _ => s.setPool_sluiceOnly _ _) _ s).trans
    (foldl_sluiceOnly State.commitFree (fun s h => (s.setPool_sluiceOnly _ _).trans (State.notify_sluiceOnly _ h.1 h.2)) _ _)

theorem freeFiringPlace_mem (e : Element) : (freeFiringPlace e).mem = e.mem := by
  unfold freeFiringPlace
  split <;> rfl

/-- The element once its firing has committed n tokens. -/
def committedElem (e : Element) (n : Nat) : Element :=
  { bumpPerf (bumpPerf (freeFiringPlace e) 0 1) 6 n with
    fir := Firing.idle, core := { (freeFiringPlace e).core with loops := [], rpt := none } }

theorem committedElem_mem (e : Element) (n : Nat) : (committedElem e n).mem = e.mem := by
  rw [← freeFiringPlace_mem e]
  rfl

theorem State.commit_eq (s : State) (k : Nat) : ∃ v, SameMemory s v ∧
    s.commit k = (v.setElem k (committedElem (v.elem k) (s.commitSends k).length)).checkMatch k := by
  obtain ⟨b, ps, hrel⟩ := State.release_rest (s.commitSends k) s k
  refine ⟨(s.release k (s.commitSends k)).commitContexts k, sameMemory_trans ?_ (State.commitContexts_sluiceOnly _ k).sameMemory, rfl⟩
  rw [hrel]
  exact sameMemory_refl s

theorem State.commit_idle (s : State) (k : Nat) : ((s.commit k).elem k).fir = Firing.idle ∧ SameMemory s (s.commit k) := by
  obtain ⟨v, hv, hcommit⟩ := s.commit_eq k
  have hc := (v.setElem k (committedElem (v.elem k) (s.commitSends k).length)).checkMatch_checked k
  rw [hcommit]
  refine ⟨?_, sameMemory_trans hv (sameMemory_trans (v.setElem_sameMemory k _ (committedElem_mem _ _)) hc.sameMemory)⟩
  rw [hc.own, State.elem_setElem_same]
  rfl

theorem firingCommit_waits {die pos : Nat} (hk : k = elemKey die pos) (hw : (s.elem k).fir.status = .waitDone) :
    exec (.firingCommit die pos) s = if s.commitAccepted k (s.commitSends k) then .next (s.commit k) else .next s := by
  change execFiringCommit die pos s = _
  unfold execFiringCommit
  simp [← hk, hw]

theorem streamReadResume_stalled {die pos : Nat} (hk : k = elemKey die pos) (hst : (s.elem k).fir.status = .stalled) :
    exec (.streamReadResume die pos) s = .next (s.setElem k { s.elem k with fir := { (s.elem k).fir with status := .running } }) := by
  change execStreamReadResume die pos s = _
  unfold execStreamReadResume
  dsimp only
  rw [← hk, if_pos hst]

end

/-- Settles O35: each event by its law above. -/
theorem firingEvents : Obligations.FiringEvents := by
  unfold Obligations.FiringEvents
  refine ⟨fun s d p hf => ⟨fun hrun hcount hlim => stepLimit_aborts hf hrun hcount hlim, fun en hrun hclean hplace hen hlim => ?_⟩,
    fun s die pos => ⟨?_, ?_, ?_, ?_, ?_⟩⟩
  · have hk : OnElem s (elemKey d p) := ⟨d, p, hf, rfl⟩
    have hat := atDeferralLimit_entry hplace hen hlim
    exact ⟨fun pk v hask => deferralLimit_context hk hrun hclean hat hask,
      fun r hfetch hwin href => deferralLimit_window hk hrun hclean hat hfetch hwin href⟩
  · intro p rest en hr hroom hen
    exact runQueueJoin_oldest rfl hr hroom hen
  · intro a hcfg hcut hact hv hreq hend hno
    exact endFiringReady_ended rfl a hcfg hcut hact hv hreq hend hno
  · intro p en hcfg hcut hcopy hidle hpend hq hp hen hslot ho ha hr
    obtain ⟨u, hu, hmem, hd⟩ := dispatch_one rfl hcfg hcut hcopy hidle hpend ⟨hq, hp, hen, hslot, ho⟩ ha hr
    have hopd := opdField_lt en
    obtain ⟨harm, hurg, hisEnd, hretry⟩ := xcValue_flags en.defcnt en.slot (opdField en) en.retry false
      (slotUrgent (s.elem (elemKey die pos)) en.slot) en.arm hslot hopd
    refine ⟨u, hu, hmem, hd.runq, hd.entry, hd.pc, hd.x, hd.xt, ?_, ?_, ?_, ?_, ?_, ?_, fun n => ?_, hd.core.1, hd.core.2.1, hd.core.2.2,
      hd.fir⟩
    · rw [hd.xc, xcValue_slot _ _ _ _ _ _ _ hslot hopd]
    · rw [hd.xc, harm]
    · rw [hd.xc, hurg]
    · rw [hd.xc, hisEnd]
    · rw [hd.xc, hretry]
    · rw [hd.xc, xcValue_defcnt _ _ _ _ _ _ _ hslot hopd]
    · rw [hd.xc, xcValue_opd _ _ _ _ _ _ _ hslot hopd (by omega), Bool.eq_iff_iff, decide_eq_true_eq, opdField_present]
  · intro hw
    have hcommit := firingCommit_waits rfl hw
    exact ⟨fun ha => ⟨by rw [hcommit, if_pos ha], s.commit_idle _⟩, fun ha => by rw [hcommit, ha]; rfl⟩
  · intro hst
    exact streamReadResume_stalled rfl hst

end Sys2Proof.Machine
end

section
/-! The engines of an element: generators and drains (08 R244 to R246), and the commands of the matrix unit (03 R87 to R93; 09
R283 to R288). -/

namespace Sys2Proof.Machine

open Host (Outcome)
open Sys2Proof.Statements

/-! ## Parts of an element that the engines write -/

section
variable (e : Element)

@[simp] theorem setGen_gens_same (g : Fin 3) (x : Gen) : (setGen e g x).gens[g] = x := by simp [setGen]

theorem tileOf_setTile_same {n : Nat} (t : TileState) (hn : n < 16) : tileOf (setTile e n t) n = t :=
  nth_setIfInBounds_same _ _ _ _ hn

/-- A number of four bits names one of the sixteen tile slots. -/
theorem tileOf_bitVec (n : BitVec 4) : tileOf e n.toNat = e.tiles[n.toNat]'n.isLt := by
  have hn : n.toNat < 16 := n.isLt
  simp [tileOf, nth, hn]

theorem setTile_tiles (n : Nat) (t : TileState) (i : Fin 16) :
    (setTile e n t).tiles[i] = if n = i.val then t else e.tiles[i] := by
  simp [setTile, Vector.getElem_setIfInBounds]

theorem setTile_bitVec (n : BitVec 4) (t : TileState) : setTile e n.toNat t = { e with tiles := e.tiles.set n.toNat t n.isLt } := by
  have hset : e.tiles.setIfInBounds n.toNat t = e.tiles.set n.toNat t n.isLt := by
    ext i hi
    rw [Vector.getElem_setIfInBounds hi, Vector.getElem_set]
  rw [setTile, hset]

variable {e}

/-- A queue that holds a token belongs to one of the eight ports. -/
theorem portQueue_held_lt {i : Nat} (h : portQueue e i ≠ []) : i < 8 := by
  by_contra hi
  exact h (by simp [portQueue, nth, hi])

variable (e) in
theorem emWrite_read_same (a n : Nat) {v : Nat} (hv : v < 256 ^ n) (h : Memory.wf e.mem = true) :
    Memory.read (emWrite e a v n).mem a n = v :=
  (Memory.read_write_same n e.mem a v h).trans (Nat.mod_eq_of_lt hv)

variable (e) in
theorem emWrite_get_other {a n b : Nat} (v : Nat) (hb : b < a ∨ a + n ≤ b) :
    Memory.get (emWrite e a v n).mem b = Memory.get e.mem b :=
  Memory.get_write_other n e.mem a v b hb

end

/-! ## Generators (08 R244, R245) -/

section
variable {die pos k : Nat} {s : State} {g : Fin 3} {h : Token}

theorem generatorRead_reads (hk : k = elemKey die pos) {x : Gen} (hx : (s.elem k).gens[g] = x) (hst : x.st = .read)
    (hlen : x.popped + x.held.length < runLength x) (hheld : x.held.length < 8) :
    exec (.generatorRead die pos g) s = .next (s.setElem k (setGen (s.elem k) g { x with
      held := x.held ++ [BitVec.ofNat 32 (s.emRead k (s.elem k).fir.slot (runAddr x (x.popped + x.held.length)).toNat 4)] })) := by
  have hroom : x.held.length < if x.ahead || (s.elem k).fir.swait = some g then 32 else 8 := by split <;> omega
  change execGeneratorRead die pos g s = _
  unfold execGeneratorRead
  dsimp only
  rw [← hk, hx, if_pos ⟨hst, hlen, hroom⟩]

/-- The oldest waiting push of a run with elements still to come is stored, and the run goes on. -/
theorem generatorWrite_stores (hk : k = elemKey die pos) {x : Gen} (hx : (s.elem k).gens[g] = x) {v : Word} {rest : List Word}
    (hst : x.st = .write) (hw : x.waiting = v :: rest) (hle : x.waiting.length ≤ x.pushed) (hlt : x.pushed < runLength x) :
    exec (.generatorWrite die pos g) s = .next (s.setElem k (setGen
      (emWrite (s.elem k) (runAddr x (x.pushed - x.waiting.length)).toNat v.toNat 4) g { x with waiting := rest })) := by
  have hpos : 0 < x.waiting.length := by simp [hw]
  have hmore : x.pushed - x.waiting.length + 1 ≠ runLength x := by omega
  change execGeneratorWrite die pos g s = _
  unfold execGeneratorWrite
  dsimp only
  rw [← hk, hx]
  split
  · rename_i v' rest' _ hw'
    obtain ⟨rfl, rfl⟩ := List.cons.inj (hw.symm.trans hw')
    rw [if_neg hmore]
  · rename_i hno
    exact absurd hw (hno v rest hst)

/-! ## Drains (08 R246) -/

/-- A data flit moves from the port into the slot that fills. -/
theorem drainToken_flit (hk : k = elemKey die pos) {x : Gen} (hx : (s.elem k).gens[g] = x) (hst : x.st = .drain)
    (hq : portQueue (s.elem k) (drainPort x) = [h]) (hd : h.kind = .data) (hf : x.f < 66)
    (hfull : tileOf (s.elem k) (drainSlot x) ≠ .full) :
    exec (.drainToken die pos g) s = .next (s.setElem k (setPortQueue (setTile (setGen
      (emWrite (s.elem k) (tileAddr (drainSlot x) + 8 * x.f) h.payload.toNat 8) g { x with f := x.f + 1 }) (drainSlot x) .filling)
      (drainPort x) [])) := by
  have hport : drainPort x < 8 := portQueue_held_lt (by rw [hq]; exact List.cons_ne_nil _ _)
  change execDrainToken die pos g s = _
  unfold execDrainToken
  dsimp only
  rw [← hk, hx, if_pos hst, hq]
  dsimp only
  rw [hd]
  dsimp only
  rw [if_neg hfull, if_pos hf, State.takePort_last (x := h) (by rw [State.elem_setElem_same]; exact hq) hport,
    State.elem_setElem_same, State.setElem_setElem]

/-- The stop behind a whole tile makes its slot FULL; with more tiles left the drain goes on at the next slot. -/
theorem drainToken_stop (hk : k = elemKey die pos) {x : Gen} (hx : (s.elem k).gens[g] = x) (hst : x.st = .drain)
    (hq : portQueue (s.elem k) (drainPort x) = [h]) (hd : h.kind = .stop) (hf : x.f = 64 ∨ x.f = 66) (hleft : 2 ≤ x.left)
    (hgo : x.stopping = false) :
    exec (.drainToken die pos g) s = .next (s.setElem k (setPortQueue (setTile (setGen (s.elem k) g
      { x with f := 0, t := x.t + 1, left := x.left - 1 }) (drainSlot x) .full) (drainPort x) [])) := by
  have hport : drainPort x < 8 := portQueue_held_lt (by rw [hq]; exact List.cons_ne_nil _ _)
  have hmore : ¬(decide (x.left - 1 = 0) || x.stopping) = true := by
    simp only [hgo, Bool.or_false, decide_eq_true_eq]
    omega
  change execDrainToken die pos g s = _
  unfold execDrainToken
  dsimp only
  rw [← hk, hx, if_pos hst, hq]
  dsimp only
  rw [hd]
  dsimp only
  rw [if_pos (by simpa using hf), if_neg hmore,
    State.takePort_last (x := h) (by rw [State.elem_setElem_same]; exact hq) hport, State.elem_setElem_same, State.setElem_setElem]

end

/-! ## Products of tiles (03 R87 to R89) -/

theorem tileValue_eq_tileBits (m : Mem) (mf : MmaFmt) (n i k : Nat) : tileValue m mf n i k = tileBits m mf n i k := by
  cases mf with
  | f32 | bf16 | f16 => rfl
  | e4m3 | e5m2 | int8 => simp [tileValue, tileBits, Memory.read, tileAddr]
  | e2m1 =>
    have hpow : (if k % 2 = 0 then 1 else 16) = 16 ^ (k % 2) := by
      rcases Nat.mod_two_eq_zero_or_one k with hk | hk <;> simp [hk]
    simp [tileValue, tileBits, Memory.read, tileAddr, hpow]

theorem scaleVal_eq_scaleOf (m : Mem) (ext : Nat → Nat) (mf : MmaFmt) (sc isB : Bool) (n i g : Nat) :
    scaleVal (scaleByte m ext mf sc isB n i g) = scaleOf m ext mf sc isB n i g := by
  cases sc <;> simp [scaleVal, scaleByte, scaleOf, extOffset, Memory.read, tileAddr]

theorem mmaShape_eq (mf : MmaFmt) : mmaShape mf = (mmaFormat mf, mmaK mf, mmaG mf) := by cases mf <;> rfl

theorem mmaG_pos (mf : MmaFmt) : 0 < mmaG mf := by cases mf <;> decide

/-- A sum of products begins with its first one. -/
theorem sumProducts_range {n : Nat} (hn : 0 < n) (p : Nat → FVal) :
    sumProducts ((List.range n).map p) = ((List.range n).tail.map p).foldl FVal.add (p 0) := by
  cases n with
  | zero => exact absurd hn (lt_irrefl 0)
  | succ n =>
    rw [List.range_succ_eq_map]
    rfl

theorem intSum_eq (m : Mem) (ta tb i j : Nat) : intSum m ta tb i j = ((List.range 64).map fun k =>
    (Memory.get m (0x9F00 + 528 * ta + 64 * i + k)).toInt * (Memory.get m (0x9F00 + 528 * tb + 64 * j + k)).toInt).sum := by
  simp only [intSum, tileValue_eq_tileBits, tileBits, BitVec.ofNat_toNat, BitVec.setWidth_eq]

theorem mmaWord_float {mf : MmaFmt} (h : mf ≠ .int8) (m : Mem) (ext : Nat → Nat) (sc : Bool) (ta tb : Nat) (w : Word) (i j : Nat) :
    mmaWord m ext mf sc ta tb w i j = (List.range (mmaK mf / mmaG mf)).foldl (fun acc g =>
      BitVec.ofNat 32 (roundN .fp32 ((valOf .fp32 acc.toNat).add (groupSum m ext mf sc ta tb i j g)))) w := by
  unfold mmaWord
  split
  · exact absurd rfl h
  · rfl

theorem mmaWord_eq_mmaResult (m : Mem) (ext : Nat → Nat) (mf : MmaFmt) (sc : Bool) (ta tb : Nat) (w : Word) (i j : Nat) :
    mmaWord m ext mf sc ta tb w i j = mmaResult m ext mf sc ta tb w i j := by
  unfold mmaResult
  rw [mmaShape_eq]
  dsimp only
  by_cases h : mf = .int8
  · subst h
    rw [if_pos rfl, ← intSum_eq, mmaWord, BitVec.ofInt_add, BitVec.ofInt_toInt]
  · rw [if_neg h, mmaWord_float h]
    simp only [groupSum, sumProducts_range (mmaG_pos mf), tileValue_eq_tileBits, scaleVal_eq_scaleOf]

/-! ## Microprograms (03 R91 to R93) -/

/-- A halfword of an image. -/
theorem leAt_two_lt (im : List Byte) (off : Nat) : leAt im off 2 < 65536 := by
  unfold leAt
  generalize im.drop off = l
  match l with
  | [] => decide
  | [a] =>
    have := a.isLt
    simp only [List.take, bytesToNat]
    omega
  | a :: b :: _ =>
    have := a.isLt
    have := b.isLt
    simp only [List.take, bytesToNat]
    omega

theorem microOp_op {o : Nat} (ho : o < 65536) : (microOp o).op = o / 4096 := Nat.mod_eq_of_lt (by omega)

theorem microOk_of_valid {im : List Byte} (h : MicroValid im) : microOk im = true := by
  obtain ⟨h1, h4, hrest, hzero, hops⟩ := h
  have hall : (microOps im).all MicroOp.ok = true := by
    rw [List.all_eq_true]
    intro x hx
    obtain ⟨j, hj, rfl⟩ := List.mem_map.1 hx
    obtain ⟨hop, hres, hd, hx4, hy4, hcopy⟩ := hops j (List.mem_range.1 hj)
    have hopEq := microOp_op (leAt_two_lt im (2 * j))
    simp only [MicroOp.ok, hopEq, Bool.and_eq_true, Bool.or_eq_true, decide_eq_true_eq]
    exact ⟨⟨⟨⟨⟨hop, hd⟩, hx4⟩, hy4⟩, hres⟩, Classical.or_iff_not_imp_left.2 fun h6 => hcopy (not_not.1 h6)⟩
  simp only [microOk, Bool.and_eq_true, decide_eq_true_eq]
  exact ⟨⟨⟨⟨h1, h4⟩, hrest⟩, hzero⟩, hall⟩

theorem microSrc_eq (a b c s t : Word) (n : Nat) :
    microSrc a b c s t n = if n = 0 then a else if n = 1 then b else if n = 2 then s else if n = 3 then t else c := by
  unfold microSrc
  split
  · rfl
  · rfl
  · rfl
  · rfl
  · rename_i h0 h1 h2 h3
    rw [if_neg h0, if_neg h1, if_neg h2, if_neg h3]

/-- A zero compares alike whatever power of two it stands with. -/
theorem FVal.zero_lt_congr (na nb : Bool) (ea eb : Int) (v : FVal) : (FVal.fin na 0 ea).lt v = (FVal.fin nb 0 eb).lt v := by
  cases v with
  | nan => rfl
  | inf => rfl
  | fin n m e =>
    have hneg (i : Nat) : ¬(m : Int) * 2 ^ i < 0 := not_lt.2 (by positivity)
    cases n <;> simp [FVal.lt, hneg]

/-- Whether a word is above zero (03 R86). -/
theorem floatCond_gt_zero (t : Word) : floatCond .gt t 0 = floatCondition .gt (valOf .fp32 t.toNat) (.fin false 0 0) :=
  FVal.zero_lt_congr _ _ _ _ _

theorem microResult_eq (o : MicroOp) (x y c t : Word) : microResult o x y c t =
    if o.op = 0 then BitVec.ofNat 32 (roundN .fp32 ((valOf .fp32 x.toNat).add (valOf .fp32 y.toNat)))
    else if o.op = 1 then BitVec.ofNat 32 (roundN .fp32 ((valOf .fp32 x.toNat).sub (valOf .fp32 y.toNat)))
    else if o.op = 2 then BitVec.ofNat 32 (roundN .fp32 ((valOf .fp32 x.toNat).mul (valOf .fp32 y.toNat)))
    else if o.op = 3 then BitVec.ofNat 32 (fminmax .fp32 false x.toNat y.toNat)
    else if o.op = 4 then BitVec.ofNat 32 (fminmax .fp32 true x.toNat y.toNat)
    else if o.op = 5 then if floatCond .gt t 0 then x else y
    else c := by
  unfold microResult
  split
  case h_7 h0 h1 h2 h3 h4 h5 => rw [if_neg h0, if_neg h1, if_neg h2, if_neg h3, if_neg h4, if_neg h5]
  all_goals
    rename_i hop
    rw [hop]
    rfl

theorem microStep_eq (im : List Byte) (a b : Word) (p : Word × Word) : microStep (microOps im) a b (microConst im) p =
    (List.range (leAt im 12 1 % 8)).foldl (fun p n => microApply (leAt im (2 * n) 2) a b (BitVec.ofNat 32 (leAt im 8 4)) p) p := by
  unfold microStep microOps
  rw [List.foldl_map]
  refine congrArg (fun f => (List.range (microCount im)).foldl f p) (funext₂ fun p n => ?_)
  simp only [microResult_eq, microSrc_eq, microOp_op (leAt_two_lt im (2 * n)), floatCond_gt_zero]
  rfl

theorem msrWord_eq_msrResult (m : Mem) (im : List Byte) (ta tb : Nat) (w : Word) (i j : Nat) :
    msrWord m im ta tb w i j = msrResult m im ta tb w i j := by
  simp only [msrWord, msrResult, microStep_eq, tileValue_eq_tileBits]

/-! ## What a command leaves in its element -/

section
variable (e : Element)

theorem setAcc_acc (acc : BitVec 2) (f : Nat → Word) (n : Fin 256) :
    (setAcc e acc f).acc[n] = if n.val / 64 = acc.toNat then f (n.val % 64) else e.acc[n] := by
  simp [setAcc]

theorem setAcc_mem (acc : BitVec 2) (f : Nat → Word) : (setAcc e acc f).mem = e.mem := by rw [setAcc]

theorem setAcc_mprog (acc : BitVec 2) (f : Nat → Word) : (setAcc e acc f).mprog = e.mprog := by rw [setAcc]

theorem setAcc_tiles (acc : BitVec 2) (f : Nat → Word) : (setAcc e acc f).tiles = e.tiles := by rw [setAcc]

/-- Emptying tile slots changes their states only. -/
theorem foldl_setTile_eq (l : List Nat) (t : TileState) : ∃ v, l.foldl (fun e n => setTile e n t) e = { e with tiles := v } := by
  induction l generalizing e with
  | nil => exact ⟨e.tiles, rfl⟩
  | cons n l ih => exact ih (setTile e n t)

theorem foldl_setTile_tiles (l : List Nat) (t : TileState) (i : Fin 16) :
    (l.foldl (fun e n => setTile e n t) e).tiles[i] = if i.val ∈ l then t else e.tiles[i] := by
  induction l generalizing e with
  | nil => simp
  | cons n l ih =>
    rw [List.foldl_cons, ih, setTile_tiles]
    by_cases hl : i.val ∈ l
    · simp [hl]
    · simp [hl, eq_comm]

theorem clearTiles_eq (c : Bool) (l : List Nat) : clearTiles e c l = (if c then l else []).foldl (fun e n => setTile e n .empty) e := by
  cases c <;> rfl

/-- The words w are written at an address, one after the other. -/
def storeWords (e : Element) (w : Nat → Word) (a n : Nat) : Element :=
  (List.range n).foldl (fun e' i => emWrite e' (a + 4 * i) (w i).toNat 4) e

theorem writeAcc_eq_storeWords (acc : BitVec 2) (a : Nat) : writeAcc e acc a = storeWords e (accWord e acc) a 64 := rfl

variable (w : Nat → Word) (a n : Nat)

theorem storeWords_succ : storeWords e w a (n + 1) = emWrite (storeWords e w a n) (a + 4 * n) (w n).toNat 4 := by
  simp [storeWords, List.range_succ]

theorem storeWords_wf (h : Memory.wf e.mem = true) : Memory.wf (storeWords e w a n).mem = true := by
  induction n with
  | zero => exact h
  | succ n ih =>
    rw [storeWords_succ]
    exact Memory.wf_write 4 _ _ _ ih

theorem storeWords_get_other {b : Nat} (hb : b < a ∨ a + 4 * n ≤ b) :
    Memory.get (storeWords e w a n).mem b = Memory.get e.mem b := by
  induction n with
  | zero => rfl
  | succ n ih => rw [storeWords_succ, emWrite_get_other _ _ (by omega), ih (by omega)]

theorem storeWords_read (h : Memory.wf e.mem = true) {i : Nat} (hi : i < n) :
    Memory.read (storeWords e w a n).mem (a + 4 * i) 4 = (w i).toNat := by
  induction n with
  | zero => exact absurd hi (Nat.not_lt_zero i)
  | succ n ih =>
    rw [storeWords_succ]
    rcases Nat.lt_succ_iff_lt_or_eq.1 hi with hlt | rfl
    · exact (Memory.read_write_other 4 _ _ _ _ _ (by omega)).trans (ih hlt)
    · exact emWrite_read_same _ _ _ (w i).isLt (storeWords_wf e w a i h)

end

/-! ## The command at the head of the queue (09 R279 to R288) -/

section
variable {die pos k : Nat} {s : State} {c : MCmd} {rest : List MCmd}

theorem matrixCommandExecute_runs (hk : k = elemKey die pos) (hq : (s.elem k).mq = c :: rest)
    (hc : headCheck (s.elem k) (s.extBytes k c) c = .run) :
    exec (.matrixCommandExecute die pos) s =
      .next (s.setElem k { runCommand (s.elem k) (s.extBytes k c) c with mq := rest }) := by
  change execMatrixCommandExecute die pos s = _
  unfold execMatrixCommandExecute
  dsimp only
  rw [← hk, hq]
  dsimp only
  rw [hc]

/-- A command that replaces an accumulator and empties the tile slots of a list. -/
theorem accumulatorSet_setElem {acc : BitVec 2} {f : Nat → Word} {l : List Nat} {e : Element}
    (he : e = l.foldl (fun e n => setTile e n .empty) (setAcc (s.elem k) acc f)) :
    AccumulatorSet s (s.setElem k { e with mq := rest }) k rest acc f l := by
  have hmem := setAcc_mem (s.elem k) acc f
  have hmprog := setAcc_mprog (s.elem k) acc f
  have htiles := setAcc_tiles (s.elem k) acc f
  have hacc := setAcc_acc (s.elem k) acc f
  generalize setAcc (s.elem k) acc f = a at he hmem hmprog htiles hacc
  obtain ⟨v, hv⟩ := foldl_setTile_eq a l .empty
  have hempty := foldl_setTile_tiles a l .empty
  rw [hv] at he hempty
  rw [htiles] at hempty
  subst he
  refine ⟨?_, ?_, s.setElem_sameMemory k _ hmem, fun n => ?_, fun n => ?_⟩ <;> rw [State.elem_setElem_same]
  · exact hmprog
  · exact hacc n
  · exact hempty n

theorem tilesCheck_full {ta tb : BitVec 4} {e : Element} (ha : e.tiles[ta.toNat]'ta.isLt = .full)
    (hb : e.tiles[tb.toNat]'tb.isLt = .full) : tilesCheck e [ta.toNat, tb.toNat] = .run := by
  simp [tilesCheck, slotCheck, tileOf_bitVec, ha, hb]

theorem mzero_runs (hk : k = elemKey die pos) {acc : BitVec 2} (hq : (s.elem k).mq = .mzero acc :: rest) :
    ∃ u, exec (.matrixCommandExecute die pos) s = .next u ∧ AccumulatorSet s u k rest acc (fun _ => 0) [] :=
  ⟨_, matrixCommandExecute_runs hk hq rfl, accumulatorSet_setElem rfl⟩

theorem mma_runs (hk : k = elemKey die pos) {mf : MmaFmt} {sc c : Bool} {acc : BitVec 2} {ta tb : BitVec 4} {a : Nat}
    (hq : (s.elem k).mq = .mma mf sc c acc ta tb a :: rest) (ha : (s.elem k).tiles[ta.toNat]'ta.isLt = .full)
    (hb : (s.elem k).tiles[tb.toNat]'tb.isLt = .full) :
    ∃ u, exec (.matrixCommandExecute die pos) s = .next u ∧ AccumulatorSet s u k rest acc
      (fun n => mmaResult (s.elem k).mem (fun x => (s.emByte k (s.elem k).fir.slot (a + x)).toNat) mf sc ta.toNat tb.toNat
        (accWord (s.elem k) acc n) (n / 8) (n % 8)) (if c then [ta.toNat, tb.toNat] else []) := by
  refine ⟨_, matrixCommandExecute_runs hk hq (tilesCheck_full ha hb), accumulatorSet_setElem ?_⟩
  simp only [runCommand, clearTiles_eq, mmaWord_eq_mmaResult]
  rfl

theorem msr_runs (hk : k = elemKey die pos) {c : Bool} {acc : BitVec 2} {ta tb : BitVec 4} {im : List Byte}
    (hq : (s.elem k).mq = .msr c acc ta tb :: rest) (him : (s.elem k).mprog = some im)
    (ha : (s.elem k).tiles[ta.toNat]'ta.isLt = .full) (hb : (s.elem k).tiles[tb.toNat]'tb.isLt = .full) :
    ∃ u, exec (.matrixCommandExecute die pos) s = .next u ∧ AccumulatorSet s u k rest acc
      (fun n => msrResult (s.elem k).mem im ta.toNat tb.toNat (accWord (s.elem k) acc n) (n / 8) (n % 8))
      (if c then [ta.toNat, tb.toNat] else []) := by
  refine ⟨_, matrixCommandExecute_runs hk hq ?_, accumulatorSet_setElem ?_⟩
  · simp only [headCheck, him, Option.isNone_some, Bool.false_eq_true, if_false]
    exact tilesCheck_full ha hb
  · simp only [runCommand, clearTiles_eq, msrWord_eq_msrResult, him, Option.getD_some]
    rfl

theorem sum_map_range_four (f : Nat → Nat) : ((List.range 4).map f).sum = f 0 + f 1 + f 2 + f 3 := by
  simp [List.range_succ, Nat.add_assoc]

/-- The four bytes of a word, lowest first. -/
theorem extBytes_mloada (s : State) (k : Nat) (acc : BitVec 2) (a n : Nat) :
    let ext := s.extBytes k (.mloada acc a)
    ext (4 * n) + ext (4 * n + 1) * 2 ^ 8 + ext (4 * n + 2) * 2 ^ 16 + ext (4 * n + 3) * 2 ^ 24 =
      ((List.range 4).map fun x => (s.emByte k (s.elem k).fir.slot (a + 4 * n + x)).toNat * 256 ^ x).sum := by
  have hpow (i : Nat) : 256 ^ i = 2 ^ (8 * i) := (Nat.pow_mul 2 8 i).symm
  rw [sum_map_range_four]
  simp only [hpow, State.extBytes, Nat.add_assoc, Nat.add_zero, Nat.mul_zero, Nat.mul_one, pow_zero]

theorem mloada_runs (hk : k = elemKey die pos) {acc : BitVec 2} {a : Nat} (hq : (s.elem k).mq = .mloada acc a :: rest) :
    ∃ u, exec (.matrixCommandExecute die pos) s = .next u ∧ AccumulatorSet s u k rest acc
      (fun n => BitVec.ofNat 32 (((List.range 4).map fun x =>
        (s.emByte k (s.elem k).fir.slot (a + 4 * n + x)).toNat * 256 ^ x).sum)) [] := by
  refine ⟨_, matrixCommandExecute_runs hk hq rfl, accumulatorSet_setElem ?_⟩
  simp only [runCommand, List.foldl_nil, extBytes_mloada]

/-- The image that MLDM reads, byte by byte. -/
theorem microImage_extBytes (s : State) (k a : Nat) :
    microImage (s.extBytes k (.mldm a)) = (List.range 16).map fun n => s.emByte k (s.elem k).fir.slot (a + n) := by
  simp [microImage, State.extBytes]

theorem mldm_runs (hk : k = elemKey die pos) {a : Nat} (hq : (s.elem k).mq = .mldm a :: rest) {im : List Byte}
    (him : (List.range 16).map (fun n => s.emByte k (s.elem k).fir.slot (a + n)) = im) (hv : MicroValid im) :
    exec (.matrixCommandExecute die pos) s = .next (s.setElem k { s.elem k with mq := rest, mprog := some im }) := by
  have himage : microImage (s.extBytes k (.mldm a)) = im := (microImage_extBytes s k a).trans him
  rw [matrixCommandExecute_runs hk hq (by rw [headCheck, himage, if_pos (microOk_of_valid hv)]), runCommand, himage]

theorem mfill_runs (hk : k = elemKey die pos) {n : BitVec 4} (hn : (s.elem k).tiles[n.toNat]'n.isLt ≠ .filling)
    (hq : (s.elem k).mq = .mfill n :: rest) : exec (.matrixCommandExecute die pos) s =
      .next (s.setElem k { s.elem k with mq := rest, tiles := (s.elem k).tiles.set n.toNat .full n.isLt }) := by
  rw [matrixCommandExecute_runs hk hq (if_neg (by rwa [tileOf_bitVec])), runCommand, setTile_bitVec]

theorem mempty_runs (hk : k = elemKey die pos) {n : BitVec 4} (hn : (s.elem k).tiles[n.toNat]'n.isLt ≠ .filling)
    (hq : (s.elem k).mq = .mempty n :: rest) : exec (.matrixCommandExecute die pos) s =
      .next (s.setElem k { s.elem k with mq := rest, tiles := (s.elem k).tiles.set n.toNat .empty n.isLt }) := by
  rw [matrixCommandExecute_runs hk hq (if_neg (by rwa [tileOf_bitVec])), runCommand, setTile_bitVec]

theorem mstore_runs (hk : k = elemKey die pos) {acc : BitVec 2} {a : Nat} (hq : (s.elem k).mq = .mstore acc a :: rest) :
    ∃ u, exec (.matrixCommandExecute die pos) s = .next u ∧ (u.elem k).mq = rest ∧
      (u.elem k).mem = (storeWords (s.elem k) (accWord (s.elem k) acc) a 64).mem := by
  refine ⟨_, matrixCommandExecute_runs hk hq rfl, ?_⟩
  rw [State.elem_setElem_same, runCommand, writeAcc_eq_storeWords]
  generalize storeWords (s.elem k) (accWord (s.elem k) acc) a 64 = e
  exact ⟨rfl, rfl⟩

end

/-- Settles O37: each engine's step and each command by its law above. -/
theorem engineEvents : Obligations.EngineEvents := by
  intro s die pos g k e x
  refine ⟨fun hst hlen hheld => generatorRead_reads rfl rfl hst hlen hheld, ?_, ?_, fun rest acc hq => mzero_runs rfl hq,
    fun rest mf sc c acc ta tb a hq ha hb => mma_runs rfl hq ha hb,
    fun rest c acc ta tb im hq him ha hb => msr_runs rfl hq him ha hb,
    fun rest acc a hq => mloada_runs rfl hq, fun rest a hq hv => mldm_runs rfl hq rfl hv,
    fun rest n hn => ⟨mfill_runs rfl hn, mempty_runs rfl hn⟩, ?_⟩
  · intro v rest hst hw hle hlt hwf a
    refine ⟨_, generatorWrite_stores rfl rfl hst hw hle hlt, ?_⟩
    rw [State.elem_setElem_same, setGen_gens_same]
    exact ⟨rfl, hst, emWrite_read_same e a 4 v.isLt hwf, fun b hb => emWrite_get_other e v.toNat hb⟩
  · intro h hst hq n
    have hport : drainPort x < 8 := portQueue_held_lt (by rw [drainPort, hq]; exact List.cons_ne_nil _ _)
    have hslot : drainSlot x < 16 := Nat.mod_lt _ (by decide)
    refine ⟨fun hd hf hfull hwf => ⟨_, drainToken_flit rfl rfl hst hq hd hf hfull, ?_⟩,
      fun hd hf hleft hgo => ⟨_, drainToken_stop rfl rfl hst hq hd hf hleft hgo, ?_⟩⟩ <;> rw [State.elem_setElem_same]
    · exact ⟨congrArg Gen.f (setGen_gens_same _ g _), tileOf_setTile_same _ .filling hslot, portQueue_setPortQueue _ _ hport,
        emWrite_read_same e _ 8 h.payload.isLt hwf⟩
    · have hgen := setGen_gens_same e g { x with f := 0, t := x.t + 1, left := x.left - 1 }
      exact ⟨congrArg Gen.f hgen, congrArg Gen.t hgen, congrArg Gen.left hgen, tileOf_setTile_same _ .full hslot,
        portQueue_setPortQueue _ _ hport⟩
  · intro rest acc a hq hwf
    obtain ⟨u, hu, hmq, hmem⟩ := mstore_runs (die := die) (pos := pos) rfl hq
    refine ⟨u, hu, hmq, fun n hn => ?_, fun b hb => ?_⟩ <;> rw [hmem]
    · exact storeWords_read e _ a 64 hwf hn
    · exact storeWords_get_other e _ a 64 hb

end Sys2Proof.Machine
end

section
/-! What decodes is a word of chapter 6, never an event. -/

namespace Sys2Proof

/-- Whatever an optional instruction holds has an encoding. -/
def Words (o : Option Instr) : Prop := ∀ i, o = some i → i.isIsa = true

@[simp] theorem words_none : Words none := fun _ h => nomatch h

@[simp] theorem words_some (i : Instr) : Words (some i) ↔ i.isIsa = true :=
  ⟨fun h => h i rfl, fun h _ e => Option.some.inj e ▸ h⟩

@[simp] theorem words_ite (c : Prop) [Decidable c] (o p : Option Instr) :
    Words (if c then o else p) ↔ (c → Words o) ∧ (¬c → Words p) := by
  split <;> simp [*]

@[simp] theorem words_map {α : Type} (f : α → Instr) (o : Option α) :
    Words (o.map f) ↔ ∀ x, o = some x → (f x).isIsa = true := by
  cases o <;> simp

theorem alu1w_isIsa {op : Nat} {k : SQ → Src → Bool → Instr} (h : alu1w op = some k) (d : SQ) (a : Src) (ww : Bool) :
    (k d a ww).isIsa = true := by
  unfold alu1w at h
  split at h <;> cases h <;> rfl

theorem alu1_isIsa {op : Nat} {k : SQ → Src → Instr} (h : alu1 op = some k) (d : SQ) (a : Src) :
    (k d a).isIsa = true := by
  unfold alu1 at h
  split at h <;> cases h <;> rfl

theorem alu2w_isIsa {op : Nat} {k : SQ → Src → Src → Bool → Instr} (h : alu2w op = some k) (d : SQ) (a b : Src) (ww : Bool) :
    (k d a b ww).isIsa = true := by
  unfold alu2w at h
  split at h <;> cases h <;> rfl

theorem alu2_isIsa {op : Nat} {k : SQ → Src → Src → Instr} (h : alu2 op = some k) (d : SQ) (a b : Src) :
    (k d a b).isIsa = true := by
  unfold alu2 at h
  split at h <;> cases h <;> rfl

theorem float1_isIsa {fn : Nat} {k : Fmt → SQ → SQ → Instr} (h : float1 fn = some k) (fmt : Fmt) (d a : SQ) :
    (k fmt d a).isIsa = true := by
  unfold float1 at h
  split at h <;> cases h <;> rfl

theorem float2_isIsa {fn : Nat} {k : Fmt → SQ → SQ → SQ → Instr} (h : float2 fn = some k) (fmt : Fmt) (d a b : SQ) :
    (k fmt d a b).isIsa = true := by
  unfold float2 at h
  split at h <;> cases h <;> rfl

theorem decInt_words (w : Word) : Words (decInt w) := by
  unfold decInt
  dsimp only
  split
  · exact words_none
  · split
    · split
      · split
        · exact words_none
        · exact (words_some _).2 rfl
      · exact words_none
    · split
      · split
        · rename_i hk
          simp [alu1w_isIsa hk]
        · rename_i hk
          simp [alu1_isIsa hk]
        · split
          · split
            · rename_i hk
              simp [alu2w_isIsa hk]
            · rename_i hk
              simp [alu2_isIsa hk]
            · exact words_none
          · exact words_none
      · exact words_none

theorem decShift_words (w : Word) : Words (decShift w) := by
  unfold decShift
  dsimp only
  repeat' split
  all_goals simp
  all_goals rfl

theorem decCmpi_words (w : Word) : Words (decCmpi w) := by
  unfold decCmpi
  split
  · exact (words_map _ _).2 fun _ _ => rfl
  · exact words_none

theorem decIndexed_words (w : Word) : Words (decIndexed w) := by
  unfold decIndexed
  repeat' split
  all_goals simp
  all_goals (intros; rfl)

theorem decJump_words (w : Word) : Words (decJump w) := by
  unfold decJump
  dsimp only
  repeat' split
  all_goals simp
  all_goals rfl

theorem decLoop_words (w : Word) : Words (decLoop w) := by
  unfold decLoop
  repeat' split
  all_goals simp
  all_goals rfl

theorem decFloat_words (w : Word) : Words (decFloat w) := by
  unfold decFloat
  dsimp only
  split
  · split
    · split
      · exact (words_some _).2 rfl
      · exact words_none
    · split
      · rename_i hk
        simp [float1_isIsa hk]
      · split
        · rename_i hk _ _ _
          split
          · simp [float2_isIsa hk]
          · exact words_none
        · exact words_none
      · exact words_none
  · exact words_none

theorem decFma_words (w : Word) : Words (decFma w) := by
  unfold decFma
  repeat' split
  all_goals simp
  all_goals rfl

theorem decConvert_words (w : Word) : Words (decConvert w) := by
  unfold decConvert
  dsimp only
  repeat' split
  all_goals simp
  all_goals rfl

theorem decFcmp_words (w : Word) : Words (decFcmp w) := by
  unfold decFcmp
  repeat' split
  all_goals simp
  all_goals rfl

theorem decSbind_words (w : Word) : Words (decSbind w) := by
  unfold decSbind
  repeat' split
  all_goals simp
  all_goals (intros; rfl)

theorem decStream_words (w : Word) : Words (decStream w) := by
  unfold decStream
  dsimp only
  repeat' split
  all_goals simp [decSbind_words]
  all_goals (intros; rfl)

theorem decToken_words (w : Word) : Words (decToken w) := by
  unfold decToken
  dsimp only
  repeat' split
  all_goals simp
  all_goals (intros; rfl)

theorem decTag_words (w : Word) : Words (decTag w) := by
  unfold decTag
  dsimp only
  repeat' split
  all_goals simp
  all_goals (intros; rfl)

theorem decEnd_words (w : Word) : Words (decEnd w) := by
  unfold decEnd
  repeat' split
  all_goals simp
  all_goals rfl

theorem decMatrix_words (w : Word) : Words (decMatrix w) := by
  unfold decMatrix
  dsimp only
  repeat' split
  all_goals simp
  all_goals rfl

theorem decSemiring_words (w : Word) : Words (decSemiring w) := by
  unfold decSemiring
  dsimp only
  repeat' split
  all_goals simp
  all_goals rfl

theorem decPred_words (w : Word) : Words (decPred w) := by
  unfold decPred
  dsimp only
  repeat' split
  all_goals simp
  all_goals rfl

theorem decSel_words (w : Word) : Words (decSel w) := by
  unfold decSel
  repeat' split
  all_goals simp
  all_goals rfl

theorem decSystem_words (w : Word) : Words (decSystem w) := by
  unfold decSystem
  dsimp only
  repeat' split
  all_goals simp
  all_goals (intros; rfl)

theorem decController_words (w : Word) : Words (decController w) := by
  unfold decController
  dsimp only
  repeat' split
  all_goals simp
  all_goals (intros; rfl)

theorem decWord_words (w : Word) : Words (decWord w) := by
  unfold decWord
  dsimp only
  split
  case h_1 => exact decInt_words w
  case h_6 => exact decShift_words w
  case h_8 => exact decCmpi_words w
  case h_9 | h_10 => exact (words_map _ _).2 fun _ _ => rfl
  case h_11 => exact decIndexed_words w
  case h_15 => exact decJump_words w
  case h_16 => exact decLoop_words w
  case h_17 => exact decFloat_words w
  case h_18 => exact decFma_words w
  case h_19 => exact decConvert_words w
  case h_20 => exact decFcmp_words w
  case h_21 => exact decStream_words w
  case h_22 => exact decToken_words w
  case h_23 => exact decTag_words w
  case h_24 => exact decEnd_words w
  case h_25 => exact decMatrix_words w
  case h_26 => exact decSemiring_words w
  case h_27 => exact decPred_words w
  case h_28 => exact decSel_words w
  case h_29 => exact decSystem_words w
  case h_30 => exact decController_words w
  all_goals repeat' split
  all_goals simp
  all_goals rfl

/-- Only words decode: an event has none. -/
theorem decodeWords_isIsa {w : Word} {v : Option Word} {i : Instr} (h : decodeWords w v = .ok i) : i.isIsa = true := by
  unfold decodeWords at h
  split at h
  · cases h
  · split at h
    · split at h
      · cases h
      · split at h
        · cases h
          rfl
        · cases h
    · split at h
      · rename_i hw
        cases h
        exact decWord_words w _ hw
      · cases h

end Sys2Proof

namespace Sys2Proof.Machine

theorem State.fetch_isIsa {s : State} {i : Instr} (h : s.fetch = .ok i) : i.isIsa = true := by
  unfold State.fetch at h
  split at h
  · split at h
    · rename_i hd
      cases h
      exact decodeWords_isIsa hd
    · cases h
  · unfold State.fetchAt at h
    dsimp only at h
    split at h
    · cases h
    · split at h
      · cases h
      · split at h
        · cases h
        · split at h
          · cases h
          · cases h
          · cases h
          · rename_i hd
            split at h
            · cases h
              exact decodeWords_isIsa hd
            · cases h
end Sys2Proof.Machine
end
section
/-! What a turn of a core keeps, whichever core it is (02 R48 to R54; 14 R357 to R371): HBM as it is, element memories and SRAM
canonical. -/

namespace Sys2Proof.Machine

open Host (Outcome)

/-- Whatever next state a meaning answers has the property. -/
def Answers (P : State → Prop) (o : Out) : Prop := ∀ u, o = .next u → P u

@[simp] theorem answers_next (P : State → Prop) (u : State) : Answers P (.next u) ↔ P u :=
  ⟨fun h => h u rfl, fun h _ e => Outcome.next.inj e ▸ h⟩

theorem Answers.next {P : State → Prop} {u : State} (h : P u) : Answers P (.next u) := (answers_next P u).2 h

/-- Agenda, focus and HBM are as they were, and a memory of an element or a controller that was canonical is so. -/
structure TurnKeeps (s u : State) : Prop where
  agenda : u.agenda = s.agenda
  focus : u.focus = s.focus
  phys : u.phys = s.phys
  mem : ∀ k, Memory.wf (s.elem k).mem = true → Memory.wf (u.elem k).mem = true
  sram : ∀ d, Memory.wf (s.ctrl d).sram = true → Memory.wf (u.ctrl d).sram = true

section
variable {s t u : State}

namespace TurnKeeps

theorem refl (s : State) : TurnKeeps s s := ⟨rfl, rfl, rfl, fun _ h => h, fun _ h => h⟩

theorem trans (h : TurnKeeps s t) (g : TurnKeeps t u) : TurnKeeps s u :=
  ⟨g.agenda.trans h.agenda, g.focus.trans h.focus, g.phys.trans h.phys, fun k w => g.mem k (h.mem k w),
    fun d w => g.sram d (h.sram d w)⟩

theorem of_sluiceOnly (h : SluiceOnly s u) : TurnKeeps s u :=
  ⟨h.agenda, h.focus, h.phys, fun k w => by rwa [h.elem], fun d w => by rwa [State.ctrl, h.ctrls]⟩

/-- An element whose memory stays canonical is replaced. -/
theorem setElem_wf (h : TurnKeeps s t) {k : Nat} {e : Element} (hm : Memory.wf (t.elem k).mem = true → Memory.wf e.mem = true) :
    TurnKeeps s (t.setElem k e) := by
  refine h.trans ⟨rfl, rfl, rfl, fun j w => ?_, fun _ w => w⟩
  by_cases hj : j = k
  · subst hj
    rw [State.elem_setElem_same]
    exact hm w
  · rwa [t.elem_setElem_other e hj]

theorem setElem (h : TurnKeeps s t) {k : Nat} {e : Element} (hm : e.mem = (t.elem k).mem) :
    TurnKeeps s (t.setElem k e) :=
  h.setElem_wf fun w => hm ▸ w

theorem setCtrl_wf (h : TurnKeeps s t) {d : Nat} {c : Controller}
    (hm : Memory.wf (t.ctrl d).sram = true → Memory.wf c.sram = true) : TurnKeeps s (t.setCtrl d c) := by
  refine h.trans ⟨rfl, rfl, rfl, fun _ w => w, fun j w => ?_⟩
  by_cases hj : j = d
  · subst hj
    rw [State.ctrl_setCtrl_same]
    exact hm w
  · rwa [t.ctrl_setCtrl_other c hj]

theorem setCtrl (h : TurnKeeps s t) {d : Nat} {c : Controller} (hm : c.sram = (t.ctrl d).sram) :
    TurnKeeps s (t.setCtrl d c) :=
  h.setCtrl_wf fun w => hm ▸ w

theorem setPool (h : TurnKeeps s t) (k : Nat) (p : Pool) : TurnKeeps s (t.setPool k p) :=
  h.trans (of_sluiceOnly (t.setPool_sluiceOnly k p))

theorem setPlot (h : TurnKeeps s t) (k : Nat) (p : Plot) : TurnKeeps s (t.setPlot k p) :=
  h.trans ⟨rfl, rfl, rfl, fun _ w => w, fun _ w => w⟩

theorem bumpFree (h : TurnKeeps s t) : TurnKeeps s t.bumpFree := h.trans ⟨rfl, rfl, rfl, fun _ w => w, fun _ w => w⟩

theorem manage (h : TurnKeeps s t) (colour : Nat) (c : Cargo) (src dst : Loc) : TurnKeeps s (t.manage colour c src dst) :=
  h.trans ⟨rfl, rfl, rfl, fun _ w => w, fun _ w => w⟩

theorem report (h : TurnKeeps s t) (die colour load : Nat) (ho : Holds) (code : Nat) (o : Origin) (pos slot : Nat)
    (w2 w3 : DWord) : TurnKeeps s (t.report die colour load ho code o pos slot w2 w3) :=
  h.trans ⟨rfl, rfl, rfl, fun _ w => w, fun _ w => w⟩

theorem foldl {α : Type} {f : State → α → State} (hf : ∀ t a, TurnKeeps t (f t a)) (l : List α) (h : TurnKeeps s t) :
    TurnKeeps s (l.foldl f t) := by
  induction l generalizing t with
  | nil => exact h
  | cons a l ih => exact ih (h.trans (hf t a))

/-! ## Faults (02 R51; 14 R360) -/

theorem undo (h : TurnKeeps s t) (k : Nat) : TurnKeeps s (t.undo k) :=
  (h.setElem (by rw [undone_eq])).trans (of_sluiceOnly (t.undo_sluiceOnly k))

theorem abortFiring (h : TurnKeeps s t) (k code pc : Nat) (detail : DWord) :
    TurnKeeps s (t.abortFiring k code pc detail) := by
  refine ((h.undo k).setElem ?_).report _ _ _ _ _ _ _ _ _ _
  show (faultPlace _).mem = _
  rw [faultPlace_eq]

theorem trap (h : TurnKeeps s t) (d code : Nat) (addr : DWord) : TurnKeeps s (t.trap d code addr) := by
  obtain ⟨c, hc⟩ := t.trap_only d code addr
  have hwf := t.trap_wf d code addr
  rw [hc] at hwf ⊢
  exact h.setCtrl_wf fun w => by simpa using hwf w

theorem raiseAt (h : TurnKeeps s t) (code : Nat) (addr detail : DWord) : TurnKeeps s (t.raiseAt code addr detail) := by
  unfold State.raiseAt
  split
  · exact h.abortFiring _ _ _ _
  · exact h.trap _ _ _

theorem raise (h : TurnKeeps s t) (code : Nat) (detail : DWord) : TurnKeeps s (t.raise code detail) := h.raiseAt _ _ _

theorem abandon (h : TurnKeeps s t) (k : Nat) (why : Park) : TurnKeeps s (t.abandon k why) := by
  refine (h.undo k).setElem ?_
  show (parkPlace _ why).mem = _
  unfold parkPlace
  dsimp only
  split
  · split <;> rfl
  · rfl

theorem defer (h : TurnKeeps s t) (k : Nat) (why : Park) : TurnKeeps s (t.defer k why) := by
  unfold State.defer
  dsimp only
  split
  · exact h.abortFiring _ _ _ _
  · split
    · exact h.abortFiring _ _ _ _
    · exact h.abandon k why

/-! ## The core in focus -/

theorem setCore (h : TurnKeeps s t) (c : CoreRegs) : TurnKeeps s (t.setCore c) := by
  unfold State.setCore
  split
  · exact h.setElem (by rfl)
  · exact h.setCtrl (by rfl)

theorem setReg (h : TurnKeeps s t) (r : BitVec 5) (v : DWord) : TurnKeeps s (t.setReg r v) := h.setCore _

theorem setPred (h : TurnKeeps s t) (r : BitVec 3) (v : Bool) : TurnKeeps s (t.setPred r v) := h.setCore _

theorem settle (h : TurnKeeps s t) : TurnKeeps s t.settle := by
  unfold State.settle
  split
  · exact h.setElem (by rfl)
  · exact h

theorem advance (h : TurnKeeps s t) (n : Nat := 4) : TurnKeeps s (t.advance n) := (h.setCore _).settle

theorem goto (h : TurnKeeps s t) (pc : DWord) : TurnKeeps s (t.goto pc) := (h.setCore _).settle

theorem branch (h : TurnKeeps s t) (pc : DWord) : TurnKeeps s (t.branch pc) := (h.setCore _).goto pc

theorem stall (h : TurnKeeps s t) : TurnKeeps s t.stall := by
  unfold State.stall
  split
  · exact h.setElem (by rfl)
  · exact h

theorem storeBytes (h : TurnKeeps s t) (a v n : Nat) : TurnKeeps s (t.storeBytes a v n) := by
  unfold State.storeBytes
  split
  · exact h.setElem_wf fun w => Memory.wf_write n _ a v w
  · exact h.setCtrl_wf fun w => Memory.wf_write n _ a v w

theorem push (h : TurnKeeps s t) (q : Fin 3) (v : Word) : TurnKeeps s (t.push q v) := by
  unfold State.push
  split
  · refine h.setElem ?_
    unfold pushElem
    dsimp only
    split <;> rfl
  · exact h

theorem useDraws (h : TurnKeeps s t) (rm : Rm) (n : Nat) : TurnKeeps s (t.useDraws rm n) := by
  unfold State.useDraws
  split
  · exact h.setElem (by rfl)
  · exact h

theorem idst (h : TurnKeeps s t) (d : SQ) (v : DWord) : TurnKeeps s (t.idst d v) := by
  cases d with
  | s r => exact h.setReg r v
  | q n => exact h.push n _

theorem fdst (h : TurnKeeps s t) (d : SQ) (v : Word) : TurnKeeps s (t.fdst d v) := by
  cases d with
  | s r => exact h.setReg r _
  | q n => exact h.push n v

/-! ## Pops -/

theorem settlePort (h : TurnKeeps s t) (k i fuel : Nat) : TurnKeeps s (t.settlePort k i fuel) := by
  induction fuel generalizing t with
  | zero => exact h
  | succ fuel ih =>
    unfold State.settlePort
    dsimp only
    split
    · exact h
    · split
      case h_5 | h_6 =>
        split
        · exact ih ((h.setElem (by rfl)).report _ _ _ _ _ _ _ _ _ _)
        · exact h
      case h_7 => exact h
      all_goals exact ih (h.setElem (by rfl))

theorem takePort (h : TurnKeeps s t) (k i : Nat) : TurnKeeps s (t.takePort k i) := (h.setElem (by rfl)).settlePort k i 8

theorem popPort (h : TurnKeeps s t) (k : Nat) (q : Fin 3) (i fuel : Nat) : TurnKeeps s (t.popPort k q i fuel).state := by
  induction fuel generalizing t with
  | zero => exact h
  | succ fuel ih =>
    unfold State.popPort
    split
    · split <;> exact h
    · split
      · exact h.takePort k i
      · exact ih (h.takePort k i)

theorem popOne (h : TurnKeeps s t) (k : Nat) (q : Fin 3) : TurnKeeps s (t.popOne k q).state := by
  unfold State.popOne
  dsimp only
  split
  · split
    · exact h
    · exact h.setElem (by rfl)
  · exact h.popPort k q _ 8
  · exact h

theorem popAll (h : TurnKeeps s t) (k : Nat) (l : List (Fin 3)) (vals : List Word) :
    TurnKeeps s (t.popAll k l vals).state := by
  induction l generalizing t vals with
  | nil => exact h
  | cons q l ih =>
    have hq := h.popOne k q
    unfold State.popAll
    split <;> rename_i hp <;> rw [hp] at hq
    · exact ih hq _
    · exact hq.setElem (by rfl)
    · exact hq

theorem gate (h : TurnKeeps s t) (k : Nat) (pops : List (Fin 3)) (push : Option (Fin 3)) :
    TurnKeeps s (t.gate k pops push).state := by
  unfold State.gate
  dsimp only
  split
  · exact h
  · exact h
  · have hp := h.popAll k (pops.drop (t.elem k).fir.latch.length) (t.elem k).fir.latch
    split
    · rename_i hg
      rw [hg] at hp
      split
      · split
        · exact hp.setElem (by rfl)
        · exact hp
      · exact hp
    · exact hp

/-! ## Commit (02 R50) -/

theorem checkMatch (h : TurnKeeps s t) (k : Nat) : TurnKeeps s (t.checkMatch k) := by
  have hc := t.checkMatch_checked k
  refine h.trans ⟨hc.agenda, hc.focus, hc.phys, fun j w => ?_, fun d w => by rwa [State.ctrl, hc.ctrls]⟩
  by_cases hj : j = k
  · rwa [hj, hc.own, ← hj]
  · rwa [hc.others j hj]

theorem commit (h : TurnKeeps s t) (k : Nat) : TurnKeeps s (t.commit k) := by
  obtain ⟨b, ps, hrel⟩ := State.release_rest (t.commitSends k) t k
  have hr : TurnKeeps t (t.release k (t.commitSends k)) := hrel ▸ ⟨rfl, rfl, rfl, fun _ w => w, fun _ w => w⟩
  have hv := h.trans (hr.trans (of_sluiceOnly (State.commitContexts_sluiceOnly _ k)))
  generalize hv' : (t.release k (t.commitSends k)).commitContexts k = v at hv
  have hcommit : t.commit k = (v.setElem k (committedElem (v.elem k) (t.commitSends k).length)).checkMatch k := hv' ▸ rfl
  rw [hcommit]
  exact (hv.setElem (committedElem_mem _ _)).checkMatch k

end TurnKeeps

/-! ## Shapes of meanings -/

theorem onElement_turn {f : Nat → Out} (hf : ∀ k, Answers (TurnKeeps s) (f k)) :
    Answers (TurnKeeps s) (onElement s f) := by
  unfold onElement
  split
  · exact hf _
  · exact .next ((TurnKeeps.refl s).raise _ _)

theorem onController_turn {f : Nat → Out} (hf : ∀ d, Answers (TurnKeeps s) (f d)) :
    Answers (TurnKeeps s) (onController s f) := by
  unfold onController
  split
  · exact .next ((TurnKeeps.refl s).raise _ _)
  · exact hf _

/-- An instruction with operands keeps what its effect keeps. -/
theorem withOperands_turn (ok : Bool) (pops : List (Fin 3)) (push : Option (Fin 3)) {eff : State → List Word → State}
    (he : ∀ t vals, TurnKeeps s t → TurnKeeps s (eff t vals)) : Answers (TurnKeeps s) (withOperands s ok pops push eff) := by
  have hs := TurnKeeps.refl s
  unfold withOperands
  split
  · split
    · exact .next (he s [] hs)
    · exact .next (hs.raise _ _)
  · rename_i d p _
    split
    · exact .next (he s [] hs)
    · have h := hs.gate (elemKey d p) pops push
      split <;> rename_i hg <;> rw [hg] at h
      · exact .next (he _ _ h)
      · exact .next h.stall
      · exact .next (h.raise _ _)

theorem srcOp2_turn (a b : Src) {eff : State → DWord → DWord → State} (he : ∀ t x y, TurnKeeps s t → TurnKeeps s (eff t x y)) :
    Answers (TurnKeeps s) (srcOp2 s a b eff) :=
  withOperands_turn _ _ _ fun _ _ h => (he _ _ _ h).advance

theorem intOp2_turn (d : SQ) (a b : Src) (f : DWord → DWord → DWord) : Answers (TurnKeeps s) (intOp2 s d a b f) :=
  withOperands_turn _ _ _ fun _ _ h => (h.idst _ _).advance

theorem intOp1_turn (d : SQ) (a : Src) (f : DWord → DWord) : Answers (TurnKeeps s) (intOp1 s d a f) :=
  withOperands_turn _ _ _ fun _ _ h => (h.idst _ _).advance

theorem floatOp2_turn (d a b : SQ) (f : Word → Word → Word) : Answers (TurnKeeps s) (floatOp2 s d a b f) :=
  withOperands_turn _ _ _ fun _ _ h => (h.fdst _ _).advance

theorem floatOp1_turn (d a : SQ) (f : Word → Word) : Answers (TurnKeeps s) (floatOp1 s d a f) :=
  withOperands_turn _ _ _ fun _ _ h => (h.fdst _ _).advance

theorem fusedOp_turn (fmt : Fmt) (np na : Bool) (d : BitVec 5) (a b : SQ) :
    Answers (TurnKeeps s) (fusedOp s fmt np na d a b) :=
  withOperands_turn _ _ _ fun _ _ h => (h.setReg _ _).advance

theorem convertOp_turn (rm : Rm) (n : Nat) (d a : SQ) (f : (Nat → Word) → Word → Word) :
    Answers (TurnKeeps s) (convertOp s rm n d a f) :=
  withOperands_turn _ _ _ fun _ _ h => ((h.useDraws _ _).fdst _ _).advance

theorem convertIntOp_turn (rm : Rm) (n : Nat) (d a : SQ) (f : (Nat → Word) → Word → DWord) :
    Answers (TurnKeeps s) (convertIntOp s rm n d a f) :=
  withOperands_turn _ _ _ fun _ _ h => ((h.useDraws _ _).idst _ _).advance

/-- A register written, and on. -/
theorem setRegAdvance_turn (d : BitVec 5) (v : DWord) (n : Nat := 4) :
    Answers (TurnKeeps s) (.next ((s.setReg d v).advance n)) :=
  .next (((TurnKeeps.refl s).setReg d v).advance n)

theorem predOp_turn (pd : BitVec 3) (v : Bool) : Answers (TurnKeeps s) (predOp s pd v) :=
  .next (((TurnKeeps.refl s).setPred _ _).advance)

theorem checked_turn (f : Fails) {eff : State → State} (he : TurnKeeps s (eff s)) :
    Answers (TurnKeeps s) (checked s f eff) := by
  unfold checked
  split
  · exact .next ((TurnKeeps.refl s).raise _ _)
  · exact .next he.advance

theorem sendOne_turn (o : Nat) (kind : SendKind) (pops : List (Fin 3)) (tok : State → Nat → List Word → Token) :
    Answers (TurnKeeps s) (sendOne s o kind pops tok) := by
  refine onElement_turn fun k => ?_
  split
  · exact .next ((TurnKeeps.refl s).raise _ _)
  · exact .next ((TurnKeeps.refl s).raise _ _)
  · exact withOperands_turn _ _ _ fun _ _ h => (h.setElem (by rfl)).advance

theorem TurnKeeps.enqueue (h : TurnKeeps s t) (k : Nat) (c : MCmd) : TurnKeeps s (t.enqueue k c) := by
  unfold State.enqueue
  dsimp only
  split
  · exact h.stall
  · exact (h.setElem (by rfl)).advance

theorem queued_turn (c : MCmd) : Answers (TurnKeeps s) (queued s c) :=
  onElement_turn fun k => .next ((TurnKeeps.refl s).enqueue k c)

theorem queuedAt_turn (a : BitVec 5) (n : Nat) (w : Bool) (c : Nat → MCmd) :
    Answers (TurnKeeps s) (queuedAt s a n w c) := by
  refine onElement_turn fun k => ?_
  split
  · exact .next ((TurnKeeps.refl s).raise _ _)
  · exact .next ((TurnKeeps.refl s).enqueue k _)

theorem afterQueue_turn {eff : Nat → State → State} (he : ∀ k t, TurnKeeps s t → TurnKeeps s (eff k t)) :
    Answers (TurnKeeps s) (afterQueue s eff) := by
  refine onElement_turn fun k => ?_
  dsimp only
  split
  · exact .next (TurnKeeps.refl s).stall
  · exact .next (he k _ ((TurnKeeps.refl s).setElem (by rfl))).advance

theorem loadFrom_turn (wd : LoadWidth) (d : BitVec 5) (ea : DWord) : Answers (TurnKeeps s) (loadFrom s wd d ea) := by
  unfold loadFrom
  split
  · exact .next ((TurnKeeps.refl s).raiseAt _ _ _)
  · exact setRegAdvance_turn _ _

theorem storeTo_turn (wd : StoreWidth) (d : BitVec 5) (ea : DWord) : Answers (TurnKeeps s) (storeTo s wd d ea) := by
  unfold storeTo
  split
  · exact .next ((TurnKeeps.refl s).raiseAt _ _ _)
  · exact .next ((TurnKeeps.refl s).storeBytes _ _ _).advance

/-! ## Element instructions with a meaning of their own -/

theorem execBr_turn (pn : Bool) (p : BitVec 3) (off : BitVec 22) : Answers (TurnKeeps s) (execBr pn p off s) := by
  unfold execBr
  split
  · exact .next ((TurnKeeps.refl s).branch _)
  · exact .next (TurnKeeps.refl s).advance

theorem execLoop_turn (c : BitVec 5) (body : BitVec 16) : Answers (TurnKeeps s) (execLoop c body s) := by
  have hs := TurnKeeps.refl s
  unfold execLoop
  dsimp only
  split
  · exact .next (hs.raise _ _)
  · split
    · exact .next (hs.raise _ _)
    · split
      · exact .next (hs.raise _ _)
      · split
        · exact .next (hs.raise _ _)
        · split
          · exact .next (hs.goto _)
          · exact .next ((hs.setCore _).goto _)

theorem execRpt_turn (c : BitVec 5) (n : BitVec 4) : Answers (TurnKeeps s) (execRpt c n s) := by
  have hs := TurnKeeps.refl s
  unfold execRpt
  dsimp only
  split
  · split
    · exact .next ((hs.setCore _).raise _ _)
    · exact .next (hs.raiseAt _ _ _)
  · split
    · exact .next (hs.raise _ _)
    · split
      · exact .next (hs.goto _)
      · exact .next ((hs.setCore _).goto _)

theorem execSstop_turn (g : Fin 3) : Answers (TurnKeeps s) (execSstop g s) := by
  have hs := TurnKeeps.refl s
  refine onElement_turn fun k => ?_
  dsimp only
  split
  · exact .next hs.advance
  · exact .next (hs.setElem (by rfl)).advance
  · exact .next (hs.setElem (by rfl)).advance
  · split
    · exact .next (hs.setElem (by rfl)).advance
    · exact .next hs.stall
  · split <;> exact .next (hs.setElem (by rfl)).advance

theorem execSwait_turn (g : Fin 3) : Answers (TurnKeeps s) (execSwait g s) := by
  have hs := TurnKeeps.refl s
  refine onElement_turn fun k => ?_
  dsimp only
  split
  · exact .next hs.advance
  · split
    · exact .next (hs.raise _ _)
    · split
      · exact .next (hs.setElem (by rfl)).advance
      · exact .next (hs.setElem (by rfl)).stall
  · split
    · exact .next (hs.raise _ _)
    · exact .next hs.stall
  · exact .next hs.stall
  · exact .next (hs.raise _ _)

theorem TurnKeeps.sendTile (h : TurnKeeps s t) (k o n flits : Nat) (clear : Bool) :
    TurnKeeps s (t.sendTile k o n flits clear) := by
  unfold State.sendTile
  split
  · exact h.raise _ _
  · dsimp only
    split
    · exact ((h.setElem (k := k) (by rfl)).setElem (by rfl)).advance
    · exact (h.setElem (by rfl)).advance

theorem execSendbTile_turn (o n : BitVec 4) (scale clear : Bool) :
    Answers (TurnKeeps s) (execSendbTile o n scale clear s) := by
  have hs := TurnKeeps.refl s
  refine onElement_turn fun k => ?_
  split
  · exact .next (hs.raise _ _)
  · split
    · exact .next hs.stall
    · split
      · exact .next hs.stall
      · exact .next (hs.raise _ _)
      · exact .next (hs.sendTile _ _ _ _ _)

theorem TurnKeeps.sendBulk (h : TurnKeeps s t) (k o : Nat) (base n : DWord) : TurnKeeps s (t.sendBulk k o base n) := by
  unfold State.sendBulk
  split
  · exact h.raise _ _
  · split
    · exact h.raise _ _
    · exact (h.setElem (by rfl)).advance

theorem execSendbMemory_turn (o : BitVec 4) (a : Src) (b : BitVec 5) :
    Answers (TurnKeeps s) (execSendbMemory o a b s) := by
  refine onElement_turn fun k => ?_
  split
  · exact .next ((TurnKeeps.refl s).raise _ _)
  · exact withOperands_turn _ _ _ fun _ _ h => h.sendBulk _ _ _ _

theorem execTagret_turn (a : Src) (fin : Bool) : Answers (TurnKeeps s) (execTagret a fin s) := by
  refine onElement_turn fun k => ?_
  split
  · exact .next ((TurnKeeps.refl s).raise _ _)
  · exact sendOne_turn _ _ _ _

/-- Opening a window clears its retire bitmap, and leaves the memory canonical. -/
theorem issueIter_wf {e : Element} (slot : Nat) (c : BitVec 14) (h : Memory.wf e.mem = true) :
    Memory.wf (issueIter e slot c).1.mem = true := by
  unfold issueIter
  split
  · exact h
  · exact h
  · exact Memory.wf_write _ _ _ _ h

theorem execTagnext_turn (d : BitVec 5) : Answers (TurnKeeps s) (execTagnext d s) := by
  have hs := TurnKeeps.refl s
  refine onElement_turn fun k => ?_
  dsimp only
  split
  · exact .next (hs.raise _ _)
  · split
    · exact .next (hs.defer k _)
    · exact .next ((hs.setElem_wf (issueIter_wf _ _)).setReg _ _).advance

theorem TurnKeeps.askContext (h : TurnKeeps s t) (k pk i : Nat) (key : DWord) :
    TurnKeeps s (t.askContext k pk i key) := by
  unfold State.askContext
  dsimp only
  split
  · exact h.raise _ _
  · exact (((h.setPool _ _).manage _ _ _ _).setElem (by rfl)).stall

theorem execCtxnew_turn (d : BitVec 5) (a : Src) (pool : BitVec 4) : Answers (TurnKeeps s) (execCtxnew d a pool s) := by
  have hs := TurnKeeps.refl s
  refine onElement_turn fun k => ?_
  dsimp only
  split
  · exact .next ((hs.setElem (by rfl)).setReg _ _).advance
  · exact .next hs.stall
  · exact .next (hs.defer k _)
  · split
    · exact .next (hs.raise _ _)
    · exact withOperands_turn _ _ _ fun _ _ h => h.askContext _ _ _ _

theorem TurnKeeps.recordFree (h : TurnKeeps s t) (k pk i : Nat) (v : DWord) : TurnKeeps s (t.recordFree k pk i v) := by
  unfold State.recordFree
  dsimp only
  split
  · exact h.raise _ _
  · split
    · exact h.raise _ _
    · split
      · exact ((h.setElem (by rfl)).trans (.of_sluiceOnly (State.dropHolds_sluiceOnly _ _))).advance
      · exact (h.setElem (by rfl)).advance

theorem execCtxfree_turn (a : Src) (pool : BitVec 4) : Answers (TurnKeeps s) (execCtxfree a pool s) := by
  refine onElement_turn fun k => ?_
  split
  · exact .next ((TurnKeeps.refl s).raise _ _)
  · exact withOperands_turn _ _ _ fun _ _ h => h.recordFree _ _ _ _

theorem execMma_turn (mf : MmaFmt) (sc clear : Bool) (acc : BitVec 2) (ta tb : BitVec 4) (a : BitVec 5) :
    Answers (TurnKeeps s) (execMma mf sc clear acc ta tb a s) := by
  unfold execMma
  split
  · exact queuedAt_turn _ _ _ _
  · exact queued_turn _

theorem execFenceE_turn : Answers (TurnKeeps s) (execFenceE s) := by
  refine onElement_turn fun k => ?_
  split
  · exact .next (TurnKeeps.refl s).advance
  · exact .next (TurnKeeps.refl s).stall

theorem freshPerf_mem (e : Element) (n : Fin 8) (cycles : DWord) : (freshPerf e n cycles).mem = e.mem := by
  unfold freshPerf
  split
  · rfl
  · split <;> rfl

theorem execPerf_turn (d : BitVec 5) (n : Fin 8) : Answers (TurnKeeps s) (execPerf d n s) :=
  onElement_turn fun _ => .next ((((TurnKeeps.refl s).setElem (freshPerf_mem _ _ _)).bumpFree).setReg _ _).advance

theorem execCyc_turn (d : BitVec 5) : Answers (TurnKeeps s) (execCyc d s) :=
  onElement_turn fun _ => .next ((((TurnKeeps.refl s).setPlot _ _).bumpFree).setReg _ _).advance

theorem execDone_turn : Answers (TurnKeeps s) (execDone s) := by
  refine onElement_turn fun k => ?_
  split
  · exact .next ((TurnKeeps.refl s).commit k)
  · exact .next ((TurnKeeps.refl s).setElem (by rfl))

/-! ## Controller instructions (14 R361 to R371) -/

theorem TurnKeeps.setBox (h : TurnKeeps s t) (d : Nat) (k : Fin 5) (l : List Rec) :
    TurnKeeps s (t.setBox d k l) := h.setCtrl (by rfl)

theorem TurnKeeps.setSram (h : TurnKeeps s t) (d : Nat) (m : Mem)
    (hm : Memory.wf (t.ctrl d).sram = true → Memory.wf m = true) : TurnKeeps s (t.setCtrl d { t.ctrl d with sram := m }) :=
  h.setCtrl_wf hm

theorem TurnKeeps.sendCommand (h : TurnKeeps s t) (d : Nat) (x : Ticket) : TurnKeeps s (t.sendCommand d x) := by
  unfold State.sendCommand
  split
  · exact h
  · exact h.manage _ _ _ _

theorem execScmd_turn (d a : BitVec 5) : Answers (TurnKeeps s) (execScmd d a s) := by
  have hs := TurnKeeps.refl s
  refine onController_turn fun k => ?_
  dsimp only
  split
  · exact .next (hs.raiseAt _ _ _)
  · split
    · exact .next hs.stall
    · exact .next (((hs.setCtrl (by rfl)).sendCommand _ _).setReg _ _).advance

theorem execScwait_turn (d a : BitVec 5) : Answers (TurnKeeps s) (execScwait d a s) := by
  have hs := TurnKeeps.refl s
  refine onController_turn fun k => ?_
  dsimp only
  split
  · exact setRegAdvance_turn _ _
  · split
    · exact .next ((hs.setCtrl (by rfl)).setReg _ _).advance
    · exact .next hs.stall

theorem execCsrr_turn (d : BitVec 5) (n : BitVec 12) : Answers (TurnKeeps s) (execCsrr d n s) := by
  have hs := TurnKeeps.refl s
  refine onController_turn fun k => ?_
  dsimp only
  have ht : TurnKeeps s (if n = 0x021 || n = 0x022 then s.tick k else s) := by
    split
    · exact (hs.setCtrl (by rfl)).bumpFree
    · exact hs
  split
  · exact .next (ht.setReg _ _).advance
  · exact .next (hs.raise _ _)

/-- A register write of a controller leaves its SRAM alone. -/
theorem writeCsr_sram {c c' : Controller} {n : Nat} {v : DWord} (h : writeCsr c n v = some c') : c'.sram = c.sram := by
  unfold writeCsr at h
  split at h
  case h_8 => cases h
  case h_3 | h_4 => cases h; rfl
  all_goals
    obtain ⟨-, h⟩ := Option.ite_none_right_eq_some.1 h
    cases h
    rfl

theorem execCsrw_turn (a : BitVec 5) (n : BitVec 12) : Answers (TurnKeeps s) (execCsrw a n s) := by
  refine onController_turn fun k => ?_
  split
  · rename_i hc
    exact .next ((TurnKeeps.refl s).setCtrl (writeCsr_sram hc)).advance
  · exact .next ((TurnKeeps.refl s).raise _ _)

theorem execEret_turn : Answers (TurnKeeps s) (execEret s) := by
  refine onController_turn fun k => ?_
  split
  · exact .next ((TurnKeeps.refl s).setCtrl (by rfl))
  · exact .next ((TurnKeeps.refl s).raise _ _)

theorem execWaitev_turn (d : BitVec 5) (m : BitVec 12) : Answers (TurnKeeps s) (execWaitev d m s) := by
  refine onController_turn fun k => ?_
  dsimp only
  split
  · exact .next (TurnKeeps.refl s).stall
  · exact setRegAdvance_turn _ _

theorem writeRec_wf {m : Mem} (a : Nat) (r : Rec) (h : Memory.wf m = true) : Memory.wf (writeRec m a r) = true :=
  Memory.wf_write _ _ _ _ (Memory.wf_write _ _ _ _ (Memory.wf_write _ _ _ _ (Memory.wf_write _ _ _ _ h)))

theorem execMbxrd_turn (d a : BitVec 5) (k : Fin 5) : Answers (TurnKeeps s) (execMbxrd d a k s) := by
  have hs := TurnKeeps.refl s
  refine onController_turn fun n => ?_
  dsimp only
  split
  · exact .next (hs.raiseAt _ _ _)
  · split
    · exact .next (hs.raise _ _)
    · split
      · exact setRegAdvance_turn _ _
      · rename_i r rest _
        exact .next (((hs.setBox n k rest).setSram n _ fun w => writeRec_wf _ r w).setReg _ _).advance

theorem execMbxwr_turn (d a : BitVec 5) (k : Fin 5) : Answers (TurnKeeps s) (execMbxwr d a k s) := by
  have hs := TurnKeeps.refl s
  refine onController_turn fun n => ?_
  dsimp only
  split
  · exact .next (hs.raiseAt _ _ _)
  · split
    · exact .next (hs.raise _ _)
    · split
      · exact setRegAdvance_turn _ _
      · split
        · exact setRegAdvance_turn _ _
        · exact .next ((hs.setBox n k _).setReg _ _).advance

theorem foldl_manage_ctrl (l : List Nat) (colour : Nat) (c : Nat → Cargo) (src dst : State → Nat → Loc) (s : State) (d : Nat) :
    (l.foldl (fun t a => t.manage colour (c a) (src t a) (dst t a)) s).ctrl d = s.ctrl d := by
  induction l generalizing s with
  | nil => rfl
  | cons a l ih => exact ih _

theorem execXinv_turn (kind : XinvKind) (colour : BitVec 4) : Answers (TurnKeeps s) (execXinv kind colour s) := by
  have hs := TurnKeeps.refl s
  refine onController_turn fun k => ?_
  dsimp only
  split
  · split
    · exact .next (hs.setCtrl (by rfl)).advance
    · exact .next hs.stall
  · have ht := TurnKeeps.foldl (f := fun t d => t.manage 0 (.inval k d) (s.attach k) (s.attach d))
      (fun t _ => (TurnKeeps.refl t).manage _ _ _ _) s.invalidDies hs
    have hsram := congrArg Controller.sram (foldl_manage_ctrl s.invalidDies 0 (.inval k) (fun _ _ => s.attach k)
      (fun _ d => s.attach d) s k)
    refine .next (ht.setCtrl ?_).stall
    exact hsram.symm

/-! ## Every instruction -/

theorem exec_turn (i : Instr) (hi : i.isIsa = true) : Answers (TurnKeeps s) (exec i s) := by
  have hs := TurnKeeps.refl s
  cases i <;> unfold exec
  case add | sub | and | or | xor | andn | orn | sll | srl | sra | rol | mul | mulh | mulhz | div | divz | rem | remz | min | max
      | minz | maxz | adds | subs | ext | extz | rand =>
    exact intOp2_turn _ _ _ _
  case clz | ctz | popc | brev | bswap => exact intOp1_turn _ _ _
  case addi | andi | ori | xori | slli | srli | srai | lui => exact setRegAdvance_turn _ _
  case lix => exact setRegAdvance_turn _ _ 8
  case ins | sel => exact srcOp2_turn _ _ fun _ _ _ h => h.setReg _ _
  case cmp => exact srcOp2_turn _ _ fun _ _ _ h => h.setPred _ _
  case pand | por | pxor | pnot | pmov | cmpi => exact predOp_turn _ _
  case ld | ldx => exact loadFrom_turn _ _ _
  case st | stx => exact storeTo_turn _ _ _
  case ldc | scount | mstat | qshape | rdid => exact onElement_turn fun _ => setRegAdvance_turn _ _
  case br => exact execBr_turn _ _ _
  case jmp => exact .next (hs.branch _)
  case call | callr => exact .next ((hs.setReg _ _).goto _)
  case jr | ret => exact .next (hs.goto _)
  case done => exact execDone_turn
  case nop => exact .next hs.advance
  case loop => exact execLoop_turn _ _
  case rpt => exact execRpt_turn _ _
  case fadd | fsub | fmul | fdiv | fmin | fmax | fcps | fpack => exact floatOp2_turn _ _ _ _
  case fabs | fneg | fsqrt | frcp | frsq | fexp2 | flog2 | fsum2 | funpack => exact floatOp1_turn _ _ _
  case fclass => exact withOperands_turn _ _ _ fun _ _ h => (h.setReg _ _).advance
  case fma | fms | fnma => exact fusedOp_turn _ _ _ _ _ _
  case fcvt | fcvtFromE2m1 | fcvtToE2m1 | icvtf32 | icvtf8 => exact convertOp_turn _ _ _ _ _
  case fcvti32 | fcvti64 | fcvti8 => exact convertIntOp_turn _ _ _ _ _
  case icvtf64 => exact withOperands_turn _ _ _ fun _ _ h => ((h.useDraws _ _).fdst _ _).advance
  case fcmp => exact withOperands_turn _ _ _ fun _ _ h => (h.setPred _ _).advance
  case sbindGenerator | sbindInputPort | sbindOutputPort | scfg | sstart => exact onElement_turn fun _ => checked_turn _ (hs.setElem (by rfl))
  case sbindUnbind => exact onElement_turn fun _ => .next (hs.setElem (by rfl)).advance
  case sstop => exact execSstop_turn _
  case swait => exact execSwait_turn _
  case send | sendt | mreq | stop | eos => exact sendOne_turn _ _ _ _
  case sendbTile => exact execSendbTile_turn _ _ _ _
  case sendbMemory => exact execSendbMemory_turn _ _ _
  case tagnext => exact execTagnext_turn _
  case tagret => exact execTagret_turn _ _
  case tagmk | tagctx | tagiter =>
    exact onElement_turn fun _ => withOperands_turn _ _ _ fun _ _ h => (h.setReg _ _).advance
  case ctxnew => exact execCtxnew_turn _ _ _
  case ctxfree => exact execCtxfree_turn _ _
  case mma => exact execMma_turn _ _ _ _ _ _ _
  case mzero | mfill | mempty | msr => exact queued_turn _
  case mstore | mloada | mldm => exact queuedAt_turn _ _ _ _
  case mread => exact afterQueue_turn fun _ _ h => h.setReg _ _
  case mwait => exact afterQueue_turn fun _ _ h => h
  case fault => exact onElement_turn fun _ => withOperands_turn _ _ _ fun _ _ h => h.raise _ _
  case fenceE => exact execFenceE_turn
  case perf => exact execPerf_turn _ _
  case cyc => exact execCyc_turn _
  case scmd => exact execScmd_turn _ _
  case scwait => exact execScwait_turn _ _
  case csrr => exact execCsrr_turn _ _
  case csrw => exact execCsrw_turn _ _
  case eret => exact execEret_turn
  case waitev => exact execWaitev_turn _ _
  case mbxrd => exact execMbxrd_turn _ _ _
  case mbxwr => exact execMbxwr_turn _ _ _
  case xinv => exact execXinv_turn _ _
  all_goals exact absurd hi Bool.false_ne_true

theorem execStepLimit_turn : Answers (TurnKeeps s) (execStepLimit s) := by
  unfold execStepLimit
  split
  · exact .next ((TurnKeeps.refl s).raise _ _)
  · exact .next (.refl s)

theorem execNonInstruction_turn : Answers (TurnKeeps s) (execNonInstruction s) := by
  unfold execNonInstruction
  split
  · exact .next ((TurnKeeps.refl s).raise _ _)
  · split
    · split
      · exact .next (.refl s)
      · exact .next ((TurnKeeps.refl s).raise _ _)
    · exact .next (.refl s)

/-! ## A turn -/

theorem TurnKeeps.count (h : TurnKeeps s t) (k : Nat) : TurnKeeps s (t.count k) := by
  unfold State.count
  dsimp only
  split
  · exact h
  · exact h.setElem (by rfl)

theorem stepElement_turn (k : Nat) : Answers (TurnKeeps s) (stepElement s k) := by
  have hc := (TurnKeeps.refl s).count k
  unfold stepElement
  split
  case h_1 | h_2 => exact .next (.refl s)
  all_goals
    split
    · exact execStepLimit_turn
    · split
      · rename_i hi
        exact fun u hu => hc.trans (exec_turn _ (State.fetch_isIsa hi) u hu)
      · exact fun u hu => hc.trans (execNonInstruction_turn u hu)

theorem stepController_turn (d : Nat) : Answers (TurnKeeps s) (stepController s d) := by
  unfold stepController
  split
  · split
    · rename_i hi
      exact exec_turn _ (State.fetch_isIsa hi)
    · exact execNonInstruction_turn
  · exact .next (.refl s)

theorem stepCore_turn : Answers (TurnKeeps s) (stepCore s) := by
  unfold stepCore
  split
  · exact stepElement_turn _
  · exact stepController_turn _

end

/-- Settles O32: with an empty agenda a step is a turn of the core in focus, and a turn keeps what it must. -/
theorem coreTurnKeepsMemories : Obligations.CoreTurnKeepsMemories := by
  rintro s u ⟨hagenda, hmem, hsram⟩ hu
  rw [step, hagenda] at hu
  have h := stepCore_turn u hu
  exact ⟨⟨h.agenda.trans hagenda, fun k => h.mem k (hmem k), fun d => h.sram d (hsram d)⟩, h.focus⟩

end Sys2Proof.Machine
end

section
/-! ## The bytes of HBM under a fold, an optional operation, a command and an answer -/

namespace Sys2Proof.Machine
open Host (Outcome)

/-- HBM is in canonical form. -/
def HbmWf (s : State) : Prop := Memory.wf s.phys = true

@[simp] theorem hbmWf_iff (s : State) : HbmWf s ↔ Memory.wf s.phys = true := Iff.rfl

/-- Every step of a fold leaves HBM as it is. -/
def PhysKept {α : Type} (f : State → α → State) : Prop := ∀ t a, (f t a).phys = t.phys

@[simp] theorem physKept_iff {α : Type} (f : State → α → State) : PhysKept f ↔ ∀ t a, (f t a).phys = t.phys := Iff.rfl

@[simp] theorem foldl_phys {α : Type} (f : State → α → State) (l : List α) (s : State) (hf : PhysKept f) :
    (l.foldl f s).phys = s.phys := by
  induction l generalizing s with
  | nil => rfl
  | cons a l ih => rw [List.foldl_cons, ih, hf]

theorem foldl_hbm {α : Type} {f : State → α → State} (hf : ∀ t a, HbmWf t → HbmWf (f t a)) (l : List α) {s : State}
    (h : HbmWf s) : HbmWf (l.foldl f s) := by
  induction l generalizing s with
  | nil => exact h
  | cons a l ih => exact ih (hf s a h)

@[simp] theorem State.phys_ite (c : Prop) [Decidable c] (s t : State) :
    (if c then s else t).phys = if c then s.phys else t.phys :=
  apply_ite State.phys c s t

/-- A state that an optional operation gives has the HBM of `s`. -/
def KeepsHbm (s : State) (o : Option State) : Prop := ∀ u, o = some u → u.phys = s.phys

@[simp] theorem keepsHbm_none (s : State) : KeepsHbm s none := fun _ h => nomatch h

@[simp] theorem keepsHbm_some (s u : State) : KeepsHbm s (some u) ↔ u.phys = s.phys :=
  ⟨fun h => h u rfl, fun h _ e => Option.some.inj e ▸ h⟩

@[simp] theorem keepsHbm_ite (s : State) (c : Prop) [Decidable c] (o p : Option State) :
    KeepsHbm s (if c then o else p) ↔ if c then KeepsHbm s o else KeepsHbm s p := by split <;> rfl

@[simp] theorem KeepsHbm.getD {s : State} {o : Option State} (h : KeepsHbm s o) : (o.getD s).phys = s.phys := by
  cases o with
  | none => rfl
  | some u => exact h u rfl

theorem KeepsHbm.trans {s t : State} {o : Option State} (h : KeepsHbm t o) (e : t.phys = s.phys) : KeepsHbm s o :=
  fun u hu => (h u hu).trans e

theorem KeepsHbm.map {s : State} {o : Option State} {f : State → State} (h : KeepsHbm s o) (hf : ∀ t, (f t).phys = t.phys) :
    KeepsHbm s (o.map f) := by
  cases o with
  | none => simp
  | some u => simpa [hf] using h

theorem KeepsHbm.foldl_bind {α : Type} {f : State → α → Option State} (hf : ∀ t a, KeepsHbm t (f t a)) (l : List α)
    {s : State} {o : Option State} (h : KeepsHbm s o) : KeepsHbm s (l.foldl (fun o a => o.bind fun t => f t a) o) := by
  induction l generalizing o with
  | nil => exact h
  | cons a l ih =>
    refine ih ?_
    cases o with
    | none => simp
    | some u => exact (hf u a).trans (h u rfl)

@[simp] theorem answers_ite (P : State → Prop) (c : Prop) [Decidable c] (o p : Out) :
    Answers P (if c then o else p) ↔ if c then Answers P o else Answers P p := by split <;> rfl

/-- A turn of a core keeps HBM as it is. -/
theorem Answers.hbm_of_turn {s : State} {o : Out} (h : Answers (TurnKeeps s) o) (hs : Memory.wf s.phys = true) :
    Answers HbmWf o := fun u hu => by simpa [(h u hu).phys] using hs

/-- The state that a stream command's result carries has `P`. -/
def Result.All (P : State → Prop) : Result → Prop
  | .fails _ t | .done _ t | .later _ _ t => P t
  | .wait => True

section
variable (P : State → Prop) (n : Nat) (u : State)
@[simp] theorem Result.all_fails : Result.All P (.fails n u) ↔ P u := Iff.rfl
@[simp] theorem Result.all_done : Result.All P (.done n u) ↔ P u := Iff.rfl
@[simp] theorem Result.all_later (l : List Nat) : Result.All P (.later n l u) ↔ P u := Iff.rfl
@[simp] theorem Result.all_wait : Result.All P .wait := trivial
@[simp] theorem Result.all_ite (c : Prop) [Decidable c] (r q : Result) :
    (if c then r else q).All P ↔ if c then r.All P else q.All P := by split <;> rfl
end

theorem KeepsHbm.bind_const {α : Type} {s : State} {o : Option α} {f : α → Option State} (hf : ∀ a, KeepsHbm s (f a)) :
    KeepsHbm s (o.bind f) := by
  cases o with
  | none => simp
  | some a => exact hf a

theorem KeepsHbm.orElse {s : State} {o p : Option State} (h : KeepsHbm s o) (hp : KeepsHbm s p) :
    KeepsHbm s (o.orElse fun _ => p) := by
  cases o with
  | none => exact hp
  | some u => exact h

theorem Result.All.ite {P : State → Prop} {c : Prop} [Decidable c] {r q : Result} (hr : r.All P) (hq : q.All P) :
    (if c then r else q).All P := by split <;> assumption

@[simp] theorem Answer.phys_ite (c : Prop) [Decidable c] (a b : Answer) :
    (if c then a else b).st.phys = if c then a.st.phys else b.st.phys := by split <;> rfl

@[simp] theorem gives_st (n : Nat) (s : State) : (gives n s).st = s := rfl

@[simp] theorem refuses_st (r : Refused) (s : State) : (refuses r s).st = s := rfl

end Sys2Proof.Machine
end

section
/-! ## What the fabric, the elements and the memory actors leave of HBM -/

namespace Sys2Proof.Machine
open Host (Outcome)
variable (s : State)

/-! ### The state’s own operations -/

@[simp] theorem State.countUe_phys (d : Nat) : (s.countUe d).phys = s.phys := rfl

@[simp] theorem State.mapLaunch_phys (colour : Nat) (f : Launch → Launch) :
    (s.mapLaunch colour f).phys = s.phys := rfl

@[simp] theorem State.sendPacket_phys (cls colour : Nat) (c : Cargo) (src dst : Loc) (via : Option Nat) :
    (s.sendPacket cls colour c src dst via).phys = s.phys := rfl

@[simp] theorem State.manage_phys (colour : Nat) (c : Cargo) (src dst : Loc) :
    (s.manage colour c src dst).phys = s.phys := rfl

@[simp] theorem State.report_phys (die colour load : Nat) (holds : Holds) (code : Nat) (origin : Origin) (pos slot : Nat) (w2 w3 : DWord) :
    (s.report die colour load holds code origin pos slot w2 w3).phys = s.phys := rfl

@[simp] theorem State.reportLoose_phys (k code : Nat) (tag : Word) (slot : Nat) (detail : DWord) :
    (s.reportLoose k code tag slot detail).phys = s.phys := rfl

@[simp] theorem State.undo_phys (k : Nat) : (s.undo k).phys = s.phys :=
  ((TurnKeeps.refl s).undo k).phys

@[simp] theorem State.abortFiring_keeps_phys (k code pc : Nat) (detail : DWord) :
    (s.abortFiring k code pc detail).phys = s.phys :=
  s.abortFiring_phys k code pc detail

@[simp] theorem State.raiseAt_phys (code : Nat) (addr detail : DWord) : (s.raiseAt code addr detail).phys = s.phys :=
  ((TurnKeeps.refl s).raiseAt code addr detail).phys

@[simp] theorem State.raise_phys (code : Nat) (detail : DWord) : (s.raise code detail).phys = s.phys := by
  simp [State.raise]

@[simp] theorem State.latch_phys (d bit : Nat) : (s.latch d bit).phys = s.phys := rfl

@[simp] theorem State.setBox_phys (d : Nat) (k : Fin 5) (l : List Rec) : (s.setBox d k l).phys = s.phys := rfl

@[simp] theorem State.bumpFree_phys : (s.bumpFree).phys = s.phys := rfl

/-! ### The operations of the core -/

@[simp] theorem State.mapBind_phys (src : Source) (colour load : Nat) (f : Bind → Bind) :
    (s.mapBind src colour load f).phys = s.phys := rfl

@[simp] theorem State.settlePort_phys (k i fuel : Nat) : (s.settlePort k i fuel).phys = s.phys :=
  ((TurnKeeps.refl s).settlePort k i fuel).phys

@[simp] theorem State.takePort_phys (k i : Nat) : (s.takePort k i).phys = s.phys :=
  ((TurnKeeps.refl s).takePort k i).phys

/-! ### Controllers -/

theorem execTimer_hbm (die : Nat) (h : Memory.wf s.phys = true) : Answers HbmWf (execTimer die s) := by
  simp [execTimer, h]

theorem State.putRec_phys (d : Nat) (k : Fin 5) (r : Rec) : KeepsHbm s (s.putRec d k r) := by
  simp [State.putRec]

@[simp] theorem State.headworksMail_phys (die : Nat) : (s.headworksMail die).phys = s.phys := by
  unfold State.headworksMail
  split
  · rfl
  · next x _ =>
    split
    · rfl
    · next t ht => exact s.putRec_phys die 1 x.2 t ht

theorem execMailboxDelivery_hbm (die k src : Nat) (h : Memory.wf s.phys = true) :
    Answers HbmWf (execMailboxDelivery die k src s) := by
  unfold execMailboxDelivery
  dsimp only
  repeat' split
  all_goals try simp [h]
  · next _ _ r _ _ t ht => simpa [s.putRec_phys _ _ _ t ht] using h
  · next _ _ _ r _ _ _ t ht => simpa [s.putRec_phys _ _ _ t ht] using h

theorem execFaultRecordDelivery_hbm (die : Nat) (h : Memory.wf s.phys = true) :
    Answers HbmWf (execFaultRecordDelivery die s) := by
  unfold execFaultRecordDelivery
  split
  · simpa using h
  · split
    · simpa using h
    · split
      · simpa using h
      · next t ht => simpa [s.putRec_phys _ _ _ t ht] using h

@[simp] theorem State.invalidate_phys (d : Nat) (i : Inval) : (s.invalidate d i).phys = s.phys := rfl

theorem execXinvAcknowledged_hbm (die acker : Nat) (h : Memory.wf s.phys = true) :
    Answers HbmWf (execXinvAcknowledged die acker s) := by
  unfold execXinvAcknowledged
  dsimp only
  split <;> simp [h]

/-! ### The fabric -/

@[simp] theorem State.setLink_phys (d l : Nat) (x : LinkState) : (s.setLink d l x).phys = s.phys := by
  unfold State.setLink
  split <;> simp

@[simp] theorem State.markSent_phys (src : Source) (load : Nat) (b : Bind) (t : Token) :
    (s.markSent src load b t).phys = s.phys := rfl

@[simp] theorem State.emit_phys (src : Source) (load : Nat) (t : Token) : (s.emit src load t).phys = s.phys := by
  unfold State.emit
  split <;> simp

@[simp] theorem State.mapChan_phys (d : Dest) (colour : Nat) (load : Option Nat) (f : Chan → Chan) :
    (s.mapChan d colour load f).phys = s.phys := rfl

@[simp] theorem State.tryEmit_phys (src : Source) (load : Nat) (t : Token) : KeepsHbm s (s.tryEmit src load t) := by
  unfold State.tryEmit
  split <;> simp

@[simp] theorem State.tryEmits_phys (t : Token) (xs : List (Source × Nat)) : KeepsHbm s (s.tryEmits t xs) :=
  KeepsHbm.foldl_bind (fun u x => u.tryEmit_phys x.1 x.2 t) xs (by simp)

@[simp] theorem State.spillWrite_hbm (pa : Nat) (t : Token) (h : Memory.wf s.phys = true) :
    Memory.wf (s.spillWrite pa t).phys = true := Memory.wf_write _ _ _ _ h

@[simp] theorem State.mapChannel_phys (colour chan : Nat) (load : Option Nat) (f : Chan → Chan) :
    (s.mapChannel colour chan load f).phys = s.phys := rfl

@[simp] theorem State.spillRead_phys (d : Dest) (colour : Nat) (load : Option Nat) :
    (s.spillRead d colour load).phys = s.phys := by
  unfold State.spillRead
  split
  · rfl
  · split
    · rfl
    · split <;> simp

@[simp] theorem State.spillPacket_phys (c : Chan) (g : Cargo) : (s.spillPacket c g).phys = s.phys := rfl

@[simp] theorem State.askSpilled_phys (d : Dest) (colour : Nat) (load : Option Nat) :
    (s.askSpilled d colour load).phys = s.phys := by
  unfold State.askSpilled
  split <;> simp

@[simp] theorem State.popChan_phys (d : Dest) (colour : Nat) (load : Option Nat) (f : Chan → Chan) :
    (s.popChan d colour load f).phys = s.phys := by
  simp [State.popChan]

theorem execSpillWrite_hbm (dest : Dest) (colour : Nat) (failed : Bool) (h : Memory.wf s.phys = true) :
    Answers HbmWf (execSpillWrite dest colour failed s) := by
  unfold execSpillWrite
  split <;> simp [h]

theorem State.spillPerform_hbm (d : Dest) (colour : Nat) (load : Option Nat) (failed : Bool) (h : Memory.wf s.phys = true) :
    Memory.wf (s.spillPerform d colour load failed).phys = true := by
  unfold State.spillPerform
  split
  · exact h
  · dsimp only
    split
    · next off t _ _ =>
      have hw := s.spillWrite_hbm (s.spillAddr d.die off) t h
      split
      · rw [State.report_phys, State.mapChannel_phys]
        exact h
      · split
        · rw [State.askSpilled_phys, State.mapChan_phys]
          exact hw
        · rw [State.mapChan_phys]
          exact hw
    · exact h

theorem State.arrive_hbm (i : Nat) (h : Memory.wf s.phys = true) : Memory.wf (s.arrive i).phys = true := by
  unfold State.arrive
  split
  · exact h
  · split
    · dsimp only
      split
      · exact h
      · exact State.spillPerform_hbm _ _ _ _ _ h
      · simpa using h
      · exact h
      · exact h
    · exact h

@[simp] theorem State.linkHolds_phys (d l colour : Nat) : (s.linkHolds d l colour).phys = s.phys := by
  unfold State.linkHolds
  dsimp only
  repeat' split
  all_goals simp

theorem execPacketForward_hbm (i : Nat) (hop : Loc) (h : Memory.wf s.phys = true) :
    Answers HbmWf (execPacketForward i hop s) := by
  unfold execPacketForward
  dsimp only
  repeat' split
  all_goals simp [h]

theorem execEscapeSubchannel_hbm (i : Nat) (h : Memory.wf s.phys = true) :
    Answers HbmWf (execEscapeSubchannel i s) := by
  unfold execEscapeSubchannel
  split <;> simp [h]

theorem execLink_hbm (die link : Nat) (h : Memory.wf s.phys = true) : Answers HbmWf (execLink die link s) := by
  unfold execLink
  dsimp only
  repeat' split
  all_goals simp [h]

@[simp] theorem State.degrade_phys (die link : Nat) : (s.degrade die link).phys = s.phys := by
  unfold State.degrade
  split <;> simp

theorem execLaneLoss_hbm (die link : Nat) (h : Memory.wf s.phys = true) :
    Answers HbmWf (execLaneLoss die link s) := by
  simp [execLaneLoss, h]

theorem execLaneRetrain_hbm (die link : Nat) (degrades : Bool) (h : Memory.wf s.phys = true) :
    Answers HbmWf (execLaneRetrain die link degrades s) := by
  simp [execLaneRetrain, h]

/-! ### Fetching -/

theorem execNonInstruction_hbm (h : Memory.wf s.phys = true) : Answers HbmWf (execNonInstruction s) :=
  execNonInstruction_turn.hbm_of_turn h

theorem execStepLimit_hbm (h : Memory.wf s.phys = true) :
    Answers HbmWf (execStepLimit s) := execStepLimit_turn.hbm_of_turn h

/-! ### Streams and units -/

theorem execStreamReadResume_hbm (die pos : Nat) (h : Memory.wf s.phys = true) :
    Answers HbmWf (execStreamReadResume die pos s) := by
  simp [execStreamReadResume, h]

theorem execGeneratorRead_hbm (die pos : Nat) (g : Fin 3) (h : Memory.wf s.phys = true) :
    Answers HbmWf (execGeneratorRead die pos g s) := by
  simp [execGeneratorRead, h]

theorem execGeneratorWrite_hbm (die pos : Nat) (g : Fin 3) (h : Memory.wf s.phys = true) :
    Answers HbmWf (execGeneratorWrite die pos g s) := by
  unfold execGeneratorWrite
  dsimp only
  split <;> simp [h]

@[simp] theorem State.asyncFault_phys (k code : Nat) (detail : DWord) : (s.asyncFault k code detail).phys = s.phys := by
  unfold State.asyncFault
  dsimp only
  split <;> simp

@[simp] theorem State.drainError_phys (k : Nat) (g : Fin 3) : (s.drainError k g).phys = s.phys := by
  simp [State.drainError]

@[simp] theorem State.drainEnds_phys (k : Nat) (g : Fin 3) : (s.drainEnds k g).phys = s.phys := by
  simp [State.drainEnds]

theorem execDrainToken_hbm (die pos : Nat) (g : Fin 3) (h : Memory.wf s.phys = true) :
    Answers HbmWf (execDrainToken die pos g s) := by
  unfold execDrainToken
  dsimp only
  repeat' split
  all_goals simp [h]

/-! ### Matching -/

@[simp] theorem State.defer_phys (k : Nat) (why : Park) : (s.defer k why).phys = s.phys :=
  ((TurnKeeps.refl s).defer k why).phys

@[simp] theorem State.setAsk_phys (k : Nat) (a : CtxAsk) : (s.setAsk k a).phys = s.phys := rfl

theorem execDeferralLimit_hbm (why : DeferKind) (h : Memory.wf s.phys = true) :
    Answers HbmWf (execDeferralLimit why s) := by
  unfold execDeferralLimit onElement
  split
  · dsimp only
    repeat' split
    all_goals simp [h]
  · simpa using h

/-! ### Firings -/

@[simp] theorem State.matchPort_phys (k i : Nat) : (s.matchPort k i).phys = s.phys := by
  unfold State.matchPort
  dsimp only
  repeat' split
  all_goals simp

@[simp] theorem State.checkMatch_phys (k : Nat) : (s.checkMatch k).phys = s.phys :=
  ((TurnKeeps.refl s).checkMatch k).phys

theorem execMatchToken_hbm (die pos : Nat) (h : Memory.wf s.phys = true) :
    Answers HbmWf (execMatchToken die pos s) := by
  simp [execMatchToken, h]

theorem execRunQueueJoin_hbm (die pos : Nat) (h : Memory.wf s.phys = true) :
    Answers HbmWf (execRunQueueJoin die pos s) := by
  unfold execRunQueueJoin
  dsimp only
  repeat' split
  all_goals simp [h]

theorem execEndFiringReady_hbm (die pos slot : Nat) (h : Memory.wf s.phys = true) :
    Answers HbmWf (execEndFiringReady die pos slot s) := by
  simp [execEndFiringReady, h]

@[simp] theorem State.entryFault_phys (k : Nat) : (s.entryFault k).phys = s.phys := by
  unfold State.entryFault
  dsimp only
  repeat' split
  all_goals simp

theorem execDispatch_hbm (die pos : Nat) (h : Memory.wf s.phys = true) : Answers HbmWf (execDispatch die pos s) := by
  unfold execDispatch
  dsimp only
  repeat' split
  all_goals simp [h]

@[simp] theorem State.commit_phys (k : Nat) : (s.commit k).phys = s.phys :=
  ((TurnKeeps.refl s).commit k).phys

theorem execFiringCommit_hbm (die pos : Nat) (h : Memory.wf s.phys = true) :
    Answers HbmWf (execFiringCommit die pos s) := by
  simp [execFiringCommit, h]

@[simp] theorem State.retire_phys (k a : Nat) (t : Token) : (s.retire k a t).phys = s.phys := by
  unfold State.retire
  dsimp only
  repeat' split
  all_goals simp

theorem execRetireToken_hbm (die pos port : Nat) (h : Memory.wf s.phys = true) :
    Answers HbmWf (execRetireToken die pos port s) := by
  unfold execRetireToken
  dsimp only
  split <;> simp [h]

theorem execFreeNotice_hbm (i : Nat) (h : Memory.wf s.phys = true) : Answers HbmWf (execFreeNotice i s) := by
  unfold execFreeNotice
  split <;> simp [h]

@[simp] theorem State.sluiceStall_phys (k : Nat) : (s.sluiceStall k).phys = s.phys := by
  simp [State.sluiceStall]

theorem execSluiceReply_hbm (die pool : Nat) (h : Memory.wf s.phys = true) :
    Answers HbmWf (execSluiceReply die pool s) := by
  unfold execSluiceReply
  dsimp only
  split <;> simp [h]

@[simp] theorem State.portDrains_phys (k i : Nat) : (s.portDrains k i).phys = s.phys := by
  simp [State.portDrains]

@[simp] theorem State.releaseToPort_phys (d : Dest) (colour : Nat) : (s.releaseToPort d colour).phys = s.phys := by
  unfold State.releaseToPort
  dsimp only
  repeat' split
  all_goals simp

@[simp] theorem State.leave_phys (c : Chan) (t : Token) : (s.leave c t).phys = s.phys := by
  unfold State.leave
  dsimp only
  repeat' split
  all_goals simp

@[simp] theorem State.releaseToOutfall_phys (d : Dest) (colour : Nat) : (s.releaseToOutfall d colour).phys = s.phys := by
  unfold State.releaseToOutfall
  repeat' split
  all_goals simp

@[simp] theorem State.reportWeir_phys (d : Dest) (colour : Nat) (load : Option Nat) :
    (s.reportWeir d colour load).phys = s.phys := by
  unfold State.reportWeir
  split <;> simp

theorem execTokenArrival_hbm (a : Arrival) (h : Memory.wf s.phys = true) : Answers HbmWf (execTokenArrival a s) := by
  unfold execTokenArrival
  split
  · split
    · exact .next h
    · simpa using s.arrive_hbm _ h
  · split <;> simp [h]

/-! ### Physical memory -/

@[simp] theorem State.setRetired_phys (pa v : Nat) : (s.setRetired pa v).phys = s.phys := by
  obtain ⟨x, hx⟩ : ∃ x, s.setRetired pa v = { s with hw := x } := ⟨_, rfl⟩
  rw [hx]

theorem State.putGranule_hbm (pa : Nat) {m : Mem} (written : Bool) (hm : Memory.wf m = true) (h : Memory.wf s.phys = true) :
    Memory.wf (s.putGranule pa m written).phys = true := by
  unfold State.putGranule
  split
  · simpa using h
  · exact hm

theorem State.granuleMem_wf (pa : Nat) (h : Memory.wf s.phys = true) : Memory.wf (s.granuleMem pa) = true := by
  unfold State.granuleMem
  split
  · exact Memory.wf_write _ _ _ _ rfl
  · exact h

theorem performAt_wf (c : MaCfg) {m : Mem} (r : Req) (g pa : Nat) (h : Memory.wf m = true) :
    Memory.wf (performAt c m r g pa).1 = true := by
  unfold performAt
  dsimp only
  split
  · exact h
  · exact Memory.wf_write _ _ _ _ h
  · exact Memory.wf_write _ _ _ _ h

/-! ### Memory actors -/

@[simp] theorem State.maPop_phys (die slot i : Nat) : (s.maPop die slot i).phys = s.phys := by
  unfold State.maPop
  split <;> simp

@[simp] theorem State.mapMa_phys (die slot : Nat) (f : MemActor → MemActor) :
    (s.mapMa die slot f).phys = s.phys := rfl

@[simp] theorem State.stallMa_phys (die slot : Nat) (kind : StallKind) (code : Nat) (tag : Word) (index : Nat) (w3 : DWord) :
    (s.stallMa die slot kind code tag index w3).phys = s.phys := rfl

@[simp] theorem State.takeAddr_phys (die slot : Nat) : (s.takeAddr die slot).phys = s.phys := by
  simp [State.takeAddr]

@[simp] theorem State.reqMarker_phys (die slot : Nat) (t : Token) : (s.reqMarker die slot t).phys = s.phys := by
  unfold State.reqMarker
  split <;> simp

@[simp] theorem State.formRead_phys (die slot : Nat) : (s.formRead die slot).phys = s.phys := by
  unfold State.formRead
  split <;> simp

@[simp] theorem State.formWrite_phys (die slot : Nat) : (s.formWrite die slot).phys = s.phys := by
  unfold State.formWrite
  split <;> simp

@[simp] theorem State.countBad_phys (die pa : Nat) : (s.countBad die pa).phys = s.phys := rfl

@[simp] theorem State.sendRequest_phys (die slot : Nat) (r : Req) : (s.sendRequest die slot r).phys = s.phys := by
  simp [State.sendRequest]

@[simp] theorem State.answerBlock_phys (die slot : Nat) (r : Req) (g : Nat) :
    (s.answerBlock die slot r g).phys = s.phys := by
  simp [State.answerBlock]

@[simp] theorem State.issueCur_phys (die slot : Nat) (r : Req) : (s.issueCur die slot r).phys = s.phys := by
  unfold State.issueCur
  dsimp only
  repeat' split
  all_goals simp

theorem execMemoryRequestIssue_hbm (die slot : Nat) (h : Memory.wf s.phys = true) :
    Answers HbmWf (execMemoryRequestIssue die slot s) := by
  unfold execMemoryRequestIssue
  dsimp only
  repeat' split
  all_goals simp [h]

@[simp] theorem State.walkEnds_phys (die slot : Nat) : (s.walkEnds die slot).phys = s.phys := by
  unfold State.walkEnds
  dsimp only
  repeat' split
  all_goals simp

theorem execAddressTranslation_hbm (die slot : Nat) (h : Memory.wf s.phys = true) :
    Answers HbmWf (execAddressTranslation die slot s) := by
  unfold execAddressTranslation
  dsimp only
  repeat' split
  all_goals simp [h]

theorem execStartToken_hbm (die slot : Nat) (h : Memory.wf s.phys = true) :
    Answers HbmWf (execStartToken die slot s) := by
  unfold execStartToken
  dsimp only
  repeat' split
  all_goals simp [h]

theorem execAfterToken_hbm (die slot : Nat) (h : Memory.wf s.phys = true) :
    Answers HbmWf (execAfterToken die slot s) := by
  unfold execAfterToken
  split <;> simp [h]

@[simp] theorem State.badUnit_phys (die slot : Nat) : (s.badUnit die slot).phys = s.phys := rfl

@[simp] theorem State.dataToken'_phys (die slot : Nat) (t : Token) : (s.dataToken' die slot t).phys = s.phys := by
  unfold State.dataToken'
  split <;> simp

@[simp] theorem State.cmpToken_phys (die slot : Nat) (t : Token) : (s.cmpToken die slot t).phys = s.phys := by
  simp [State.cmpToken]

theorem execWriteDataToken_hbm (die slot : Nat) (h : Memory.wf s.phys = true) :
    Answers HbmWf (execWriteDataToken die slot s) := by
  unfold execWriteDataToken
  dsimp only
  repeat' split
  all_goals simp [h]

@[simp] theorem State.failReq_phys (die slot : Nat) (r : Req) (code : Nat) (w3 : DWord) :
    (s.failReq die slot r code w3).phys = s.phys := rfl

@[simp] theorem State.performPeer_phys (die slot g : Nat) (r : Req) : (s.performPeer die slot g r).phys = s.phys := by
  unfold State.performPeer
  dsimp only
  split <;> simp

theorem State.performGranule_hbm (die slot g : Nat) (r : Req) (h : Memory.wf s.phys = true) :
    Memory.wf (s.performGranule die slot g r).phys = true := by
  unfold State.performGranule
  dsimp only
  split
  · simpa using h
  · split
    · split <;> simp [h]
    · exact State.putGranule_hbm _ _ _ (performAt_wf _ _ _ _ (s.granuleMem_wf _ h)) (by simpa using h)

theorem execMemoryPerform_hbm (die slot index granule : Nat) (h : Memory.wf s.phys = true) :
    Answers HbmWf (execMemoryPerform die slot index granule s) := by
  unfold execMemoryPerform
  split
  · exact .next h
  · split
    · exact .next (s.performGranule_hbm _ _ _ _ h)
    · exact .next h

@[simp] theorem State.endMa_phys (die slot : Nat) : (s.endMa die slot).phys = s.phys := by
  simp [State.endMa]

@[simp] theorem State.respond_phys (die slot : Nat) : (s.respond die slot).phys = s.phys := by
  unfold State.respond
  dsimp only
  repeat' split
  all_goals try simp
  · next u hu => exact s.tryEmit_phys _ _ _ u hu
  · next u hu => exact s.tryEmit_phys _ _ _ u hu

theorem execMemoryResponse_hbm (die slot : Nat) (h : Memory.wf s.phys = true) :
    Answers HbmWf (execMemoryResponse die slot s) := by
  simp [execMemoryResponse, h]

theorem execStoreAcknowledgement_hbm (die slot index : Nat) (h : Memory.wf s.phys = true) :
    Answers HbmWf (execStoreAcknowledgement die slot index s) := by
  unfold execStoreAcknowledgement
  dsimp only
  split <;> simp [h]

@[simp] theorem State.complete_phys (die slot : Nat) : (s.complete die slot).phys = s.phys := by
  unfold State.complete
  dsimp only
  repeat' split
  all_goals try simp
  · next u hu => exact s.tryEmit_phys _ _ _ u hu
  · next u hu => exact s.tryEmit_phys _ _ _ u hu

theorem execCompletionSegment_hbm (die slot : Nat) (h : Memory.wf s.phys = true) :
    Answers HbmWf (execCompletionSegment die slot s) := by
  simp [execCompletionSegment, h]

@[simp] theorem State.reissue_phys (die slot : Nat) (r : Req) : (s.reissue die slot r).phys = s.phys := by
  unfold State.reissue
  dsimp only
  split
  · next t ht =>
    obtain ⟨w, -, hw⟩ := List.exists_of_findSome?_eq_some ht
    split at hw
    · simp at hw
    · exact Option.some.inj hw ▸ s.stallMa_phys ..
    · exact Option.some.inj hw ▸ (State.countBad_phys ..).trans (s.stallMa_phys ..)
  · split <;> simp

@[simp] theorem State.raiseAgain_phys (die slot : Nat) (x : Stall) : (s.raiseAgain die slot x).phys = s.phys := rfl

@[simp] theorem State.resumeMa_phys (die slot : Nat) (x : Stall) : (s.resumeMa die slot x).phys = s.phys := by
  unfold State.resumeMa
  dsimp only
  repeat' split
  all_goals simp

@[simp] theorem State.skipBadUnit_phys (die slot : Nat) : (s.skipBadUnit die slot).phys = s.phys := by
  simp [State.skipBadUnit]

@[simp] theorem State.skipMa_phys (die slot : Nat) (x : Stall) : (s.skipMa die slot x).phys = s.phys := by
  unfold State.skipMa
  split <;> simp

@[simp] theorem State.substCur_phys (die slot : Nat) (v : DWord) : (s.substCur die slot v).phys = s.phys := rfl

@[simp] theorem State.formNext_phys (die slot : Nat) : (s.formNext die slot).phys = s.phys := by
  unfold State.formNext
  split <;> simp

@[simp] theorem State.substMa_phys (die slot : Nat) (x : Stall) (v : DWord) :
    (s.substMa die slot x v).phys = s.phys := by
  unfold State.substMa
  split <;> simp

@[simp] theorem State.repairMa_phys (die slot : Nat) (kind : RepairKind) (v : DWord) :
    (s.repairMa die slot kind v).2.phys = s.phys := by
  unfold State.repairMa
  dsimp only
  repeat' split
  all_goals simp

theorem execMemoryActorWeir_hbm (die slot : Nat) (h : Memory.wf s.phys = true) :
    Answers HbmWf (execMemoryActorWeir die slot s) := by
  unfold execMemoryActorWeir
  dsimp only
  repeat' split
  all_goals try simp [h]
  next u hu => simpa [s.tryEmits_phys _ _ u hu] using h

/-! ### Nodes -/

@[simp] theorem State.nodePop_phys (die node i : Nat) : (s.nodePop die node i).phys = s.phys := by
  unfold State.nodePop
  split <;> simp

@[simp] theorem State.nodeEmit_phys (die node : Nat) (outs : List Nat) (t : Token) :
    KeepsHbm s (s.nodeEmit die node outs t) :=
  s.tryEmits_phys _ _

@[simp] theorem State.nodeFault_phys (die node : Nat) : (s.nodeFault die node).phys = s.phys := rfl

@[simp] theorem State.nodeWeir_phys (die node : Nat) (outs : List Nat) : KeepsHbm s (s.nodeWeir die node outs) :=
  KeepsHbm.map (s.nodeEmit_phys _ _ _ _) fun _ => by simp

@[simp] theorem State.turnoutPred_phys (die node : Nat) (p : Token) : KeepsHbm s (s.turnoutPred die node p) := by
  unfold State.turnoutPred
  split <;> simp

@[simp] theorem State.turnoutData_phys (die node : Nat) (t : Token) : KeepsHbm s (s.turnoutData die node t) := by
  unfold State.turnoutData
  dsimp only
  repeat' split
  all_goals try simp
  · exact KeepsHbm.map (s.nodeEmit_phys _ _ _ _) fun _ => by simp
  · exact KeepsHbm.map (s.nodeEmit_phys _ _ _ _) fun _ => by simp

@[simp] theorem State.turnoutClose_phys (die node : Nat) : KeepsHbm s (s.turnoutClose die node) := by
  unfold State.turnoutClose
  dsimp only
  split
  · exact KeepsHbm.map (s.nodeEmit_phys _ _ _ _) fun _ => by simp
  · simp

theorem execTurnoutPair_hbm (die node : Nat) (h : Memory.wf s.phys = true) :
    Answers HbmWf (execTurnoutPair die node s) := by
  have hpred : KeepsHbm s ((s.nodeHead die node 1).bind fun p => s.turnoutPred die node p) :=
    .bind_const fun p => s.turnoutPred_phys die node p
  have hdata : KeepsHbm s ((s.nodeHead die node 0).bind fun t => s.turnoutData die node t) :=
    .bind_const fun t => s.turnoutData_phys die node t
  unfold execTurnoutPair
  dsimp only
  split
  · simpa using h
  · split
    · simpa [s.nodeWeir_phys .., KeepsHbm.getD] using h
    · refine .next ?_
      rw [HbmWf, ((hpred.orElse hdata).orElse (s.turnoutClose_phys die node)).getD]
      exact h

theorem execUnorderedConfluence_hbm (die node input : Nat) (h : Memory.wf s.phys = true) :
    Answers HbmWf (execUnorderedConfluence die node input s) := by
  unfold execUnorderedConfluence
  dsimp only
  repeat' split
  all_goals try simpa using h
  next t _ =>
    simpa [((s.nodeEmit_phys die node [0] t).map fun u => u.nodePop_phys die node input).getD] using h

@[simp] theorem State.flushOut_phys (die node fuel : Nat) : (s.flushOut die node fuel).phys = s.phys := by
  induction fuel generalizing s with
  | zero => rfl
  | succ fuel ih =>
    rw [State.flushOut]
    split
    · rfl
    · split
      · rfl
      · next u hu => rw [ih, State.setNode_phys, s.nodeEmit_phys _ _ _ _ u hu]

@[simp] theorem State.placeToken_phys (die node input : Nat) (x : Token) :
    (s.placeToken die node input x).phys = s.phys := by
  unfold State.placeToken
  dsimp only
  split
  · simp
  · split
    · rfl
    · next u hu => simpa using s.nodeEmit_phys _ _ _ _ u hu
  · simp

@[simp] theorem State.confluenceClose_phys (die node : Nat) : (s.confluenceClose die node).phys = s.phys := by
  unfold State.confluenceClose
  dsimp only
  split
  · exact (KeepsHbm.map (s.nodeEmit_phys _ _ _ _) fun _ => by simp).getD
  · rfl

theorem execOrderedConfluence_hbm (die node input : Nat) (h : Memory.wf s.phys = true) :
    Answers HbmWf (execOrderedConfluence die node input s) := by
  unfold execOrderedConfluence
  dsimp only
  repeat' split
  all_goals simp [h]

end Sys2Proof.Machine
end

section
/-! ## What loads, repairs, stream commands and cuts leave of HBM -/

namespace Sys2Proof.Machine
open Host (Outcome)
variable (s : State)

/-! ### Loads -/

@[simp] theorem State.mapElems_phys (die : Nat) (f : Element → Element) (ps : List Nat) :
    (s.mapElems die f ps).phys = s.phys := by
  simp [State.mapElems]

@[simp] theorem State.mapMas_phys (die : Nat) (f : MemActor → MemActor) (ns : List Nat) :
    (s.mapMas die f ns).phys = s.phys := by
  simp [State.mapMas]

@[simp] theorem State.mapNodes_phys (die : Nat) (f : Node → Node) (ns : List Nat) :
    (s.mapNodes die f ns).phys = s.phys := by
  simp [State.mapNodes]

@[simp] theorem State.commitEnds_phys (die colour load : Nat) (ps : Option (List Nat)) :
    (s.commitEnds die colour load ps).phys = s.phys := rfl

@[simp] theorem State.dropEnds_phys (die colour : Nat) (load : Option Nat) :
    (s.dropEnds die colour load).phys = s.phys := rfl

@[simp] theorem State.commitLoad_phys (die colour load : Nat) (ps : List Nat) (one : Bool) :
    (s.commitLoad die colour load ps one).phys = s.phys := by
  simp [State.commitLoad]

@[simp] theorem State.dropStaging_phys (die colour load : Nat) : (s.dropStaging die colour load).phys = s.phys := by
  simp [State.dropStaging]

@[simp] theorem State.stopElement_phys (k : Nat) : (s.stopElement k).phys = s.phys := by
  simp [State.stopElement]

@[simp] theorem State.stopMa_phys (die slot : Nat) : (s.stopMa die slot).phys = s.phys := rfl

@[simp] theorem State.dropHeld_phys (die colour : Nat) : (s.dropHeld die colour).phys = s.phys := rfl

@[simp] theorem State.abortLoad_phys (die colour load : Nat) : (s.abortLoad die colour load).phys = s.phys := by
  have hstop (k : Nat) : PhysKept fun (t : State) p => t.stopElement (elemKey k p) := fun t p => by simp
  have hma : PhysKept fun (t : State) i => t.stopMa die i := fun t p => by simp
  unfold State.abortLoad
  dsimp only
  rw [State.dropEnds_phys, State.dropEnds_phys, State.dropHeld_phys, foldl_phys _ _ _ hma, State.mapNodes_phys,
    foldl_phys _ _ _ (hstop die)]
  split <;> simp

@[simp] theorem State.saveHead_phys (colour key : Nat) : (s.saveHead colour key).phys = s.phys := by
  simp [State.saveHead]

@[simp] theorem State.saveOut_phys (colour key : Nat) : (s.saveOut colour key).phys = s.phys := by
  simp [State.saveOut]

@[simp] theorem State.saveGatesOf_phys (colour : Nat) (keys : List Nat) :
    (s.saveGatesOf colour keys).phys = s.phys := by
  simp [State.saveGatesOf]

@[simp] theorem State.grantPlots_phys (die colour : Nat) (r : Rect) : (s.grantPlots die colour r).phys = s.phys := by
  simp [State.grantPlots]

theorem clearGate_phys (die colour : Nat) : PhysKept fun (t : State) n =>
    let h := t.head (die * 16 + n)
    let o := t.out (die * 16 + n)
    let t := if h.colour = some colour then t.setHead (die * 16 + n) { h with colour := none } else t
    if o.colour = some colour then
      t.setOut (die * 16 + n) { o with colour := none, peer := none, weired := false, subst := none, selected := none } else t := by
  intro t n
  dsimp only
  split <;> simp

@[simp] theorem State.freeRegion_phys (die colour : Nat) : (s.freeRegion die colour).phys = s.phys := by
  unfold State.freeRegion
  dsimp only
  rw [State.setStaging_phys]
  dsimp only
  rw [foldl_phys _ _ _ fun _ _ => State.setPlot_phys .., foldl_phys _ _ _ (clearGate_phys die colour), State.mapMas_phys,
    State.mapNodes_phys, State.mapElems_phys]

@[simp] theorem State.idleGates_phys (colour : Nat) : (s.idleGates colour).phys = s.phys := rfl

@[simp] theorem State.abortLoads_phys (l : Launch) : (s.abortLoads l).phys = s.phys := by
  simp [State.abortLoads]

@[simp] theorem State.abortLaunch_phys (colour : Nat) (detail : DWord × DWord) :
    (s.abortLaunch colour detail).phys = s.phys := by
  unfold State.abortLaunch
  split <;> simp

@[simp] theorem State.failLaunch_phys (l : Launch) : (s.failLaunch l).phys = s.phys := by
  simp [State.failLaunch]

/-! ### Faults and repair -/

@[simp] theorem State.closeFault_phys (die pos slot : Nat) (tag : Word) (isMa : Bool) :
    (s.closeFault die pos slot tag isMa).phys = s.phys := rfl

@[simp] theorem State.repairEntry_phys (k p : Nat) (en : Entry) (kind : RepairKind) (v : DWord) :
    (s.repairEntry k p en kind v).2.phys = s.phys := by
  unfold State.repairEntry
  dsimp only
  repeat' split
  all_goals simp

@[simp] theorem State.closeSlot_phys (k slot : Nat) : KeepsHbm s (s.closeSlot k slot) := s.tryEmits_phys _ _

@[simp] theorem State.repairEnd_phys (k slot : Nat) (kind : RepairKind) : (s.repairEnd k slot kind).2.phys = s.phys := by
  unfold State.repairEnd
  dsimp only
  split
  · simp
  · split
    · next t ht => simpa using s.closeSlot_phys k slot t ht
    · rfl
  · rfl
  · simp

@[simp] theorem State.repairElement_phys (k slot : Nat) (tag : Word) (kind : RepairKind) (v : DWord) :
    (s.repairElement k slot tag kind v).2.phys = s.phys := by
  unfold State.repairElement
  dsimp only
  repeat' split
  all_goals simp

@[simp] theorem State.repair_phys (die pos slot : Nat) (tag : Word) (isMa : Bool) (kind : RepairKind) (v : DWord) :
    (s.repair die pos slot tag isMa kind v).2.phys = s.phys := by
  unfold State.repair
  dsimp only
  repeat' split
  all_goals simp

@[simp] theorem State.tokenSent_phys (i : Nat) (x : LeveeRec) : (s.tokenSent i x).phys = s.phys := rfl

@[simp] theorem State.toController_phys (i : Nat) (x : LeveeRec) : (s.toController i x).phys = s.phys := by
  simp [State.toController]

theorem execFaultToken_hbm (die : Nat) (h : Memory.wf s.phys = true) : Answers HbmWf (execFaultToken die s) := by
  unfold execFaultToken
  repeat' split
  all_goals try simp [h]
  next t ht => simpa [s.tryEmit_phys _ _ _ t ht] using h

@[simp] theorem State.sendRepair_phys (colour : Nat) (req : Token) (subst : DWord) :
    (s.sendRepair colour req subst).phys = s.phys := rfl

@[simp] theorem State.takeOut_phys (c : Chan) (t : Token) : (s.takeOut c t).phys = s.phys := by
  simp [State.takeOut]

theorem execRepairRequest_hbm (colour : Nat) (h : Memory.wf s.phys = true) :
    Answers HbmWf (execRepairRequest colour s) := by
  unfold execRepairRequest
  dsimp only
  repeat' split
  all_goals simp [h]

@[simp] theorem State.applyRepair_phys (r : RepairTok) : (s.applyRepair r).2.phys = s.phys := by
  unfold State.applyRepair
  repeat' split
  all_goals simp

theorem execRepairToken_hbm (i : Nat) (h : Memory.wf s.phys = true) : Answers HbmWf (execRepairToken i s) := by
  unfold execRepairToken
  split <;> simp [h]

/-! ### Stream commands -/

@[simp] theorem State.setPhase_phys (die ticket : Nat) (p : TicketPhase) :
    (s.setPhase die ticket p).phys = s.phys := rfl

@[simp] theorem State.finish_phys (die ticket code status value : Nat) :
    (s.finish die ticket code status value).phys = s.phys := rfl

theorem State.post_hbm (die ticket code : Nat) {r : Result} (h : r.All HbmWf) (hs : Memory.wf s.phys = true) :
    Memory.wf (s.post die ticket code r).phys = true := by
  cases r with
  | fails n t => simpa [State.post] using h
  | done v t => simpa [State.post] using h
  | later v ps t => simpa [State.post] using h
  | wait => exact hs

theorem State.runCmd_hbm (c : Cmd) (ok : Bool) {eff : Nat → Result} (heff : ∀ d, (eff d).All HbmWf)
    (h : Memory.wf s.phys = true) : (s.runCmd c ok eff).All HbmWf := by
  unfold State.runCmd
  split
  · exact h
  · split
    · exact h
    · exact heff _

/-- A stream command keeps HBM canonical when its effect does. -/
theorem command_hbm {die ticket : Nat} {mine ok : Cmd → Bool} {eff : State → Cmd → Nat → Result} (h : Memory.wf s.phys = true)
    (heff : ∀ (u : State) c d, Memory.wf u.phys = true → (eff u c d).All HbmWf) :
    Answers HbmWf (command die ticket mine ok eff s) := by
  have hu : Memory.wf (s.consume (isCommand die ticket)).phys = true := by simpa using h
  unfold command
  split
  · exact .next h
  · dsimp only
    split
    · have hr := State.runCmd_hbm _ (cmdOf die ‹_›) (ok (cmdOf die ‹_›)) (fun d => heff _ (cmdOf die ‹_›) d hu) hu
      split
      · exact .next h
      · exact .next (State.post_hbm _ _ _ _ hr hu)
    · exact .next h

@[simp] theorem State.retarget_phys (colour : Nat) (ports : List Nat) (a b : Nat) :
    (s.retarget colour ports a b).phys = s.phys := rfl

@[simp] theorem State.trimDepths_phys (die colour load : Nat) (chans : List Nat) :
    (s.trimDepths die colour load chans).phys = s.phys := rfl

@[simp] theorem State.cancelMove_phys (x : Move × Nat × Nat × Nat) : (s.cancelMove x).phys = s.phys := rfl

@[simp] theorem State.cancelMoves_phys (d colour : Nat) : (s.cancelMoves d colour).phys = s.phys := by
  simp [State.cancelMoves]

/-! ### Configuration commands -/

@[simp] theorem State.dropOpen_phys (d colour : Nat) : (s.dropOpen d colour).phys = s.phys := by
  simp [State.dropOpen]

@[simp] theorem State.fetchFault_phys (d colour : Nat) : (s.fetchFault d colour).phys = s.phys := by
  unfold State.fetchFault
  dsimp only
  split <;> simp

@[simp] theorem State.countStore_phys : (s.countStore).phys = s.phys := rfl

theorem State.cfgBytes_hbm (c : Cmd) (d : Nat) {r : Result} (hr : s.cfgBytes c d = .inr r) (h : Memory.wf s.phys = true) :
    r.All HbmWf := by
  unfold State.cfgBytes at hr
  dsimp only at hr
  repeat' split at hr
  all_goals cases hr
  all_goals simp [h]

/-- A write of configuration bytes keeps HBM canonical when the write at each target does. -/
theorem State.cfgTo_hbm (c : Cmd) (d : Nat) (ts : Targets) (fits : Bool) (okAt : Nat → Bool) (good : List Byte → Bool)
    {write : List Byte → Nat → State → State} (hw : ∀ b p t, HbmWf t → HbmWf (write b p t)) (h : Memory.wf s.phys = true) :
    (s.cfgTo c d ts fits okAt good write).All HbmWf := by
  unfold State.cfgTo
  split
  · exact h
  · split
    · exact h
    · split
      · exact h
      · split
        · next r hr => exact s.cfgBytes_hbm c d hr h
        · next b _ =>
          split
          · exact foldl_hbm (fun t p => hw b p t) _ h
          · exact h

theorem execCfgWriteElementMemory_hbm (die ticket : Nat) (h : Memory.wf s.phys = true) :
    Answers HbmWf (execCfgWriteElementMemory die ticket s) :=
  command_hbm s h fun u c d hu => u.cfgTo_hbm c d _ _ _ _ (fun _ _ _ ht => by simpa using ht) hu

theorem execCfgWriteStagedBlock_hbm (die ticket : Nat) (h : Memory.wf s.phys = true) :
    Answers HbmWf (execCfgWriteStagedBlock die ticket s) :=
  command_hbm s h fun u c d hu => u.cfgTo_hbm c d _ _ _ _ (fun _ _ _ ht => by simpa using ht) hu

theorem execCfgWriteActiveBlock_hbm (die ticket : Nat) (h : Memory.wf s.phys = true) :
    Answers HbmWf (execCfgWriteActiveBlock die ticket s) :=
  command_hbm s h fun u c d hu => u.cfgTo_hbm c d _ _ _ _ (fun _ _ _ ht => by simpa using ht) hu

@[simp] theorem State.physWrite_hbm (pa : Nat) (b : List Byte) (h : Memory.wf s.phys = true) :
    Memory.wf (s.physWrite pa b).phys = true := Memory.wf_writeBytes b _ pa h

theorem execCfgWriteStagingArea_hbm (die ticket : Nat) (h : Memory.wf s.phys = true) :
    Answers HbmWf (execCfgWriteStagingArea die ticket s) :=
  command_hbm s h fun u c d hu => u.cfgTo_hbm c d _ _ _ _ (fun b _ t ht => t.physWrite_hbm _ b ht) hu

@[simp] theorem State.markMerges_phys (d n colour : Nat) (load : Option Nat) (cfg : DWord) :
    (s.markMerges d n colour load cfg).phys = s.phys := rfl

theorem State.cfgNode_hbm (c : Cmd) (d : Nat) (okAt : Nat → Bool) (load : Option Nat) (put : Node → DWord → Node)
    (h : Memory.wf s.phys = true) : (s.cfgNode c d okAt load put).All HbmWf :=
  s.cfgTo_hbm c d _ _ _ _ (fun _ _ _ ht => by simpa using ht) h

theorem execCfgWriteStagedNode_hbm (die ticket : Nat) (h : Memory.wf s.phys = true) :
    Answers HbmWf (execCfgWriteStagedNode die ticket s) :=
  command_hbm s h fun u c d hu => u.cfgNode_hbm c d _ _ _ hu

theorem execCfgWriteActiveNode_hbm (die ticket : Nat) (h : Memory.wf s.phys = true) :
    Answers HbmWf (execCfgWriteActiveNode die ticket s) :=
  command_hbm s h fun u c d hu => u.cfgNode_hbm c d _ _ _ hu

theorem State.bank_hbm (c : Cmd) (d : Nat) (fits : Bool) (put : Element → Element) (h : Memory.wf s.phys = true) :
    (s.bank c d fits put).All HbmWf := by
  unfold State.bank
  split <;> simp [h]

theorem execCfgBankImage_hbm (die ticket : Nat) (h : Memory.wf s.phys = true) :
    Answers HbmWf (execCfgBankImage die ticket s) :=
  command_hbm s h fun u c d hu => u.bank_hbm c d _ _ hu

theorem execCfgBankConstants_hbm (die ticket : Nat) (h : Memory.wf s.phys = true) :
    Answers HbmWf (execCfgBankConstants die ticket s) :=
  command_hbm s h fun u c d hu => u.bank_hbm c d _ _ hu

@[simp] theorem State.openStaging_phys (d colour load : Nat) : (s.openStaging d colour load).phys = s.phys := by
  simp [State.openStaging]

theorem execLoadStageOpen_hbm (die ticket : Nat) (h : Memory.wf s.phys = true) :
    Answers HbmWf (execLoadStageOpen die ticket s) :=
  command_hbm s h fun u c d hu => by simp [hu]

theorem execLoadStageClose_hbm (die ticket : Nat) (h : Memory.wf s.phys = true) :
    Answers HbmWf (execLoadStageClose die ticket s) :=
  command_hbm s h fun u c d hu => by simp [hu]

theorem execLoadCommit_hbm (die ticket : Nat) (h : Memory.wf s.phys = true) :
    Answers HbmWf (execLoadCommit die ticket s) :=
  command_hbm s h fun u c d hu => by
    dsimp only
    split <;> simp [hu]

theorem execLoadAbort_hbm (die ticket : Nat) (h : Memory.wf s.phys = true) : Answers HbmWf (execLoadAbort die ticket s) :=
  command_hbm s h fun u c d hu => by simp [hu]

@[simp] theorem State.armSwitch_phys (d colour : Nat) : (s.armSwitch d colour).phys = s.phys := by
  simp [State.armSwitch]

theorem execLoadSwitch_hbm (die ticket : Nat) (h : Memory.wf s.phys = true) :
    Answers HbmWf (execLoadSwitch die ticket s) :=
  command_hbm s h fun u c d hu => by simp [hu]

theorem execRegionGrant_hbm (die ticket : Nat) (h : Memory.wf s.phys = true) :
    Answers HbmWf (execRegionGrant die ticket s) :=
  command_hbm s h fun u c d hu => by simp [hu]

@[simp] theorem State.freeSaved_phys (d colour : Nat) : (s.freeSaved d colour).phys = s.phys := by
  simp [State.freeSaved]

theorem execRegionFree_hbm (die ticket : Nat) (h : Memory.wf s.phys = true) :
    Answers HbmWf (execRegionFree die ticket s) :=
  command_hbm s h fun u c d hu => by simp [hu]

/-! ### Commands that steer the flow -/

theorem execMaSet_hbm (die ticket : Nat) (h : Memory.wf s.phys = true) : Answers HbmWf (execMaSet die ticket s) :=
  command_hbm s h fun u c d hu => by
    dsimp only
    split <;> simp [hu]

@[simp] theorem State.runMa_phys (die slot : Nat) : (s.runMa die slot).phys = s.phys := rfl

theorem State.onSlots_hbm (d : Nat) (c : Cmd) (okAt : MemActor → Bool) {eff : State → Nat → State} (value : Nat) (later : Bool)
    (heff : PhysKept eff) (h : Memory.wf s.phys = true) : (s.onSlots d c okAt eff value later).All HbmWf := by
  unfold State.onSlots
  split
  · exact h
  · simp [foldl_phys eff _ _ heff, h]

theorem execMaStart_hbm (die ticket : Nat) (h : Memory.wf s.phys = true) : Answers HbmWf (execMaStart die ticket s) :=
  command_hbm s h fun u c d hu => u.onSlots_hbm d c _ _ _ (by simp) hu

theorem execMaHalt_hbm (die ticket : Nat) (h : Memory.wf s.phys = true) : Answers HbmWf (execMaHalt die ticket s) :=
  command_hbm s h fun u c d hu => u.onSlots_hbm d c _ _ _ (by simp) hu

theorem execMaResumeHalt_hbm (die ticket : Nat) (h : Memory.wf s.phys = true) :
    Answers HbmWf (execMaResumeHalt die ticket s) :=
  command_hbm s h fun u c d hu => u.onSlots_hbm d c _ _ _ (by simp) hu

theorem execMaResumeFault_hbm (die ticket : Nat) (h : Memory.wf s.phys = true) :
    Answers HbmWf (execMaResumeFault die ticket s) :=
  command_hbm s h fun u c d hu => u.onSlots_hbm d c _ _ _ (by simp) hu

@[simp] theorem State.holdGates_phys (colour : Nat) (x : Source) (d : Dest) :
    (s.holdGates colour x d).phys = s.phys := by
  simp [State.holdGates]

@[simp] theorem State.bindChan_phys (x : Source) (load : Option Nat) (colour chan : Nat) (kind : ChanKind) (d : Dest) :
    (s.bindChan x load colour chan kind d).phys = s.phys := by
  simp [State.bindChan]

@[simp] theorem State.unbindChan_phys (x : Source) (load : Option Nat) (colour : Nat) :
    (s.unbindChan x load colour).phys = s.phys := rfl

theorem State.chanBind_hbm (c : Cmd) (d : Nat) (h : Memory.wf s.phys = true) : (s.chanBind c d).All HbmWf := by
  unfold State.chanBind
  dsimp only
  split
  · refine .ite h (.ite h (.ite h (.ite h ?_)))
    split <;> simp [h]
  · exact h

theorem execChanBind_hbm (die ticket : Nat) (h : Memory.wf s.phys = true) : Answers HbmWf (execChanBind die ticket s) :=
  command_hbm s h fun u c d hu => u.chanBind_hbm c d hu

@[simp] theorem State.setDepth_phys (x : Depth) : (s.setDepth x).phys = s.phys := rfl

theorem execChanDepth_hbm (die ticket : Nat) (h : Memory.wf s.phys = true) : Answers HbmWf (execChanDepth die ticket s) :=
  command_hbm s h fun u c d hu => by simp [hu]

@[simp] theorem State.injectAll_phys (colour : Nat) (t : Token) (xs : List Source) :
    KeepsHbm s (s.injectAll colour t xs) :=
  s.tryEmits_phys _ _

theorem State.inject_hbm (c : Cmd) (d : Nat) (h : Memory.wf s.phys = true) : (s.inject c d).All HbmWf := by
  unfold State.inject
  dsimp only
  repeat' split
  all_goals try simp [h]
  next u hu => simpa [s.injectAll_phys _ _ _ u hu] using h

theorem execInject_hbm (die ticket : Nat) (h : Memory.wf s.phys = true) : Answers HbmWf (execInject die ticket s) :=
  command_hbm s h fun u c d hu => u.inject_hbm c d hu

@[simp] theorem State.repairAt_phys (c : Cmd) (d : Nat) (kind : RepairKind) (b : List Byte) (p : Nat) :
    (s.repairAt c d kind b p).2.phys = s.phys := by
  simp [State.repairAt]

@[simp] theorem State.repairEach_phys (c : Cmd) (d : Nat) (kind : RepairKind) (b : List Byte) (ps : List Nat) :
    KeepsHbm s (s.repairEach c d kind b ps) :=
  KeepsHbm.foldl_bind (fun t p => by simp) ps (by simp)

theorem State.repairCmd_hbm (c : Cmd) (d : Nat) (kind : RepairKind) (h : Memory.wf s.phys = true) :
    (s.repairCmd c d kind).All HbmWf := by
  unfold State.repairCmd
  extract_lets isMa v
  split
  · exact h
  · exact h
  · extract_lets held bad
    split
    · exact h
    · exact h
    · refine .ite trivial ?_
      split
      · trivial
      · next t ht => simpa [s.repairEach_phys _ _ _ _ _ t ht] using h

theorem execRepairResume_hbm (die ticket : Nat) (h : Memory.wf s.phys = true) :
    Answers HbmWf (execRepairResume die ticket s) :=
  command_hbm s h fun u c d hu => u.repairCmd_hbm c d _ hu

theorem execRepairSkip_hbm (die ticket : Nat) (h : Memory.wf s.phys = true) :
    Answers HbmWf (execRepairSkip die ticket s) :=
  command_hbm s h fun u c d hu => u.repairCmd_hbm c d _ hu

theorem execRepairSubst_hbm (die ticket : Nat) (h : Memory.wf s.phys = true) :
    Answers HbmWf (execRepairSubst die ticket s) :=
  command_hbm s h fun u c d hu => u.repairCmd_hbm c d _ hu

theorem execRepairAbort_hbm (die ticket : Nat) (h : Memory.wf s.phys = true) :
    Answers HbmWf (execRepairAbort die ticket s) :=
  command_hbm s h fun u c d hu => u.repairCmd_hbm c d _ hu

@[simp] theorem State.closeDispatch_phys (d colour : Nat) : (s.closeDispatch d colour).phys = s.phys := by
  simp [State.closeDispatch]

@[simp] theorem State.payWeir_phys (d colour n : Nat) : (s.payWeir d colour n).phys = s.phys := by
  unfold State.payWeir
  split <;> simp

@[simp] theorem State.weirGate_phys (d colour n : Nat) : (s.weirGate d colour n).phys = s.phys := by
  simp [State.weirGate]

@[simp] theorem State.weir_phys (d colour : Nat) (close : Bool) : (s.weir d colour close).phys = s.phys := by
  simp [State.weir]

theorem execWeir_hbm (die ticket : Nat) (h : Memory.wf s.phys = true) : Answers HbmWf (execWeir die ticket s) :=
  command_hbm s h fun u c d hu => by simp [hu]

theorem execColourRead_hbm (die ticket : Nat) (h : Memory.wf s.phys = true) :
    Answers HbmWf (execColourRead die ticket s) :=
  command_hbm s h fun u c d hu => by simp [hu]

theorem execSluiceSet_hbm (die ticket : Nat) (h : Memory.wf s.phys = true) : Answers HbmWf (execSluiceSet die ticket s) :=
  command_hbm s h fun u c d hu => by simp [hu]

theorem execSluiceClear_hbm (die ticket : Nat) (h : Memory.wf s.phys = true) :
    Answers HbmWf (execSluiceClear die ticket s) :=
  command_hbm s h fun u c d hu => by simp [hu]

theorem execPlotClock_hbm (die ticket : Nat) (h : Memory.wf s.phys = true) : Answers HbmWf (execPlotClock die ticket s) :=
  command_hbm s h fun u c d hu => by
    dsimp only
    split <;> simp [hu]

@[simp] theorem State.mapGen_phys (index gen : Nat) (f : Nat → Nat) : (s.mapGen index gen f).phys = s.phys := rfl

@[simp] theorem State.unloadOld_phys : (s.unloadOld).phys = s.phys := rfl

theorem State.genMark_hbm (c : Cmd) (ok : Nat → Bool) (f : Nat → Nat) (h : Memory.wf s.phys = true) :
    (s.genMark c ok f).All HbmWf := by
  unfold State.genMark
  dsimp only
  split <;> simp [h]

theorem execGenMarkHold_hbm (die ticket : Nat) (h : Memory.wf s.phys = true) :
    Answers HbmWf (execGenMarkHold die ticket s) :=
  command_hbm s h fun u c _ hu => u.genMark_hbm c _ _ hu

theorem execGenMarkRelease_hbm (die ticket : Nat) (h : Memory.wf s.phys = true) :
    Answers HbmWf (execGenMarkRelease die ticket s) :=
  command_hbm s h fun u c _ hu => u.genMark_hbm c _ _ hu

theorem execGenMarkQuery_hbm (die ticket : Nat) (h : Memory.wf s.phys = true) :
    Answers HbmWf (execGenMarkQuery die ticket s) :=
  command_hbm s h fun u c _ hu => u.genMark_hbm c _ _ hu

@[simp] theorem State.setRoot_phys (d colour : Nat) (root : Option Nat) :
    (s.setRoot d colour root).phys = s.phys := rfl

theorem execXlateRoot_hbm (die ticket : Nat) (h : Memory.wf s.phys = true) : Answers HbmWf (execXlateRoot die ticket s) :=
  command_hbm s h fun u c d hu => by simp [hu]

/-! ### Selection and switch -/

@[simp] theorem State.discardControl_phys (colour : Nat) : (s.discardControl colour).phys = s.phys := by
  unfold State.discardControl
  dsimp only
  split
  · rfl
  · next c _ => cases c.head <;> simp

theorem execLoadSelect_hbm (colour : Nat) (h : Memory.wf s.phys = true) :
    Answers HbmWf (execLoadSelect colour s) := by
  unfold execLoadSelect
  dsimp only
  repeat' split
  all_goals simp [h]

@[simp] theorem State.sendSwitch_phys (x : Source) (load colour : Nat) : KeepsHbm s (s.sendSwitch x load colour) := by
  unfold State.sendSwitch
  split <;> simp

@[simp] theorem State.dropChans_phys (colour load : Nat) (p : Dest → Bool) :
    (s.dropChans colour load p).phys = s.phys := rfl

@[simp] theorem State.retireEnds_phys (colour load : Nat) : (s.retireEnds colour load).phys = s.phys := by
  simp [State.retireEnds]

@[simp] theorem State.switchMa_phys (d slot : Nat) : (s.switchMa d slot).phys = s.phys := by
  simp [State.switchMa]

@[simp] theorem State.switchNode_phys (d node : Nat) : (s.switchNode d node).phys = s.phys := by
  simp [State.switchNode]

@[simp] theorem State.eatMarks_phys (d slot i n : Nat) : (s.eatMarks d slot i n).phys = s.phys := by
  induction n generalizing s with
  | zero => rfl
  | succ n ih =>
    rw [State.eatMarks]
    split
    · split <;> simp [ih]
    · rfl

@[simp] theorem State.countMaSwitches_phys (d slot : Nat) : (s.countMaSwitches d slot).phys = s.phys := by
  unfold State.countMaSwitches
  dsimp only
  split
  · refine foldl_phys _ _ _ fun t i => ?_
    split <;> simp
  · rfl

theorem execSwitchToken_hbm (src : Source) (colour : Nat) (h : Memory.wf s.phys = true) :
    Answers HbmWf (execSwitchToken src colour s) := by
  unfold execSwitchToken
  dsimp only
  repeat' split
  all_goals simp [h]

@[simp] theorem State.takeStaged_phys (k load : Nat) : (s.takeStaged k load).phys = s.phys := by
  simp [State.takeStaged]

theorem execElementSwitch_hbm (die pos : Nat) (h : Memory.wf s.phys = true) :
    Answers HbmWf (execElementSwitch die pos s) := by
  unfold execElementSwitch
  dsimp only
  repeat' split
  all_goals simp [h]

@[simp] theorem State.takeNotice_phys (die colour next : Nat) : (s.takeNotice die colour next).phys = s.phys := by
  simp [State.takeNotice]

theorem execDrainedNotice_hbm (die colour : Nat) (h : Memory.wf s.phys = true) :
    Answers HbmWf (execDrainedNotice die colour s) := by
  unfold execDrainedNotice
  dsimp only
  repeat' split
  all_goals simp [h]

@[simp] theorem State.closeFaultChannel_phys (l : Launch) : KeepsHbm s (s.closeFaultChannel l) := by
  unfold State.closeFaultChannel
  split <;> simp

@[simp] theorem State.goOn_phys (l : Launch) (n : Nat) : (s.goOn l n).phys = s.phys := rfl

@[simp] theorem State.endLoad_phys (l : Launch) : (s.endLoad l).phys = s.phys := by
  unfold State.endLoad
  split <;> simp

theorem execLoadComplete_hbm (colour : Nat) (h : Memory.wf s.phys = true) :
    Answers HbmWf (execLoadComplete colour s) := by
  unfold execLoadComplete
  split
  · exact .next h
  · next l _ =>
    split
    · exact .next h
    · split
      · cases s.switchedIn l <;> simp [h]
      · split
        · next t ht => simpa [s.closeFaultChannel_phys l t ht] using h
        · split <;> simp [h]

@[simp] theorem State.dropHold_phys (l : Launch) : (s.dropHold l).phys = s.phys := rfl

@[simp] theorem State.clearColour_phys (d : Nat) (l : Launch) : (s.clearColour d l).phys = s.phys := by
  unfold State.clearColour
  refine (foldl_phys _ _ _ fun t n => ?_).trans (by simp)
  split <;> simp

@[simp] theorem State.dropColour_phys (colour : Nat) : (s.dropColour colour).phys = s.phys := rfl

@[simp] theorem State.endFaults_phys (colour : Nat) : (s.endFaults colour).phys = s.phys := rfl

@[simp] theorem State.dropSaves_phys (colour : Nat) : (s.dropSaves colour).phys = s.phys := rfl

@[simp] theorem State.closeLaunch_phys (l : Launch) : (s.closeLaunch l).phys = s.phys := by
  unfold State.closeLaunch
  dsimp only
  simp

theorem execCompletionMessage_hbm (colour : Nat) (h : Memory.wf s.phys = true) :
    Answers HbmWf (execCompletionMessage colour s) := by
  unfold execCompletionMessage
  split <;> simp [h]

/-! ### Saving, loading and cuts -/

@[simp] theorem State.weirElement_phys (k : Nat) : KeepsHbm s (s.weirElement k) := s.tryEmits_phys _ _

theorem execElementFreeze_hbm (die pos : Nat) (h : Memory.wf s.phys = true) :
    Answers HbmWf (execElementFreeze die pos s) := by
  unfold execElementFreeze
  dsimp only
  repeat' split
  all_goals try simp [h]
  next t ht => simpa [s.weirElement_phys _ t ht] using h

theorem State.writeArea_hbm (pa : Nat) (m : Mem) (h : Memory.wf s.phys = true) :
    Memory.wf (s.writeArea pa m).phys = true :=
  s.physWrite_hbm pa _ h

theorem State.saveQueue_hbm (d : Dest) (colour : Nat) (load : Option Nat) (n : Nat) (h : Memory.wf s.phys = true) :
    Memory.wf (s.saveQueue d colour load n).phys = true := by
  induction n generalizing s with
  | zero => exact h
  | succ n ih =>
    rw [State.saveQueue]
    split
    · exact h
    · split
      · exact ih _ (by simpa using s.spillWrite_hbm _ _ h)
      · exact h

@[simp] theorem State.spillAll_hbm (colour : Nat) (p : Dest → Bool) (h : Memory.wf s.phys = true) :
    Memory.wf (s.spillAll colour p).phys = true :=
  foldl_hbm (fun t _ ht => t.saveQueue_hbm _ _ _ _ ht) _ h

theorem State.saveNode_hbm (d colour n : Nat) (h : Memory.wf s.phys = true) :
    Memory.wf (s.saveNode d colour n).phys = true :=
  State.spillAll_hbm _ _ _ (by simpa using h)

@[simp] theorem State.keepCounts_phys (k : Nat) : (s.keepCounts k).phys = s.phys := foldl_phys _ _ _ fun _ _ => rfl

theorem State.saveElement_hbm (d off pos : Nat) (h : Memory.wf s.phys = true) :
    Memory.wf (s.saveElement d off pos).phys = true := by
  unfold State.saveElement
  extract_lets k e s1 s2 s3
  refine State.spillAll_hbm _ _ _ ?_
  rw [State.setElem_phys]
  show Memory.wf (State.setElem s2 _ _).phys = true
  rw [State.setElem_phys]
  show Memory.wf (State.keepCounts _ _).phys = true
  rw [State.keepCounts_phys]
  refine State.writeArea_hbm _ _ _ ?_
  show Memory.wf (ite _ _ _ : State).phys = true
  split
  · exact foldl_hbm (fun t n ht => t.saveNode_hbm d _ n ht) _ h
  · exact h

theorem State.saveMa_hbm (d off slot : Nat) (h : Memory.wf s.phys = true) : Memory.wf (s.saveMa d off slot).phys = true :=
  State.spillAll_hbm _ _ _ (by simpa using s.writeArea_hbm _ _ h)

theorem State.spillWrite_mapChan_hbm (pa : Nat) (t : Token) (d : Dest) (colour : Nat) (load : Option Nat) (f : Chan → Chan)
    (h : Memory.wf s.phys = true) : Memory.wf ((s.spillWrite pa t).mapChan d colour load f).phys = true := by
  rw [State.mapChan_phys]
  exact s.spillWrite_hbm pa t h

theorem State.saveHeld_hbm (b : Bind) (t : Token) (h : Memory.wf s.phys = true) :
    Memory.wf (s.saveHeld b t).phys = true := by
  unfold State.saveHeld
  extract_lets s1
  rw [State.mapBind_phys]
  refine foldl_hbm (fun u d hu => ?_) _ h
  split
  · exact hu
  · extract_lets pa
    exact u.spillWrite_mapChan_hbm pa t _ _ _ _ hu

theorem State.saveGate_hbm (colour key : Nat) (l : List Token) (h : Memory.wf s.phys = true) :
    Memory.wf (s.saveGate colour key l).phys = true := by
  induction l generalizing s with
  | nil => exact h
  | cons t l ih =>
    rw [State.saveGate]
    split
    · exact h
    · split
      · exact ih _ h
      · split
        · exact ih _ (s.saveHeld_hbm _ t h)
        · exact h

@[simp] theorem State.saveGates_hbm (d colour : Nat) (h : Memory.wf s.phys = true) :
    Memory.wf (s.saveGates d colour).phys = true := by
  refine foldl_hbm (fun t n ht => ?_) _ h
  split
  · exact State.saveGate_hbm _ _ _ _ (by simpa using ht)
  · exact ht

@[simp] theorem State.spillDie_hbm (d colour : Nat) (h : Memory.wf s.phys = true) :
    Memory.wf (s.spillDie d colour).phys = true := by
  unfold State.spillDie
  split
  · exact s.spillAll_hbm _ _ h
  · exact h

@[simp] theorem State.saveLone_hbm (d colour : Nat) (h : Memory.wf s.phys = true) :
    Memory.wf (s.saveLone d colour).phys = true := by
  refine foldl_hbm (fun t n ht => ?_) _ h
  split
  · exact t.saveNode_hbm _ _ _ ht
  · exact ht

@[simp] theorem State.saveElemsAt_hbm (d off : Nat) (l : List Nat) (h : Memory.wf s.phys = true) :
    Memory.wf (s.saveElemsAt d off l).phys = true := by
  refine foldl_hbm (fun t p ht => ?_) _ h
  split
  · exact t.saveElement_hbm _ _ _ ht
  · exact ht

@[simp] theorem State.saveMasAt_hbm (d off : Nat) (l : List Nat) (h : Memory.wf s.phys = true) :
    Memory.wf (s.saveMasAt d off l).phys = true := by
  refine foldl_hbm (fun t n ht => ?_) _ h
  split
  · exact t.saveMa_hbm _ _ _ ht
  · exact ht

@[simp] theorem State.saveReady_hbm (d : Nat) (c : Cmd) (l : List Nat) (h : Memory.wf s.phys = true) :
    Memory.wf (s.saveReady d c l).phys = true := by
  have hg := State.saveGates_hbm _ d c.colour (s.spillDie_hbm d c.colour h)
  unfold State.saveReady
  dsimp only
  split
  · exact State.saveMasAt_hbm _ _ _ _ hg
  · split
    · exact State.saveLone_hbm _ _ _ (State.saveElemsAt_hbm _ _ _ _ hg)
    · exact State.saveElemsAt_hbm _ _ _ _ hg

theorem execStateSave_hbm (die ticket : Nat) (h : Memory.wf s.phys = true) : Answers HbmWf (execStateSave die ticket s) :=
  command_hbm s h fun u c d hu => by
    dsimp only
    split
    · exact hu
    · exact .ite hu (State.saveReady_hbm _ _ _ _ hu)

@[simp] theorem State.loadCounts_phys (k : Nat) : (s.loadCounts k).phys = s.phys := rfl

@[simp] theorem State.loadSeqs_phys (k : Nat) (m : Mem) : (s.loadSeqs k m).phys = s.phys := by
  unfold State.loadSeqs
  dsimp only
  rw [foldl_phys _ _ _ fun _ _ => State.mapBind_phys .., foldl_phys _ _ _ fun _ _ => State.mapChan_phys ..]

@[simp] theorem State.loadNode_phys (colour key : Nat) : (s.loadNode colour key).phys = s.phys := by
  unfold State.loadNode
  split <;> simp

theorem State.withElems_phys (x : Tab Element) : ({ s with elems := x } : State).phys = s.phys := rfl

@[simp] theorem State.loadElem_phys (d off pos : Nat) (reopen : Bool) : (s.loadElem d off pos reopen).phys = s.phys := by
  unfold State.loadElem
  extract_lets k m colour kept s1 s2
  have h1 : s1.phys = s.phys :=
    (State.loadCounts_phys _ k).trans ((State.loadSeqs_phys _ k m).trans (s.setElem_phys k _))
  have h2 : s2.phys = s.phys := (s1.withElems_phys _).trans h1
  split
  · exact (foldl_phys _ _ _ fun _ _ => State.loadNode_phys ..).trans h2
  · exact h2

@[simp] theorem State.loadMa_phys (colour d off slot : Nat) : (s.loadMa colour d off slot).phys = s.phys := rfl

@[simp] theorem State.reopen_phys (d colour : Nat) : (s.reopen d colour).phys = s.phys := by
  simp [State.reopen]

@[simp] theorem State.loadLone_phys (d colour : Nat) : (s.loadLone d colour).phys = s.phys := by
  simp [State.loadLone]

@[simp] theorem State.restoreGates_phys (colour : Nat) : (s.restoreGates colour).phys = s.phys := by
  refine foldl_phys _ _ _ fun t n => ?_
  dsimp only
  split <;> split <;> (try split) <;> rfl

@[simp] theorem State.loadedAgain_phys (colour : Nat) : (s.loadedAgain colour).phys = s.phys := by
  unfold State.loadedAgain
  split
  · rw [State.mapLaunch_phys, State.restoreGates_phys]
  · rfl

theorem execStateLoad_hbm (die ticket : Nat) (h : Memory.wf s.phys = true) : Answers HbmWf (execStateLoad die ticket s) :=
  command_hbm s h fun u c d hu => by
    dsimp only
    split
    · exact hu
    · simp [hu]

theorem State.firmwareSave_hbm (colour d : Nat) (h : Memory.wf s.phys = true) :
    Memory.wf (s.firmwareSave colour d).phys = true :=
  State.saveMasAt_hbm _ _ _ _ (State.saveLone_hbm _ _ _ (State.saveElemsAt_hbm _ _ _ _
    (State.saveGates_hbm _ _ _ (State.spillDie_hbm _ _ _ h))))

@[simp] theorem State.reportWeirs_phys (colour : Nat) : (s.reportWeirs colour).phys = s.phys := by
  simp [State.reportWeirs]

@[simp] theorem State.dropUnstaged_phys (l : Launch) : (s.dropUnstaged l).phys = s.phys := by
  simp [State.dropUnstaged]

@[simp] theorem State.markSaved_phys (l : Launch) : (s.markSaved l).phys = s.phys := rfl

@[simp] theorem State.completeCut_phys (l : Launch) : (s.completeCut l).phys = s.phys := by
  simp [State.completeCut]

@[simp] theorem State.winCut_phys (l : Launch) : (s.winCut l).phys = s.phys := by
  simp [State.winCut]

theorem execCutCompletionWins_hbm (colour : Nat) (h : Memory.wf s.phys = true) :
    Answers HbmWf (execCutCompletionWins colour s) := by
  unfold execCutCompletionWins
  split <;> simp [h]

theorem execCutComplete_hbm (colour : Nat) (h : Memory.wf s.phys = true) : Answers HbmWf (execCutComplete colour s) := by
  unfold execCutComplete
  split
  · exact .next h
  · next l _ =>
    have ht : HbmWf ((l.dies.filter s.firmwareRuns).foldl (fun t d => t.firmwareSave colour d) s) :=
      foldl_hbm (fun t d ht => t.firmwareSave_hbm colour d ht) _ h
    rw [HbmWf] at ht
    simp [h, ht]

/-! ### Commands that complete later -/

@[simp] theorem State.bringDepths_phys (colour : Nat) (m : Move) : (s.bringDepths colour m).phys = s.phys := by
  simp [State.bringDepths]

@[simp] theorem State.beginMove_phys (colour : Nat) (m : Move) : (s.beginMove colour m).phys = s.phys := by
  simp [State.beginMove]

theorem execRebalMove_hbm (die ticket : Nat) (h : Memory.wf s.phys = true) : Answers HbmWf (execRebalMove die ticket s) :=
  command_hbm s h fun u c d hu => by
    split
    · exact hu
    · split <;> simp [hu]
    · exact hu

@[simp] theorem State.moveWaiters_phys (m : Move) : (s.moveWaiters m).phys = s.phys := by
  refine foldl_phys _ _ _ fun t x => ?_
  dsimp only
  split <;> rfl

@[simp] theorem State.finishMove_phys (colour : Nat) (m : Move) : (s.finishMove colour m).phys = s.phys := by
  unfold State.finishMove
  dsimp only
  repeat' split
  all_goals simp

@[simp] theorem State.setClocks_phys (d : Nat) (c : Cmd) (ps : List Nat) : (s.setClocks d c ps).1.phys = s.phys := by
  simp [State.setClocks]

@[simp] theorem State.goMove_phys (colour : Nat) (m : Move) : KeepsHbm s (s.goMove colour m) := by
  unfold State.goMove
  split <;> simp

theorem State.completes_hbm (c : Cmd) (d value : Nat) (ps : List Nat) (h : Memory.wf s.phys = true) :
    Memory.wf (s.completes c d value ps).2.phys = true := by
  unfold State.completes
  split
  · dsimp only
    split
    · exact h
    · split <;> exact h
  · exact h
  · exact s.saveReady_hbm _ _ _ h
  · split
    · exact h
    · split
      · exact h
      · split
        · exact h
        · split
          · exact h
          · next t ht => simpa [s.goMove_phys _ _ t ht] using h
  · simpa using h
  · exact h

theorem execStreamCommandComplete_hbm (die ticket : Nat) (h : Memory.wf s.phys = true) :
    Answers HbmWf (execStreamCommandComplete die ticket s) := by
  unfold execStreamCommandComplete
  split
  · exact .next h
  · dsimp only
    split
    · split <;> simp [h]
    · split
      · exact .next h
      · next v ps _ _ d _ =>
        have hc := s.completes_hbm (cmdOf die ‹_›) d v ps h
        split
        · next hu => simpa [hu] using hc
        · next hu => simpa [hu] using hc
    · exact .next h

end Sys2Proof.Machine
end

section
/-! ## What the loader, the host and the boot leave of HBM -/

namespace Sys2Proof.Machine
open Host (Outcome)
variable (s : State)

/-! ### The loader -/

@[simp] theorem State.setDepths_phys (b : List Byte) (colour : Nat) (load : Option Nat) (die off : Nat) (cs : List Nat) :
    (s.setDepths b colour load die off cs).phys = s.phys := by
  induction cs generalizing s off with
  | nil => rfl
  | cons c cs ih => rw [State.setDepths, ih, State.setDepth_phys]

@[simp] theorem State.bindLoad_phys (b : List Byte) (colour : Nat) (load : Option Nat) (dies : List Nat) (p : Plan)
    (cs : List Nat) : (s.bindLoad b colour load dies p cs).phys = s.phys :=
  foldl_phys _ _ _ fun t _ => foldl_phys _ _ t fun u _ => foldl_phys _ _ u fun _ _ => by simp

@[simp] theorem State.writeChans_phys (b : List Byte) (colour load : Nat) (bank : Option Nat) (dies : List Nat) (p : Plan) :
    (s.writeChans b colour load bank dies p).phys = s.phys := by
  simp [State.writeChans]

@[simp] theorem State.writeElems_phys (b : List Byte) (colour load : Nat) (dies : List Nat) (p : Plan) :
    (s.writeElems b colour load dies p).phys = s.phys := by
  simp [State.writeElems]

@[simp] theorem State.writeNodes_phys (b : List Byte) (colour : Nat) (p : Plan) :
    (s.writeNodes b colour p).phys = s.phys := by
  simp [State.writeNodes]

@[simp] theorem State.writeMas_phys (b : List Byte) (colour : Nat) (staged : Bool) (p : Plan) :
    (s.writeMas b colour staged p).phys = s.phys := by
  simp [State.writeMas]

@[simp] theorem State.writePools_phys (b : List Byte) (colour : Nat) (dies : List Nat) :
    (s.writePools b colour dies).phys = s.phys := by
  refine foldl_phys _ _ _ fun t x => ?_
  split <;> simp

@[simp] theorem State.writeLaunch_phys (l : Launch) (b : List Byte) (p : Plan) :
    (s.writeLaunch l b p).phys = s.phys := by
  simp [State.writeLaunch]

theorem State.stageImage_hbm (b : List Byte) (p : Plan) (die pos : Nat) (h :
    Memory.wf s.phys = true) :
    Memory.wf (s.stageImage b p die pos).phys = true := by
  simp [State.stageImage, h]

theorem State.stageElem_hbm (b : List Byte) (p : Plan) (die pos : Nat) (h : Memory.wf s.phys = true) :
    Memory.wf (s.stageElem b p die pos).phys = true := s.stageImage_hbm b p die pos h

theorem State.stageConsts_hbm (b : List Byte) (colour load d : Nat) (h :
    Memory.wf s.phys = true) :
    Memory.wf (s.stageConsts b colour load d).phys = true := by
  simp [State.stageConsts, h]

theorem State.stageBanks_hbm (l : Launch) (b : List Byte) (p : Plan) (h : Memory.wf s.phys = true) :
    Memory.wf (s.stageBanks l b p).phys = true := by
  have he := foldl_hbm (f := fun (t : State) (x : Nat × Nat) => t.stageElem b p x.1 x.2)
    (fun t x ht => t.stageElem_hbm b p x.1 x.2 ht) (planElems p) h
  rw [HbmWf] at he
  simpa [State.stageBanks] using he

theorem State.stageLoad_hbm (l : Launch) (b : List Byte) (load : Nat) (p : Plan) (h : Memory.wf s.phys = true) :
    Memory.wf (s.stageLoad l b load p).phys = true := by
  unfold State.stageLoad
  split
  · simpa using h
  · have hc := foldl_hbm (fun (t : State) d ht => State.stageConsts_hbm (t.openStaging d l.colour load) b l.colour load d
      (by simpa using ht)) l.dies h
    have hb := State.stageBanks_hbm _ l b p hc
    simpa using hb

@[simp] theorem State.refuse_phys (colour : Nat) (r : Refused) : (s.refuse colour r).phys = s.phys := rfl

theorem State.wakeActive_hbm (l : Launch) (b : List Byte) (p : Plan) (h : Memory.wf s.phys = true) :
    Memory.wf (s.wakeActive l b p).phys = true := by
  unfold State.wakeActive
  split
  · split <;> simp [h]
  · split
    · next n _ =>
      split
      · split <;> simp [h]
      · split
        · exact h
        · split
          · exact s.stageLoad_hbm _ _ _ _ h
          · exact h
          · split <;> simp [h]
    · simp [h]

@[simp] theorem State.wakeWaiting_phys (l : Launch) (b : List Byte) (p : Plan) : (s.wakeWaiting l b p).phys = s.phys := by
  unfold State.wakeWaiting
  repeat' split
  all_goals simp

theorem execLoaderWake_hbm (colour : Nat) (plan : Plan) (h : Memory.wf s.phys = true) :
    Answers HbmWf (execLoaderWake colour plan s) := by
  unfold execLoaderWake
  split
  · exact .next h
  · split
    · exact .next h
    · split
      · simpa using h
      · exact .next (s.wakeActive_hbm _ _ _ h)
      all_goals exact .next h

/-! ### Host sessions -/

@[simp] theorem State.mapSession_phys (num : Nat) (f : Session → Session) : (s.mapSession num f).phys = s.phys := rfl

@[simp] theorem State.closeSession_phys (num : Nat) : (s.closeSession num).phys = s.phys := rfl

@[simp] theorem State.pump_phys (num : Nat) : (s.pump num).phys = s.phys := by
  unfold State.pump
  split <;> simp

@[simp] theorem State.sendMessage_phys (num type code : Nat) (rid : DWord) (dup : Bool) (body : List Byte) :
    (s.sendMessage num type code rid dup body).phys = s.phys := by
  unfold State.sendMessage
  split <;> simp

@[simp] theorem State.sendAck_phys (num : Nat) : (s.sendAck num).phys = s.phys := by
  unfold State.sendAck
  split <;> simp

@[simp] theorem State.reply_phys (num : Nat) (f : Frame) (dup : Bool) (status : Nat) (data : List Byte) :
    (s.reply num f dup status data).phys = s.phys := by
  simp [State.reply]

@[simp] theorem State.replyLoose_phys (f : Frame) (status : Nat) : (s.replyLoose f status).phys = s.phys := rfl

@[simp] theorem State.takeAck_phys (num : Nat) (f : Frame) : (s.takeAck num f).phys = s.phys := by
  simp [State.takeAck]

/-- A frame of a session keeps HBM canonical when its act does. -/
theorem State.inSession_hbm (f : Frame) {act : Session → State → State}
    (hact : ∀ x t, Memory.wf t.phys = true → Memory.wf (act x t).phys = true) (h : Memory.wf s.phys = true) :
    Memory.wf (s.inSession f act).phys = true := by
  unfold State.inSession
  split
  · exact h
  · split
    · exact h
    · simpa using h
    · simpa using h
    · exact hact _ _ (by simpa using h)

theorem onFrame_hbm {mine : Frame → Bool} {f : Frame} {act : Session → State → State} (h : Memory.wf s.phys = true)
    (hact : ∀ x t, Memory.wf t.phys = true → Memory.wf (act x t).phys = true) : Answers HbmWf (onFrame mine f s act) := by
  unfold onFrame
  split
  · exact .next (s.inSession_hbm f hact h)
  · exact .next h

theorem State.journal_hbm (session : Nat) (seq : Word) (code status : Nat) (rid : DWord) (summary : List Byte) (h :
    Memory.wf s.phys = true) :
    Memory.wf (s.journal session seq code status rid summary).phys = true := by
  simp [State.journal, h]

theorem plainRequest_hbm {mine ok : Frame → Bool} {colour : Frame → Option Nat} {f : Frame} {act : Session → State → Answer}
    (h : Memory.wf s.phys = true) (hact : ∀ x t, (act x t).st.phys = t.phys) :
    Answers HbmWf (plainRequest mine ok colour f s act) := by
  refine onFrame_hbm s h fun x t ht => ?_
  dsimp only
  split <;> simp [hact, ht]

/-- A request that is performed once keeps HBM canonical when its act does. -/
theorem State.perform_hbm (num : Nat) (f : Frame) (summary : Answer → List Byte) {act : State → Answer}
    (hact : ∀ t, Memory.wf t.phys = true → Memory.wf (act t).st.phys = true) (h : Memory.wf s.phys = true) :
    Memory.wf (s.perform num f summary act).phys = true := by
  unfold State.perform
  split
  · simpa using h
  · simpa using State.journal_hbm _ _ _ _ _ _ _ (hact s h)

theorem journalledRequest_hbm {mine ok : Frame → Bool} {colour : Frame → Option Nat} {summary : Frame → List Byte} {f : Frame}
    {act : Session → State → Answer} (h : Memory.wf s.phys = true)
    (hact : ∀ x t, Memory.wf t.phys = true → Memory.wf (act x t).st.phys = true) :
    Answers HbmWf (journalledRequest mine ok colour summary f s act) := by
  refine onFrame_hbm s h fun x t ht => ?_
  split
  · simpa using ht
  · exact t.perform_hbm _ _ _ (hact x) ht

@[simp] theorem State.tellFault_phys (num : Nat) (r : Rec) : (s.tellFault num r).phys = s.phys := by
  simp [State.tellFault]

@[simp] theorem State.openSession_phys (f : Frame) : (s.openSession f).phys = s.phys := by
  simp [State.openSession]

theorem execHello_hbm (f : Frame) (h : Memory.wf s.phys = true) : Answers HbmWf (execHello f s) := by
  unfold execHello
  split
  · exact .next h
  · split <;> simp [h]

theorem execBye_hbm (f : Frame) (h : Memory.wf s.phys = true) : Answers HbmWf (execBye f s) :=
  onFrame_hbm s h fun _ _ ht => by simp [ht]

theorem execEoloAck_hbm (f : Frame) (h : Memory.wf s.phys = true) : Answers HbmWf (execEoloAck f s) := by
  unfold execEoloAck
  split
  · split <;> simp [h]
  · exact onFrame_hbm s h fun _ _ ht => by simp [ht]

theorem execEoloRetransmit_hbm (session : Nat) (h : Memory.wf s.phys = true) :
    Answers HbmWf (execEoloRetransmit session s) := by
  unfold execEoloRetransmit
  split <;> simp [h]

/-! ### Launches -/

theorem execHeadgateDescriptor_hbm (i : Nat) (h : Memory.wf s.phys = true) :
    Answers HbmWf (execHeadgateDescriptor i s) := by
  unfold execHeadgateDescriptor
  dsimp only
  repeat' split
  all_goals simp [h]

@[simp] theorem State.gateEmit_phys (key colour : Nat) (t : Token) : KeepsHbm s (s.gateEmit key colour t) :=
  KeepsHbm.map (s.tryEmit_phys _ _ _) fun _ => by simp

@[simp] theorem State.answerStream_phys (key : Nat) : (s.answerStream key).phys = s.phys := by
  unfold State.answerStream
  dsimp only
  split <;> simp

@[simp] theorem State.takeFresh_phys (key : Nat) (rest : List Token) : (s.takeFresh key rest).phys = s.phys := by
  simp [State.takeFresh]

theorem execHeadgateToken_hbm (die gate : Nat) (h : Memory.wf s.phys = true) :
    Answers HbmWf (execHeadgateToken die gate s) := by
  unfold execHeadgateToken
  dsimp only
  repeat' split
  all_goals try simp [h]
  next u hu => simpa [s.gateEmit_phys _ _ _ u hu] using h

@[simp] theorem State.releaseHeld_phys (key colour : Nat) : (s.releaseHeld key colour).phys = s.phys := by
  unfold State.releaseHeld
  split
  · rfl
  · split
    · next u hu => simpa using s.gateEmit_phys _ _ _ u hu
    · rfl

theorem execHeldTokenRelease_hbm (die gate : Nat) (h : Memory.wf s.phys = true) :
    Answers HbmWf (execHeldTokenRelease die gate s) := by
  unfold execHeldTokenRelease
  dsimp only
  repeat' split
  all_goals simp [h]

@[simp] theorem State.beginCut_phys (l : Launch) : (s.beginCut l).phys = s.phys := by
  simp [State.beginCut]

@[simp] theorem State.cutFor_phys (p : Launch → Bool) (r : Rect) : (s.cutFor p r).phys = s.phys := by
  simp [State.cutFor]

@[simp] theorem State.afterCut_phys (qs : List Launch) : (s.afterCut qs).phys = s.phys := rfl

@[simp] theorem State.grant_phys (l : Launch) (r : Rect) (dies : List Nat) : (s.grant l r dies).phys = s.phys := by
  simp [State.grant]

theorem execRegionSchedule_hbm (colour : Nat) (rect : Rect) (plan : Plan) (h : Memory.wf s.phys = true) :
    Answers HbmWf (execRegionSchedule colour rect plan s) := by
  unfold execRegionSchedule
  split <;> simp [h]

@[simp] theorem State.endQuantum_phys : (s.endQuantum).phys = s.phys := by
  simp [State.endQuantum]

theorem execQuantum_hbm (die : Nat) (h : Memory.wf s.phys = true) : Answers HbmWf (execQuantum die s) := by
  simp [execQuantum, h]

@[simp] theorem State.rebindPlan_phys (colour : Nat) (e n : Nat → Nat) :
    (s.rebindPlan colour e n).phys = s.phys := rfl

theorem State.moveAreas_hbm (colour : Nat) (e : Nat → Nat) (saves : List Nat) (h : Memory.wf s.phys = true) :
    Memory.wf (s.moveAreas colour e saves).phys = true :=
  foldl_hbm (fun t _ ht => t.physWrite_hbm _ _ ht) _ h

@[simp] theorem State.prepareElem_phys (l : Launch) (b : List Byte) (p next : Plan) (saves : List Nat) (d pos : Nat) :
    (s.prepareElem l b p next saves d pos).phys = s.phys := rfl

theorem State.restage_hbm (l : Launch) (b : List Byte) (next : Plan) (h : Memory.wf s.phys = true) :
    Memory.wf (s.restage l b next).phys = true := by
  unfold State.restage
  split
  · exact h
  · next key _ =>
    have hc := foldl_hbm (fun (t : State) d ht => t.stageConsts_hbm b l.colour (loadNumber key) d ht) l.dies h
    dsimp only
    split
    · refine foldl_hbm (fun t x ht => ?_) _ (foldl_hbm (fun t d ht => by simpa using ht) _ hc)
      split
      · exact ht
      · exact t.stageImage_hbm _ _ _ _ ht
    · split
      · exact State.stageBanks_hbm _ _ _ _ hc
      · exact hc

@[simp] theorem State.restoreStaging_phys (l : Launch) (d : Nat) : (s.restoreStaging l d).phys = s.phys := by
  unfold State.restoreStaging
  split <;> simp

@[simp] theorem State.moveFaults_phys (colour : Nat) (e : Nat → Nat) : (s.moveFaults colour e).phys = s.phys := rfl

@[simp] theorem State.restoreSelect_phys (l : Launch) : (s.restoreSelect l).phys = s.phys := by
  unfold State.restoreSelect
  split <;> simp

/-! The parts of a resumption: the areas move, the elements are made ready and loaded, the nodes and memory actors are
loaded, and the staging is done again. -/

theorem State.movedAreas_hbm (l : Launch) (e n : Nat → Nat) (h : Memory.wf s.phys = true) :
    Memory.wf (((s.rebindPlan l.colour e n).moveAreas l.colour e l.saves).moveFaults l.colour e).phys = true := by
  rw [State.moveFaults_phys]
  exact State.moveAreas_hbm _ l.colour e l.saves (by rwa [State.rebindPlan_phys])

theorem State.prepareElems_phys (l : Launch) (b : List Byte) (p next : Plan) (saves : List Nat) :
    (l.dies.foldl (fun t d => (t.regionElems d l.colour).foldl (fun u pos => u.prepareElem l b p next saves d pos) t) s).phys
      = s.phys :=
  foldl_phys _ _ _ fun _ _ => foldl_phys _ _ _ fun _ _ => State.prepareElem_phys ..

theorem State.loadElems_phys (l : Launch) (saves : List Nat) :
    (saves.foldl (fun t k => t.loadElem (k / 6400) (t.saveArea (k / 6400) l.colour) (k % 6400) true) s).phys = s.phys :=
  foldl_phys _ _ _ fun _ _ => State.loadElem_phys ..

theorem State.loadUnits_phys (l : Launch) :
    (l.dies.foldl (fun t d =>
      (t.keptMas d l.colour).foldl (fun u m => u.loadMa l.colour d (u.saveArea d l.colour) m) (t.loadLone d l.colour)) s).phys
      = s.phys :=
  foldl_phys _ _ _ fun _ _ => (foldl_phys _ _ _ fun _ _ => State.loadMa_phys ..).trans (State.loadLone_phys ..)

theorem State.stagedAgain_hbm (l : Launch) (b : List Byte) (next : Plan) (h : Memory.wf s.phys = true) :
    Memory.wf (((l.dies.foldl (fun t d => t.restoreStaging l d) s).restage l b next).restoreGates l.colour).phys = true := by
  rw [State.restoreGates_phys]
  refine State.restage_hbm _ _ _ _ ?_
  rwa [foldl_phys _ _ _ fun _ _ => State.restoreStaging_phys ..]

theorem State.resume_hbm (l : Launch) (p : Plan) (h : Memory.wf s.phys = true) :
    Memory.wf (s.resume l p).phys = true := by
  unfold State.resume
  dsimp only
  rw [State.mapLaunch_phys, foldl_phys _ _ _ fun _ _ => State.reopen_phys .., State.restoreSelect_phys]
  refine State.stagedAgain_hbm _ _ _ _ ?_
  rw [State.loadUnits_phys, State.loadElems_phys, State.prepareElems_phys]
  exact s.movedAreas_hbm _ _ _ h

theorem execLaunchResume_hbm (colour : Nat) (rect : Rect) (plan : Plan) (h : Memory.wf s.phys = true) :
    Answers HbmWf (execLaunchResume colour rect plan s) := by
  unfold execLaunchResume
  split
  · exact .next h
  · next l _ =>
    dsimp only
    split
    · exact .next (State.resume_hbm _ _ _ (by simpa using h))
    · exact .next h

/-! ### Host requests -/

theorem State.hostWrite_hbm (pa v : Nat) (h : Memory.wf s.phys = true) : Memory.wf (s.hostWrite pa v).phys = true := by
  unfold State.hostWrite
  split
  · simpa using h
  · exact Memory.wf_write _ _ _ _ h

theorem State.hostWriteAll_hbm (l : List Nat) (b : List Byte) (h : Memory.wf s.phys = true) :
    Memory.wf (s.hostWriteAll l b).phys = true := by
  induction l generalizing s b with
  | nil => exact h
  | cons pa l ih => exact ih _ _ (s.hostWrite_hbm pa _ h)

theorem execEoloWrite_hbm (f : Frame) (h : Memory.wf s.phys = true) : Answers HbmWf (execEoloWrite f s) :=
  journalledRequest_hbm s h fun _ t ht => by
    split
    · exact t.hostWriteAll_hbm _ _ ht
    · exact ht

theorem execEoloRead_hbm (f : Frame) (h : Memory.wf s.phys = true) : Answers HbmWf (execEoloRead f s) :=
  plainRequest_hbm s h fun _ t => by
    split
    · rfl
    · split <;> rfl

@[simp] theorem State.keepImage_phys (num len : Nat) (b : List Byte) : (s.keepImage num len b).phys = s.phys := rfl

@[simp] theorem State.acceptImage_phys (b : List Byte) : (s.acceptImage b).phys = s.phys := rfl

@[simp] theorem State.performImage_phys (b : List Byte) : (s.performImage b).st.phys = s.phys := by
  unfold State.performImage
  split <;> simp

theorem execImage_hbm (f : Frame) (h : Memory.wf s.phys = true) : Answers HbmWf (execImage f s) :=
  onFrame_hbm s h fun x t ht => by
    have hp (b : List Byte) : Memory.wf ((t.keepImage x.num 0 []).perform x.num f
        (fun _ => bodyBytes 4 (t.imageIndex (graphName b)) ++ bodyBytes 4 (imgGen b) ++ (imgDigest b).take 16)
        fun u => u.performImage b).phys = true :=
      State.perform_hbm _ _ _ _ (fun u hu => by simpa using hu) (by simpa using ht)
    dsimp only
    split
    · simpa using ht
    · split
      · simpa using ht
      · split
        · simpa using ht
        · split
          · simpa using ht
          · exact hp _

theorem execUnload_hbm (f : Frame) (h : Memory.wf s.phys = true) : Answers HbmWf (execUnload f s) :=
  journalledRequest_hbm s h fun _ t ht => by
    dsimp only
    split <;> simp [ht]

@[simp] theorem State.openLaunch_phys (d : Descriptor) (r : Resident) (die session : Nat) :
    (s.openLaunch d r die session).phys = s.phys := rfl

@[simp] theorem State.sendDesc_phys (stream : Bool) (key : Nat) (d : Descriptor) :
    (s.sendDesc stream key d).phys = s.phys := by
  simp [State.sendDesc]

@[simp] theorem State.joinLaunch_phys (l : Launch) (d : Descriptor) (stream : Bool) (die : Nat) :
    (s.joinLaunch l d stream die).st.phys = s.phys := by
  simp [State.joinLaunch]

@[simp] theorem State.beginLaunch_phys (d : Descriptor) (stream : Bool) (die session : Nat) :
    (s.beginLaunch d stream die session).st.phys = s.phys := by
  unfold State.beginLaunch
  split <;> simp

@[simp] theorem State.takeDescriptor_phys (d : Descriptor) (stream : Bool) (session : Nat) :
    (s.takeDescriptor d stream session).st.phys = s.phys := by
  unfold State.takeDescriptor
  split
  · rfl
  · split
    · simp
    · split <;> simp

theorem execLaunch_hbm (f : Frame) (h : Memory.wf s.phys = true) : Answers HbmWf (execLaunch f s) :=
  journalledRequest_hbm s h fun _ t ht => by simpa using ht

theorem execRegionOpen_hbm (f : Frame) (h : Memory.wf s.phys = true) : Answers HbmWf (execRegionOpen f s) :=
  journalledRequest_hbm s h fun _ t ht => by simpa using ht

@[simp] theorem State.abortNamed_phys (d : Descriptor) : (s.abortNamed d).st.phys = s.phys := by
  unfold State.abortNamed
  split
  · rfl
  · split
    · rfl
    · split <;> simp

theorem execRegionAbort_hbm (f : Frame) (h : Memory.wf s.phys = true) : Answers HbmWf (execRegionAbort f s) := by
  unfold execRegionAbort
  split
  · exact .next h
  · exact journalledRequest_hbm s h fun _ t ht => by simpa using ht

@[simp] theorem State.takeStream_phys (num : Nat) (f : Frame) (colour : Nat) (lid : Word) (key : Nat) :
    (s.takeStream num f colour lid key).phys = s.phys := by
  unfold State.takeStream
  dsimp only
  repeat' split
  all_goals simp

theorem execStream_hbm (f : Frame) (h : Memory.wf s.phys = true) : Answers HbmWf (execStream f s) :=
  onFrame_hbm s h fun _ _ ht => by
    dsimp only
    repeat' split
    all_goals simp [ht]

theorem execQueryIdentity_hbm (f : Frame) (h : Memory.wf s.phys = true) : Answers HbmWf (execQueryIdentity f s) := by
  unfold execQueryIdentity
  split
  · simp [h]
  · exact plainRequest_hbm s h fun _ _ => rfl

theorem execQueryLiveMap_hbm (f : Frame) (h : Memory.wf s.phys = true) : Answers HbmWf (execQueryLiveMap f s) :=
  plainRequest_hbm s h fun _ _ => rfl

theorem execQueryQuote_hbm (f : Frame) (h : Memory.wf s.phys = true) : Answers HbmWf (execQueryQuote f s) :=
  plainRequest_hbm s h fun _ _ => rfl

theorem execQueryKey_hbm (f : Frame) (h : Memory.wf s.phys = true) : Answers HbmWf (execQueryKey f s) :=
  plainRequest_hbm s h fun _ _ => rfl

theorem execQuerySetPort_hbm (f : Frame) (h : Memory.wf s.phys = true) : Answers HbmWf (execQuerySetPort f s) :=
  plainRequest_hbm s h fun _ _ => rfl

@[simp] theorem State.readJournal_phys (first n : Nat) : (s.readJournal first n).st.phys = s.phys := rfl

theorem execJournal_hbm (f : Frame) (h : Memory.wf s.phys = true) : Answers HbmWf (execJournal f s) :=
  plainRequest_hbm s h fun _ _ => rfl

@[simp] theorem State.hostRepair_phys (f : Frame) : (s.hostRepair f).st.phys = s.phys := by
  unfold State.hostRepair
  split
  · rfl
  · rfl
  · simp

theorem execEoloRepair_hbm (f : Frame) (h : Memory.wf s.phys = true) : Answers HbmWf (execEoloRepair f s) := by
  unfold execEoloRepair
  split
  · exact .next h
  · exact journalledRequest_hbm s h fun _ t ht => by simpa using ht

theorem execPeerWindow_hbm (f : Frame) (h : Memory.wf s.phys = true) : Answers HbmWf (execPeerWindow f s) :=
  journalledRequest_hbm s h fun _ t ht => by
    split <;> simp [ht]

theorem execPeerInboundGrant_hbm (f : Frame) (h : Memory.wf s.phys = true) : Answers HbmWf (execPeerInboundGrant f s) :=
  journalledRequest_hbm s h fun _ t ht => by
    split <;> simp [ht]

theorem execPeerBind_hbm (f : Frame) (h : Memory.wf s.phys = true) : Answers HbmWf (execPeerBind f s) :=
  journalledRequest_hbm s h fun _ t ht => by
    split <;> simp [ht]

theorem State.sendCompletion_hbm (l : Launch) (h : Memory.wf s.phys = true) :
    Memory.wf (s.sendCompletion l).phys = true := by
  unfold State.sendCompletion
  dsimp only
  split <;> simpa using s.journal_hbm _ _ _ _ _ _ h

theorem execCompletion_hbm (i : Nat) (h : Memory.wf s.phys = true) : Answers HbmWf (execCompletion i s) := by
  unfold execCompletion
  split
  · exact .next h
  · split
    · exact .next (State.sendCompletion_hbm _ _ h)
    · exact .next h

theorem execEoloFault_hbm (die : Nat) (h : Memory.wf s.phys = true) : Answers HbmWf (execEoloFault die s) := by
  unfold execEoloFault
  dsimp only
  repeat' split
  all_goals simp [h]

theorem execHalt_hbm (die : Nat) (h : Memory.wf s.phys = true) : Answers HbmWf (execHalt die s) := by
  unfold execHalt
  dsimp only
  split <;> simp [h]

theorem execMessage_hbm (die : Nat) (h : Memory.wf s.phys = true) : Answers HbmWf (execMessage die s) := by
  unfold execMessage
  dsimp only
  repeat' split
  all_goals simp [h]

/-! ### Boot and telemetry -/

/-- A boot leaves HBM empty. -/
theorem State.boot_phys (fails : List DWord) (halves : List (Nat × Nat)) : (s.boot fails halves).phys = [] := by
  unfold State.boot
  dsimp only
  split
  · rfl
  · split <;> rfl

theorem State.boot_hbm (fails : List DWord) (halves : List (Nat × Nat)) :
    Memory.wf (s.boot fails halves).phys = true := by
  rw [State.boot_phys]
  rfl

theorem execModuleReset_hbm (failures : List DWord) (halves : List (Nat × Nat)) :
    Answers HbmWf (execModuleReset failures halves s) := .next (s.boot_hbm _ _)

@[simp] theorem State.countTel_phys (d : Nat) : (s.countTel d).phys = s.phys := rfl

theorem execTelemetryUpdate_hbm (die : Nat) (h : Memory.wf s.phys = true) :
    Answers HbmWf (execTelemetryUpdate die s) := by
  unfold execTelemetryUpdate
  split
  · refine .next (foldl_hbm (fun t d ht => ?_) _ (by simpa using h))
    simpa using State.physWrite_hbm _ _ _ (by simpa using ht)
  · exact .next h

@[simp] theorem State.thermalClock_phys (die plot : Nat) (limit : Option Nat) :
    (s.thermalClock die plot limit).phys = s.phys := by
  simp [State.thermalClock]

theorem execThermal_hbm (die plot tenthsC : Nat) (h : Memory.wf s.phys = true) :
    Answers HbmWf (execThermal die plot tenthsC s) := by
  unfold execThermal
  split
  · exact .next h
  · simp [h, State.boot_hbm]

/-! ### The matrix unit -/

theorem execMatrixCommandExecute_hbm (die pos : Nat) (h : Memory.wf s.phys = true) :
    Answers HbmWf (execMatrixCommandExecute die pos s) := by
  unfold execMatrixCommandExecute
  dsimp only
  repeat' split
  all_goals simp [h]

end Sys2Proof.Machine
end

section
/-! ## Every step keeps HBM canonical -/

namespace Sys2Proof.Machine
open Host (Outcome)

/-- An instruction of a core leaves HBM as it is; each event keeps it canonical. -/
theorem exec_hbm (s : State) (i : Instr) (h : Memory.wf s.phys = true) : Answers HbmWf (exec i s) := by
  by_cases hi : i.isIsa = true
  · exact (exec_turn i hi).hbm_of_turn h
  · cases i with
    | stepLimit => exact execStepLimit_hbm s h
    | deferralLimit why => exact execDeferralLimit_hbm s why h
    | tokenArrival a => exact execTokenArrival_hbm s a h
    | matchToken die pos => exact execMatchToken_hbm s die pos h
    | runQueueJoin die pos => exact execRunQueueJoin_hbm s die pos h
    | endFiringReady die pos slot => exact execEndFiringReady_hbm s die pos slot h
    | dispatch die pos => exact execDispatch_hbm s die pos h
    | firingCommit die pos => exact execFiringCommit_hbm s die pos h
    | streamReadResume die pos => exact execStreamReadResume_hbm s die pos h
    | retireToken die pos port => exact execRetireToken_hbm s die pos port h
    | freeNotice n => exact execFreeNotice_hbm s n h
    | sluiceReply die pool => exact execSluiceReply_hbm s die pool h
    | turnoutPair die node => exact execTurnoutPair_hbm s die node h
    | unorderedConfluence die node input => exact execUnorderedConfluence_hbm s die node input h
    | orderedConfluence die node input => exact execOrderedConfluence_hbm s die node input h
    | generatorRead die pos g => exact execGeneratorRead_hbm s die pos g h
    | generatorWrite die pos g => exact execGeneratorWrite_hbm s die pos g h
    | drainToken die pos g => exact execDrainToken_hbm s die pos g h
    | matrixCommandExecute die pos => exact execMatrixCommandExecute_hbm s die pos h
    | memoryRequestIssue die slot => exact execMemoryRequestIssue_hbm s die slot h
    | addressTranslation die slot => exact execAddressTranslation_hbm s die slot h
    | startToken die slot => exact execStartToken_hbm s die slot h
    | writeDataToken die slot => exact execWriteDataToken_hbm s die slot h
    | afterToken die slot => exact execAfterToken_hbm s die slot h
    | memoryPerform die slot index granule => exact execMemoryPerform_hbm s die slot index granule h
    | memoryResponse die slot => exact execMemoryResponse_hbm s die slot h
    | storeAcknowledgement die slot index => exact execStoreAcknowledgement_hbm s die slot index h
    | completionSegment die slot => exact execCompletionSegment_hbm s die slot h
    | spillWrite dest colour failed => exact execSpillWrite_hbm s dest colour failed h
    | packetForward n hop => exact execPacketForward_hbm s n hop h
    | escapeSubchannel n => exact execEscapeSubchannel_hbm s n h
    | link die link => exact execLink_hbm s die link h
    | laneLoss die link => exact execLaneLoss_hbm s die link h
    | faultRecordDelivery die => exact execFaultRecordDelivery_hbm s die h
    | faultToken die => exact execFaultToken_hbm s die h
    | repairRequest colour => exact execRepairRequest_hbm s colour h
    | repairToken n => exact execRepairToken_hbm s n h
    | headgateDescriptor n => exact execHeadgateDescriptor_hbm s n h
    | headgateToken die gate => exact execHeadgateToken_hbm s die gate h
    | heldTokenRelease die gate => exact execHeldTokenRelease_hbm s die gate h
    | loaderWake colour plan => exact execLoaderWake_hbm s colour plan h
    | regionSchedule colour rect plan => exact execRegionSchedule_hbm s colour rect plan h
    | quantum die => exact execQuantum_hbm s die h
    | timer die => exact execTimer_hbm s die h
    | loadSelect colour => exact execLoadSelect_hbm s colour h
    | switchToken src colour => exact execSwitchToken_hbm s src colour h
    | elementSwitch die pos => exact execElementSwitch_hbm s die pos h
    | drainedNotice die colour => exact execDrainedNotice_hbm s die colour h
    | loadComplete colour => exact execLoadComplete_hbm s colour h
    | completionMessage colour => exact execCompletionMessage_hbm s colour h
    | mailboxDelivery die k src => exact execMailboxDelivery_hbm s die k src h
    | cfgWriteElementMemory die ticket => exact execCfgWriteElementMemory_hbm s die ticket h
    | cfgWriteStagedBlock die ticket => exact execCfgWriteStagedBlock_hbm s die ticket h
    | cfgWriteActiveBlock die ticket => exact execCfgWriteActiveBlock_hbm s die ticket h
    | cfgWriteStagingArea die ticket => exact execCfgWriteStagingArea_hbm s die ticket h
    | cfgWriteStagedNode die ticket => exact execCfgWriteStagedNode_hbm s die ticket h
    | cfgWriteActiveNode die ticket => exact execCfgWriteActiveNode_hbm s die ticket h
    | cfgBankImage die ticket => exact execCfgBankImage_hbm s die ticket h
    | cfgBankConstants die ticket => exact execCfgBankConstants_hbm s die ticket h
    | loadStageOpen die ticket => exact execLoadStageOpen_hbm s die ticket h
    | loadStageClose die ticket => exact execLoadStageClose_hbm s die ticket h
    | loadCommit die ticket => exact execLoadCommit_hbm s die ticket h
    | loadAbort die ticket => exact execLoadAbort_hbm s die ticket h
    | loadSwitch die ticket => exact execLoadSwitch_hbm s die ticket h
    | regionGrant die ticket => exact execRegionGrant_hbm s die ticket h
    | regionFree die ticket => exact execRegionFree_hbm s die ticket h
    | maSet die ticket => exact execMaSet_hbm s die ticket h
    | maStart die ticket => exact execMaStart_hbm s die ticket h
    | maResumeHalt die ticket => exact execMaResumeHalt_hbm s die ticket h
    | maResumeFault die ticket => exact execMaResumeFault_hbm s die ticket h
    | maHalt die ticket => exact execMaHalt_hbm s die ticket h
    | chanBind die ticket => exact execChanBind_hbm s die ticket h
    | chanDepth die ticket => exact execChanDepth_hbm s die ticket h
    | inject die ticket => exact execInject_hbm s die ticket h
    | repairResume die ticket => exact execRepairResume_hbm s die ticket h
    | repairSkip die ticket => exact execRepairSkip_hbm s die ticket h
    | repairSubst die ticket => exact execRepairSubst_hbm s die ticket h
    | repairAbort die ticket => exact execRepairAbort_hbm s die ticket h
    | weir die ticket => exact execWeir_hbm s die ticket h
    | colourRead die ticket => exact execColourRead_hbm s die ticket h
    | stateSave die ticket => exact execStateSave_hbm s die ticket h
    | stateLoad die ticket => exact execStateLoad_hbm s die ticket h
    | sluiceSet die ticket => exact execSluiceSet_hbm s die ticket h
    | sluiceClear die ticket => exact execSluiceClear_hbm s die ticket h
    | rebalMove die ticket => exact execRebalMove_hbm s die ticket h
    | plotClock die ticket => exact execPlotClock_hbm s die ticket h
    | genMarkHold die ticket => exact execGenMarkHold_hbm s die ticket h
    | genMarkRelease die ticket => exact execGenMarkRelease_hbm s die ticket h
    | genMarkQuery die ticket => exact execGenMarkQuery_hbm s die ticket h
    | xlateRoot die ticket => exact execXlateRoot_hbm s die ticket h
    | streamCommandComplete die ticket => exact execStreamCommandComplete_hbm s die ticket h
    | elementFreeze die pos => exact execElementFreeze_hbm s die pos h
    | memoryActorWeir die slot => exact execMemoryActorWeir_hbm s die slot h
    | cutComplete colour => exact execCutComplete_hbm s colour h
    | cutCompletionWins colour => exact execCutCompletionWins_hbm s colour h
    | launchResume colour rect plan => exact execLaunchResume_hbm s colour rect plan h
    | hello f => exact execHello_hbm s f h
    | bye f => exact execBye_hbm s f h
    | eoloWrite f => exact execEoloWrite_hbm s f h
    | eoloRead f => exact execEoloRead_hbm s f h
    | image f => exact execImage_hbm s f h
    | unload f => exact execUnload_hbm s f h
    | launch f => exact execLaunch_hbm s f h
    | stream f => exact execStream_hbm s f h
    | queryIdentity f => exact execQueryIdentity_hbm s f h
    | queryLiveMap f => exact execQueryLiveMap_hbm s f h
    | queryQuote f => exact execQueryQuote_hbm s f h
    | queryKey f => exact execQueryKey_hbm s f h
    | querySetPort f => exact execQuerySetPort_hbm s f h
    | regionOpen f => exact execRegionOpen_hbm s f h
    | regionAbort f => exact execRegionAbort_hbm s f h
    | journal f => exact execJournal_hbm s f h
    | eoloRepair f => exact execEoloRepair_hbm s f h
    | peerWindow f => exact execPeerWindow_hbm s f h
    | peerInboundGrant f => exact execPeerInboundGrant_hbm s f h
    | peerBind f => exact execPeerBind_hbm s f h
    | eoloAck f => exact execEoloAck_hbm s f h
    | eoloRetransmit session => exact execEoloRetransmit_hbm s session h
    | completion n => exact execCompletion_hbm s n h
    | eoloFault die => exact execEoloFault_hbm s die h
    | halt die => exact execHalt_hbm s die h
    | message die => exact execMessage_hbm s die h
    | moduleReset failures halves => exact execModuleReset_hbm s failures halves
    | telemetryUpdate die => exact execTelemetryUpdate_hbm s die h
    | thermal die plot tenthsC => exact execThermal_hbm s die plot tenthsC h
    | xinvAcknowledged die acker => exact execXinvAcknowledged_hbm s die acker h
    | nonInstruction => exact execNonInstruction_hbm s h
    | laneRetrain die link degrades => exact execLaneRetrain_hbm s die link degrades h
    | _ => exact absurd rfl hi

theorem step_hbm (s : State) (h : Memory.wf s.phys = true) : Answers HbmWf (step s) := by
  unfold step
  split
  · exact stepCore_turn.hbm_of_turn h
  · exact stepCore_turn.hbm_of_turn h
  · split
    · exact .next h
    · exact exec_hbm _ _ h

/-- Settles O31, by what each event of the agenda and a turn of a core leave of HBM. -/
theorem everyStepKeepsHbmCanonical : Obligations.EveryStepKeepsHbmCanonical := by
  unfold Obligations.EveryStepKeepsHbmCanonical
  exact fun s u h hu => step_hbm s h u hu

end Sys2Proof.Machine
end

section
/-! ## Reading a granule back, and what a response, a granule and the end of a run leave -/

namespace Sys2Proof.Machine
open Host (Outcome)

theorem Memory.read_lt (n : Nat) : ∀ (m : Mem) (a : Nat), Memory.read m a n < 256 ^ n := by
  induction n with
  | zero => intro m a; exact Nat.one_pos
  | succ n ih =>
    intro m a
    have hb := (Memory.get m a).isLt
    have hr := ih m (a + 1)
    rw [Memory.read, Nat.pow_succ]
    omega

theorem pow_256_eq (n : Nat) : 256 ^ n = 2 ^ (8 * n) := by
  rw [Nat.pow_mul]

section
variable (s : State) (die slot : Nat)

@[simp] theorem State.mapMa_ma (f : MemActor → MemActor) :
    (s.mapMa die slot f).ma (maKey die slot) = f (s.ma (maKey die slot)) :=
  s.ma_setMa_same _ _

@[simp] theorem State.mapMa_packets (f : MemActor → MemActor) : (s.mapMa die slot f).packets = s.packets := rfl

/-- The end of a run changes the state of the memory actor and nothing else. -/
theorem State.endMa_cases :
    s.endMa die slot = s ∨ s.endMa die slot = s.mapMa die slot fun m => { m with st := .ended } := by
  unfold State.endMa
  dsimp only
  split
  · exact .inr rfl
  · exact .inl rfl

@[simp] theorem State.endMa_packets : (s.endMa die slot).packets = s.packets := by
  obtain h | h := s.endMa_cases die slot <;> rw [h]
  rfl

@[simp] theorem State.endMa_out : ((s.endMa die slot).ma (maKey die slot)).out = (s.ma (maKey die slot)).out := by
  obtain h | h := s.endMa_cases die slot <;> rw [h]
  rw [State.mapMa_ma]

@[simp] theorem State.endMa_flight :
    ((s.endMa die slot).ma (maKey die slot)).flight = (s.ma (maKey die slot)).flight := by
  obtain h | h := s.endMa_cases die slot <;> rw [h]
  rw [State.mapMa_ma]

@[simp] theorem State.endMa_segs : ((s.endMa die slot).ma (maKey die slot)).segs = (s.ma (maKey die slot)).segs := by
  obtain h | h := s.endMa_cases die slot <;> rw [h]
  rw [State.mapMa_ma]

/-- With a credit a token leaves. -/
theorem State.tryEmit_eq {src : Source} {load : Nat} {b : Bind} {t : Token} (hb : s.srcBind src t.colour load = some b)
    (hc : s.credit b t = true) : s.tryEmit src load t = some (s.emit src load t) := by
  simp [State.tryEmit, hb, hc]

/-- Putting a granule changes HBM, its bad granules and the retired words alone, and HBM outside the retired words only. -/
theorem State.putGranule_rest (pa : Nat) (m : Mem) (written : Bool) :
    ∃ p g x, s.putGranule pa m written = { s with phys := p, bad := g, hw := x } ∧ p = if inRetire pa then s.phys else m := by
  unfold State.putGranule
  split
  · exact ⟨s.phys, s.bad, _, rfl, rfl⟩
  · exact ⟨m, _, s.hw, rfl, rfl⟩

@[simp] theorem State.putGranule_ma (pa : Nat) (m : Mem) (written : Bool) (k : Nat) :
    (s.putGranule pa m written).ma k = s.ma k := by
  obtain ⟨p, g, x, h, -⟩ := s.putGranule_rest pa m written
  rw [h]
  rfl

@[simp] theorem State.putGranule_packets (pa : Nat) (m : Mem) (written : Bool) :
    (s.putGranule pa m written).packets = s.packets := by
  obtain ⟨p, g, x, h, -⟩ := s.putGranule_rest pa m written
  rw [h]

theorem State.putGranule_phys (pa : Nat) (m : Mem) (written : Bool) :
    (s.putGranule pa m written).phys = if inRetire pa then s.phys else m := by
  obtain ⟨p, g, x, h, hp⟩ := s.putGranule_rest pa m written
  rw [h]
  exact hp

@[simp] theorem State.answerBlock_ma (r : Req) (g k : Nat) : (s.answerBlock die slot r g).ma k = s.ma k := by
  unfold State.answerBlock
  dsimp only
  split <;> rfl

/-- The answer of a block's last granule: the request packets of the block go, and one packet of class 1 comes. -/
theorem State.answerBlock_packets {r : Req} {g : Nat} (h : lastOfBlock r g = true) :
    ∃ q, (s.answerBlock die slot r g).packets =
        s.packets.filter (fun p => !isBlockRequest die slot r.index (blockOf (nth r.pas g 0)) p.cargo) ++ [q] ∧ q.cls = 1 ∧
      ∃ n, q.cargo = .response die slot r.index (blockOf (nth r.pas g 0)) n := by
  unfold State.answerBlock
  dsimp only
  rw [if_pos h]
  exact ⟨_, rfl, rfl, _, rfl⟩

end

/-! ### Table 4-6 at a unit -/

theorem performAt_read {c : MaCfg} (hk : c.kind = .read) (m : Mem) (r : Req) (g pa : Nat) :
    performAt c m r g pa = (m, BitVec.ofNat 64 (Memory.read m pa (granuleBytes c))) := by
  simp [performAt, hk]

theorem performAt_write {c : MaCfg} (hk : c.kind = .write) (m : Mem) (r : Req) (g pa : Nat) :
    performAt c m r g pa = (Memory.write m pa (nth r.data g 0).toNat (granuleBytes c), 0) := by
  simp [performAt, hk]

theorem performAt_atomic {c : MaCfg} (hk : c.kind = .atomic) (m : Mem) (r : Req) (g pa : Nat) :
    performAt c m r g pa =
      (Memory.write m pa (atomicNew c.op (granuleBytes c) (Memory.read m pa (granuleBytes c)) (nth r.data 0 0).toNat r.cmp.toNat)
        (granuleBytes c), BitVec.ofNat 64 (Memory.read m pa (granuleBytes c))) := by
  simp [performAt, hk]

/-- No byte outside the unit at its address changes. -/
theorem performAt_other (c : MaCfg) (m : Mem) (r : Req) (g pa : Nat) {a : Nat} (ha : a < pa ∨ pa + granuleBytes c ≤ a) :
    Memory.get (performAt c m r g pa).1 a = Memory.get m a := by
  cases hk : c.kind with
  | read => rw [performAt_read hk]
  | write => rw [performAt_write hk, Memory.get_write_other _ _ _ _ _ ha]
  | atomic => rw [performAt_atomic hk, Memory.get_write_other _ _ _ _ _ ha]

section
variable {c : MaCfg} {m : Mem} (r : Req) (g pa : Nat)

theorem read_performAt_write (hk : c.kind = .write) (hm : Memory.wf m = true) :
    Memory.read (performAt c m r g pa).1 pa (granuleBytes c) = (nth r.data g 0).toNat % 2 ^ (8 * granuleBytes c) := by
  rw [performAt_write hk, Memory.read_write_same _ _ _ _ hm, pow_256_eq]

theorem read_performAt_atomic (hk : c.kind = .atomic) (hm : Memory.wf m = true) :
    Memory.read (performAt c m r g pa).1 pa (granuleBytes c) =
      atomicNew c.op (granuleBytes c) (Memory.read m pa (granuleBytes c)) (nth r.data 0 0).toNat r.cmp.toNat %
        2 ^ (8 * granuleBytes c) := by
  rw [performAt_atomic hk, Memory.read_write_same _ _ _ _ hm, pow_256_eq]

end

theorem atomicNew_add (n old v cmp : Nat) : atomicNew .add n old v cmp % 2 ^ (8 * n) = (old + v) % 2 ^ (8 * n) :=
  Nat.mod_mod ..

theorem atomicNew_swap (n old v cmp : Nat) : atomicNew .swap n old v cmp % 2 ^ (8 * n) = v % 2 ^ (8 * n) := Nat.mod_mod ..

theorem atomicNew_cas {n old : Nat} (v cmp : Nat) (h : old < 2 ^ (8 * n)) :
    atomicNew .cas n old v cmp % 2 ^ (8 * n) = if old = cmp % 2 ^ (8 * n) then v % 2 ^ (8 * n) else old := by
  simp only [atomicNew]
  split
  · exact Nat.mod_mod ..
  · exact Nat.mod_eq_of_lt h

/-! ### The four events -/

section
variable {s : State} {die slot : Nat}

/-- HBM and the value read, after the first granule of a request at an address. -/
def State.unitAt (s : State) (die slot : Nat) (r : Req) (pa : Nat) : Mem × DWord :=
  performAt (maCfg (s.ma (maKey die slot)).active) (s.granuleMem pa) r 0 pa

/-- The state in which the first granule of a request is performed at an address. -/
def State.unitPerformed (s : State) (die slot : Nat) (r : Req) (pa : Nat) : State :=
  ((s.mapMa die slot fun m => mapReq m r.index fun r' => granuleDone r' 0 (s.unitAt die slot r pa).2).answerBlock die slot r 0).putGranule
    pa (s.unitAt die slot r pa).1 ((maCfg (s.ma (maKey die slot)).active).kind = .write)

/-- The one request in flight, whose last granule is performed at its home. -/
theorem execMemoryPerform_one {r : Req} {pa : Nat} (hf : (s.ma (maKey die slot)).flight = [r]) (hst : r.st = .issued)
    (hleft : r.left = [0]) (hpas : r.pas = [pa]) (hsp : paSpace pa ≠ 2) (hbad : s.bad.contains (pa / 8) = false)
    (hhome : s.requestHome die slot r.index (pa / 64) = true) (hat : s.behindAtomic die slot r 0 = false)
    (hroom : s.answerRoom die slot r 0 = true) :
    exec (.memoryPerform die slot r.index 0) s = .next (s.unitPerformed die slot r pa) := by
  have hpa : nth r.pas 0 0 = pa := by rw [hpas]; rfl
  have hmay : s.mayPerform die slot r 0 = true := by
    simp [State.mayPerform, hst, hleft, hf, hat, hroom, behindOverlap, hpa, blockOf, hhome]
  show execMemoryPerform die slot r.index 0 s = _
  simp only [execMemoryPerform, hf, List.find?_cons, decide_true, hmay, if_true]
  simp only [State.performGranule, hpa, hbad, Bool.false_and, Bool.false_eq_true, if_false, hsp]
  rfl

/-- With nothing left of it, the one request in flight is performed. -/
theorem mapReq_granuleDone_one {m : MemActor} {r : Req} (v : DWord) (hf : m.flight = [r]) (hleft : r.left = [0]) :
    (mapReq m r.index fun r => granuleDone r 0 v).flight =
      [{ r with left := [], got := r.got ++ [(0, v)], st := .performed }] := by
  simp [mapReq, hf, granuleDone, hleft]

theorem State.granuleMem_eq {pa : Nat} (h : inRetire pa = false) : s.granuleMem pa = s.phys := by
  simp [State.granuleMem, h]

theorem State.unitPerformed_phys (r : Req) (pa : Nat) :
    (s.unitPerformed die slot r pa).phys = if inRetire pa then s.phys else (s.unitAt die slot r pa).1 := by
  rw [State.unitPerformed, State.putGranule_phys, State.answerBlock_phys, State.mapMa_phys]

theorem State.unitPerformed_flight {r : Req} (pa : Nat) (hf : (s.ma (maKey die slot)).flight = [r]) (hleft : r.left = [0]) :
    ((s.unitPerformed die slot r pa).ma (maKey die slot)).flight =
      [{ r with left := [], got := r.got ++ [(0, (s.unitAt die slot r pa).2)], st := .performed }] := by
  rw [State.unitPerformed, State.putGranule_ma, State.answerBlock_ma, State.mapMa_ma]
  exact mapReq_granuleDone_one _ hf hleft

/-- The request's packets of the block go, and one packet of class 1 answers. -/
theorem State.unitPerformed_packets {r : Req} {pa : Nat} (hleft : r.left = [0]) (hpas : r.pas = [pa]) :
    ∃ q, (s.unitPerformed die slot r pa).packets =
        s.packets.filter (fun p => !isBlockRequest die slot r.index (pa / 64) p.cargo) ++ [q] ∧ q.cls = 1 ∧
      ∃ n, q.cargo = .response die slot r.index (pa / 64) n := by
  have hpa : nth r.pas 0 0 = pa := by rw [hpas]; rfl
  obtain ⟨q, hq, hrest⟩ := State.answerBlock_packets
    (s.mapMa die slot fun m => mapReq m r.index fun r' => granuleDone r' 0 (s.unitAt die slot r pa).2) die slot (r := r) (g := 0)
    (by simp [lastOfBlock, hleft])
  rw [hpa] at hq hrest
  exact ⟨q, by rw [State.unitPerformed, State.putGranule_packets, hq]; rfl, hrest⟩

theorem maDelivers_of {m : MemActor} (hst : m.st ≠ .unconfigured) (hsaved : m.saved = false) (hweir : m.weir ≠ .sent) :
    maDelivers m = true := by
  simp [maDelivers, hst, hsaved, hweir]

/-- A response's next token leaves on resp. -/
theorem execMemoryResponse_out {t : Token} {rest : List Token} {b : Bind} (hm : maDelivers (s.ma (maKey die slot)) = true)
    (hout : (s.ma (maKey die slot)).out = t :: rest) (hcol : t.colour = (s.ma (maKey die slot)).colour)
    (hb : s.srcBind (maSource die slot 0) (s.ma (maKey die slot)).colour (s.ma (maKey die slot)).load = some b)
    (hs : strayStop b t = false) (hc : s.credit b t = true) :
    ∃ u, exec (.memoryResponse die slot) s = .next u ∧ (u.ma (maKey die slot)).out = rest ∧
      u.packets = s.packets ++ (pickDests b t).map (s.packet b t) := by
  have hb' : s.srcBind (maSource die slot 0) t.colour (s.ma (maKey die slot)).load = some b := hcol ▸ hb
  obtain ⟨l, hl⟩ := State.emit_packets (maSource die slot 0) _ hb' hs
  have hr : s.respond die slot =
      (s.sent l ((pickDests b t).map (s.packet b t))).mapMa die slot fun m => { m with out := rest } := by
    simp only [State.respond, hout, State.maOut, hb, s.tryEmit_eq hb' hc, hl]
  refine ⟨(s.respond die slot).endMa die slot, ?_, ?_, ?_⟩
  · show execMemoryResponse die slot s = _
    simp [execMemoryResponse, hm]
  · rw [State.endMa_out, hr, State.mapMa_ma]
  · rw [State.endMa_packets, hr]
    rfl

/-- The one store in flight, performed and answered, is acknowledged and leaves the list. -/
theorem execStoreAcknowledgement_one {r : Req} (hf : (s.ma (maKey die slot)).flight = [r])
    (hk : (maCfg (s.ma (maKey die slot)).active).kind ≠ .read) (hack : r.acked = false) (hst : r.st = .performed)
    (hresp : (s.ma (maKey die slot)).resp = []) (hans : s.answered die slot r.index = true) :
    ∃ u, exec (.storeAcknowledgement die slot r.index) s = .next u ∧ (u.ma (maKey die slot)).flight = [] ∧ u.phys = s.phys := by
  refine ⟨(s.mapMa die slot fun m => settleFlight (mapReq m r.index fun r => { r with acked := true })).endMa die slot, ?_, ?_, ?_⟩
  · show execStoreAcknowledgement die slot r.index s = _
    simp [execStoreAcknowledgement, hf, hk, ackDue, hack, hst, hans]
  · rw [State.endMa_flight, State.mapMa_ma]
    simp [settleFlight, mapReq, hf, hst, hresp]
  · rw [State.endMa_phys, State.mapMa_phys]

/-- A segment is done when it is closed and no store of it, in flight or formed, is unacknowledged. -/
theorem segDone_of {m : MemActor} {x : Seg} (hc : x.closed.isSome = true) (hf : ∀ r ∈ m.flight, r.seg = x.num → r.acked = true)
    (hcur : m.cur = none) : segDone m x = true := by
  simp only [segDone, hc, hcur, Bool.true_and, Bool.not_false, Bool.and_true, Bool.not_eq_true', List.any_eq_false,
    Bool.and_eq_true, decide_eq_true_eq, not_and, Bool.not_eq_false]
  simpa using hf

theorem execCompletionSegment_closed {x : Seg} {rest : List Seg} {b : Bind} {tag : Word}
    (hm : maDelivers (s.ma (maKey die slot)) = true) (hsegs : (s.ma (maKey die slot)).segs = x :: rest)
    (hx : x.closed = some tag) (hf : ∀ r ∈ (s.ma (maKey die slot)).flight, r.seg = x.num → r.acked = true)
    (hcur : (s.ma (maKey die slot)).cur = none)
    (hb : s.srcBind (maSource die slot 1) (s.ma (maKey die slot)).colour (s.ma (maKey die slot)).load = some b)
    (hc : s.credit b (maToken (s.ma (maKey die slot)).colour (BitVec.ofNat 64 x.units) tag) = true) :
    ∃ u, exec (.completionSegment die slot) s = .next u ∧ (u.ma (maKey die slot)).segs = rest ∧
      u.packets = s.packets ++ (pickDests b (maToken (s.ma (maKey die slot)).colour (BitVec.ofNat 64 x.units) tag)).map
        (s.packet b (maToken (s.ma (maKey die slot)).colour (BitVec.ofNat 64 x.units) tag)) := by
  obtain ⟨l, hl⟩ := State.emit_packets (t := maToken (s.ma (maKey die slot)).colour (BitVec.ofNat 64 x.units) tag)
    (maSource die slot 1) _ hb (strayStop_data rfl)
  have hr : s.complete die slot =
      (s.sent l ((pickDests b (maToken (s.ma (maKey die slot)).colour (BitVec.ofNat 64 x.units) tag)).map
        (s.packet b (maToken (s.ma (maKey die slot)).colour (BitVec.ofNat 64 x.units) tag)))).mapMa die slot
          fun m => { m with segs := rest } := by
    have hd := segDone_of (by rw [hx]; rfl) hf hcur
    have ht := s.tryEmit_eq (t := maToken (s.ma (maKey die slot)).colour (BitVec.ofNat 64 x.units) tag) hb hc
    simp only [State.complete, hsegs, hd, if_true, State.maOut, hb, Option.isSome_some, hx, Option.getD_some, ht, hl]
  refine ⟨(s.complete die slot).endMa die slot, ?_, ?_, ?_⟩
  · show execCompletionSegment die slot s = _
    simp [execCompletionSegment, hm]
  · rw [State.endMa_segs, hr, State.mapMa_ma]
  · rw [State.endMa_packets, hr]
    rfl

end

/-- Settles O41: a unit performed at its home, the token of a response, an acknowledged store and a closed segment. -/
theorem memoryActorResults : Obligations.MemoryActorResults := by
  unfold Obligations.MemoryActorResults
  intro s die slot key m c
  refine ⟨?_, ?_, ?_, ?_⟩
  · intro r pa hf hst hleft hpas hunit hsp hbad hwf hhome hat hroom old v
    have hn : granuleBytes c = c.unit := by
      rw [granuleBytes, if_neg (by simp only [isTile, decide_eq_true_eq]; omega)]
    have hwf' : Memory.wf (s.granuleMem pa) = true := s.granuleMem_wf pa hwf
    have hp : s.unitAt die slot r pa = performAt c (s.granuleMem pa) r 0 pa := rfl
    have hphys := State.unitPerformed_phys (s := s) (die := die) (slot := slot) r pa
    rw [hp] at hphys
    have hout (hr : inRetire pa = false) : (s.unitPerformed die slot r pa).phys = (performAt c (s.granuleMem pa) r 0 pa).1 := by
      rw [hphys, hr]
      rfl
    obtain ⟨q, hq, hcls, n, hcargo⟩ := State.unitPerformed_packets (s := s) (die := die) (slot := slot) hleft hpas
    refine ⟨_, _, q, execMemoryPerform_one hf hst hleft hpas hsp hbad hhome hat hroom, State.unitPerformed_flight pa hf hleft,
      rfl, rfl, fun a ha => ?_, fun hk => ⟨?_, ?_⟩, fun hr => ?_, fun hr hk => ?_, fun hk => ?_, fun hr hk =>
      ⟨fun hop => ?_, fun hop => ?_, fun hop => ?_⟩, hq, hcls, n, hcargo⟩
    · rw [hphys]
      split
      · rfl
      · next hr => rw [performAt_other c _ r 0 pa (by rwa [hn]), State.granuleMem_eq (by simpa using hr)]
    · rw [hphys, performAt_read hk]
      split
      · rfl
      · next hr => exact State.granuleMem_eq (by simpa using hr)
    · rw [hp, performAt_read hk, hn]
    · rw [hphys, if_pos hr]
    · rw [hout hr, ← hn, read_performAt_write r 0 pa hk hwf', hn]
    · rw [hp, performAt_atomic hk, hn]
    · rw [hout hr, ← hn, read_performAt_atomic r 0 pa hk hwf', hop, atomicNew_add, hn]
    · rw [hout hr, ← hn, read_performAt_atomic r 0 pa hk hwf', hop, atomicNew_swap, hn]
    · rw [hout hr, ← hn, read_performAt_atomic r 0 pa hk hwf', hop, atomicNew_cas _ _ (pow_256_eq _ ▸ Memory.read_lt ..), hn]
  · intro t rest b hst hsaved hweir hout hcol hb hs hc
    exact execMemoryResponse_out (maDelivers_of hst hsaved hweir) hout hcol hb hs hc
  · intro r hf hk hack hst hresp hans
    exact execStoreAcknowledgement_one hf hk hack hst hresp hans
  · intro x rest b tag hst hsaved hweir hsegs hx hf hcur hb hc
    exact execCompletionSegment_closed (maDelivers_of hst hsaved hweir) hsegs hx hf hcur hb hc

end Sys2Proof.Machine
end

section
/-! ## Forming, issuing and translating requests, and the tokens that a memory actor takes -/

namespace Sys2Proof.Machine
open Host (Outcome)
open Sys2Proof.Statements (maRuns)

/-! ### Taking the head of an input -/

section
variable {s : State} {die slot i : Nat} {t : Token}

theorem State.maPop_eq (h : s.maHead die slot i = some t) :
    ∃ l, s.maPop die slot i =
      { s.mapChan (maDest die slot i) (s.ma (maKey die slot)).colour (some (s.ma (maKey die slot)).load)
          (fun c => countMarks t c.pop) with packets := l } := by
  unfold State.maPop
  simp only [h]
  exact s.popChan_eq _ _ _ _

@[simp] theorem State.maPop_ma (k : Nat) : (s.maPop die slot i).ma k = s.ma k := by
  cases h : s.maHead die slot i with
  | none => simp [State.maPop, h]
  | some t =>
    obtain ⟨l, hl⟩ := State.maPop_eq h
    rw [hl]
    rfl

/-- A change of the actor's own record, its colour and load apart, leaves its inputs. -/
theorem State.mapMa_maIn {f : MemActor → MemActor} (hc : (f (s.ma (maKey die slot))).colour = (s.ma (maKey die slot)).colour)
    (hl : (f (s.ma (maKey die slot))).load = (s.ma (maKey die slot)).load) :
    (s.mapMa die slot f).maIn die slot i = s.maIn die slot i := by
  unfold State.maIn
  dsimp only
  rw [State.mapMa_ma, hc, hl]
  rfl

/-- The head of the input leaves its queue. -/
theorem State.maPop_queue (h : s.maHead die slot i = some t) :
    ((s.maPop die slot i).maIn die slot i).map Chan.queue = (s.maIn die slot i).map fun c => c.pop.queue := by
  obtain ⟨c, hc, -⟩ : ∃ c, s.maIn die slot i = some c ∧ c.head = some t := by
    simpa [State.maHead, Option.bind_eq_some_iff] using h
  obtain ⟨l, hl⟩ := State.maPop_eq h
  have hsame := State.chanAt_mapChan_same (f := fun c => countMarks t c.pop) hc rfl rfl rfl
  rw [hc, State.maIn, State.maPop_ma, hl]
  exact congrArg (Option.map Chan.queue) hsame

/-- A token taken from an input, with a change of the actor's record that leaves its colour and load. -/
theorem State.taken_queue {f : MemActor → MemActor} (h : s.maHead die slot i = some t)
    (hc : (f (s.ma (maKey die slot))).colour = (s.ma (maKey die slot)).colour)
    (hl : (f (s.ma (maKey die slot))).load = (s.ma (maKey die slot)).load) :
    (((s.maPop die slot i).mapMa die slot f).maIn die slot i).map Chan.queue = (s.maIn die slot i).map fun c => c.pop.queue := by
  rw [State.mapMa_maIn (by rw [State.maPop_ma, hc]) (by rw [State.maPop_ma, hl]), State.maPop_queue h]

end

/-! ### The requests of a pattern -/

theorem granules_pos (c : MaCfg) : 0 < granules c := by
  unfold granules
  split
  · next h =>
    have : 512 ≤ c.unit := by simpa [isTile] using h
    omega
  · exact Nat.one_pos

theorem granules_range (c : MaCfg) : ∃ l, List.range (granules c) = 0 :: l := by
  obtain ⟨n, hn⟩ := Nat.exists_eq_succ_of_ne_zero (granules_pos c).ne'
  exact ⟨_, by rw [hn, List.range_succ_eq_map]⟩

theorem tlbFind_empty {m : MemActor} (h : m.tlb = []) (va : Nat) (k : Access) : tlbFind m va k = none := by
  simp [tlbFind, h]

/-- The micro-TLB's entry for a leaf. -/
def leafEntry (m : MemActor) (l : Leaf) : Tlb :=
  { colour := m.colour, va := l.va, size := l.size, pa := l.pa, r := l.r, w := l.w, a := l.a }

/-- A leaf kept in an empty micro-TLB is its one entry. -/
theorem keepLeaf_empty {m : MemActor} (h : m.tlb = []) (l : Leaf) : (keepLeaf m l).tlb = [leafEntry m l] := by
  show (if tlbSize ≤ m.tlb.length then m.tlb.tail else m.tlb) ++ [leafEntry m l] = _
  rw [h]
  rfl

/-- With an empty micro-TLB no request is translated. -/
theorem translateAll_empty {m : MemActor} (h : m.tlb = []) (c : MaCfg) (r : Req) : translateAll m c r = none := by
  obtain ⟨l, hl⟩ := granules_range c
  simp [translateAll, hl, tlbFind_empty h]

theorem canForm_of_maRuns {m : MemActor} (h : maRuns m) : canForm m = true := by
  obtain ⟨hst, hweir, hsaved, hdrained⟩ := h
  simp [canForm, hst, hweir, hsaved, hdrained]

/-- With an empty micro-TLB the first granule of a formed request is the one that misses. -/
theorem missing_empty {m : MemActor} {r : Req} (hform : canForm m = true) (hcur : m.cur = some r) (hskip : r.skip = false)
    (hrange : r.outOfRange = false) (htlb : m.tlb = []) : missing m = some (r, 0) := by
  obtain ⟨l, hl⟩ := granules_range (maCfg m.active)
  simp [missing, hcur, hform, hskip, hrange, hl, tlbFind_empty htlb]

/-- Passing a gate changes the gate's count alone. -/
theorem passGate_gate (c : MaCfg) (m : MemActor) (level : Nat) : ∃ n, passGate c m level = { m with gate := n } := by
  unfold passGate
  split
  · exact ⟨_, rfl⟩
  · exact ⟨m.gate, rfl⟩

/-- A memory actor that has formed a request and owes its response. -/
def formed (m : MemActor) (r : Req) : MemActor :=
  { m with cur := some r, nextIdx := m.nextIdx + 1, unit := none, skipUnit := false, cmpVal := none,
           resp := m.resp ++ [.req r.index] }

theorem takeUnit_read {c : MaCfg} (hk : c.kind = .read) (m : MemActor) (r : Req) :
    ∃ n, takeUnit c m r = { formed m r with gate := n } := by
  obtain ⟨n, hn⟩ := passGate_gate c (formed m r) r.stops
  rw [takeUnit, hk]
  dsimp only
  split
  · exact ⟨m.gate, rfl⟩
  · exact ⟨n, hn⟩

/-- The request of a pattern at step i of its run. -/
def patternReq (m : MemActor) (start : DWord) (tag : Word) (i : Nat) : Req :=
  formedReq (maCfg m.active) m (patternVa (maCfg m.active) start.toNat i) tag (stopLevel (maCfg m.active) i)

section
variable {s : State} {die slot : Nat}

theorem State.nextAddr_pattern {start : DWord} {tag : Word} {i : Nat}
    (hidx : (maCfg (s.ma (maKey die slot)).active).index = false) (hrun : (s.ma (maKey die slot)).run = some (start, tag, i))
    (hdrop : (s.ma (maKey die slot)).dropAddrs = false) :
    s.nextAddr die slot = .at (patternVa (maCfg (s.ma (maKey die slot)).active) start.toNat i) tag
      (stopLevel (maCfg (s.ma (maKey die slot)).active) i) := by
  simp [State.nextAddr, hdrop, hidx, hrun]

theorem State.gateOpen_unbound (hafter : s.maIn die slot 4 = none) : s.gateOpen die slot = true := by
  have h : s.maBound die slot inAfter = false := by simp [State.maBound, inAfter, hafter]
  simp [State.gateOpen, h]

/-- A read actor forms the request of its run that comes next. -/
theorem State.formRead_pattern {start : DWord} {tag : Word} {i : Nat} (hk : (maCfg (s.ma (maKey die slot)).active).kind = .read)
    (hidx : (maCfg (s.ma (maKey die slot)).active).index = false) (hrun : (s.ma (maKey die slot)).run = some (start, tag, i))
    (hdrop : (s.ma (maKey die slot)).dropAddrs = false) (hafter : s.maIn die slot 4 = none) :
    ∃ n, (s.formRead die slot).ma (maKey die slot) =
      { formed (s.ma (maKey die slot)) (patternReq (s.ma (maKey die slot)) start tag i) with
        gate := n
        run := if i + 1 < runTotal (maCfg (s.ma (maKey die slot)).active) then some (start, tag, i + 1) else none } := by
  obtain ⟨n, hn⟩ := takeUnit_read hk (s.ma (maKey die slot)) (patternReq (s.ma (maKey die slot)) start tag i)
  refine ⟨n, ?_⟩
  rw [patternReq] at hn ⊢
  simp only [State.formRead, State.nextAddr_pattern hidx hrun hdrop, State.gateOpen_unbound hafter, if_true, State.takeAddr,
    State.mapMa_ma, hn]
  simp only [formed, hidx, Bool.false_eq_true, if_false, State.mapMa_ma, hn, hrun]

/-- A formed request that no leaf of the micro-TLB translates waits. -/
theorem State.issueCur_untranslated {r : Req} (hskip : r.skip = false) (hrange : r.outOfRange = false)
    (htlb : (s.ma (maKey die slot)).tlb = []) : s.issueCur die slot r = s := by
  simp [State.issueCur, hskip, hrange, translateAll_empty htlb]

theorem execMemoryRequestIssue_pattern {start : DWord} {tag : Word} {i : Nat} (hm : maRuns (s.ma (maKey die slot)))
    (hcur : (s.ma (maKey die slot)).cur = none) (hk : (maCfg (s.ma (maKey die slot)).active).kind = .read)
    (hidx : (maCfg (s.ma (maKey die slot)).active).index = false) (hrun : (s.ma (maKey die slot)).run = some (start, tag, i))
    (htlb : (s.ma (maKey die slot)).tlb = []) (hskip : (patternReq (s.ma (maKey die slot)) start tag i).skip = false)
    (hrange : (patternReq (s.ma (maKey die slot)) start tag i).outOfRange = false)
    (hdrop : (s.ma (maKey die slot)).dropAddrs = false) (hafter : s.maIn die slot 4 = none) :
    exec (.memoryRequestIssue die slot) s = .next (s.formRead die slot) := by
  obtain ⟨n, hn⟩ := State.formRead_pattern hk hidx hrun hdrop hafter
  have hissue := State.issueCur_untranslated (s := s.formRead die slot) (die := die) (slot := slot) hskip hrange
    (by rw [hn]; exact htlb)
  show execMemoryRequestIssue die slot s = _
  simp only [execMemoryRequestIssue, canForm_of_maRuns hm, hcur, hidx, hk, Bool.not_true, Bool.false_and, Bool.false_eq_true,
    if_false, if_true, hn, formed, hissue, ite_self]

/-! ### Issuing -/

/-- One packet of class 2 for each block. -/
theorem foldl_sendPacket_packets (colour : Nat) (f : Nat → Cargo) (src dst : State → Nat → Loc) (via : Option Nat)
    (bs : List Nat) (s : State) :
    ∃ l, (bs.foldl (fun t b => t.sendPacket 2 colour (f b) (src t b) (dst t b) via) s).packets = s.packets ++ l ∧
      l.length = bs.length ∧ ∀ p ∈ l, p.cls = 2 ∧ ∃ b ∈ bs, p.cargo = f b := by
  induction bs generalizing s with
  | nil => exact ⟨[], by simp⟩
  | cons b bs ih =>
    obtain ⟨l, hl, hlen, hall⟩ := ih (s.sendPacket 2 colour (f b) (src s b) (dst s b) via)
    refine ⟨_ :: l, by rw [List.foldl_cons, hl, State.sendPacket, List.append_assoc]; rfl, by simp [hlen], ?_⟩
    intro p hp
    rw [List.mem_cons] at hp
    obtain rfl | hp := hp
    · exact ⟨rfl, b, by simp, rfl⟩
    · obtain ⟨hcls, b', hb', hcargo⟩ := hall p hp
      exact ⟨hcls, b', by simp [hb'], hcargo⟩

theorem State.sendRequest_packets (r : Req) :
    ∃ l, (s.sendRequest die slot r).packets = s.packets ++ l ∧ l.length = (reqBlocks r).length ∧
      ∀ p ∈ l, p.cls = 2 ∧ ∃ b ∈ reqBlocks r,
        p.cargo = .request die slot r.index b (requestFlits (maCfg (s.ma (maKey die slot)).active) r b) :=
  foldl_sendPacket_packets _ _ (fun t _ => t.attach die) (fun t b => t.attach (t.homeDie die (64 * b))) _ _ _

theorem foldl_ma {α : Type} (f : State → α → State) (hf : ∀ t a k, (f t a).ma k = t.ma k) (l : List α) (s : State)
    (k : Nat) : (l.foldl f s).ma k = s.ma k := by
  induction l generalizing s with
  | nil => rfl
  | cons a l ih => rw [List.foldl_cons, ih, hf]

@[simp] theorem State.sendRequest_ma (r : Req) (k : Nat) : (s.sendRequest die slot r).ma k = s.ma k := by
  unfold State.sendRequest
  dsimp only
  rw [foldl_ma]
  intro t b k
  rfl

/-- A request whose pages are known and in reach, with room reserved for its answer, is issued. -/
theorem State.issueCur_issues {r : Req} {pas : List Nat} (hskip : r.skip = false) (hrange : r.outOfRange = false)
    (htr : translateAll (s.ma (maKey die slot)) (maCfg (s.ma (maKey die slot)).active) r = some pas)
    (hreach : s.reaches die (s.ma (maKey die slot)) (maCfg (s.ma (maKey die slot)).active) pas = true)
    (hfree : ∀ x ∈ (s.ma (maKey die slot)).flight, x.st ≠ .uncorrectable)
    (hroom : s.canReserve die slot { r with pas := pas } = true) :
    s.issueCur die slot r =
      (s.mapMa die slot fun m => { m with cur := none, flight := m.flight ++ [{ r with pas := pas }] }).sendRequest die slot
        { r with pas := pas } := by
  have hblock : blockedBy (maCfg (s.ma (maKey die slot)).active) (s.ma (maKey die slot)) { r with pas := pas } = false := by
    simp only [blockedBy, List.any_eq_false, Bool.and_eq_true, decide_eq_true_eq, not_and]
    exact fun x hx h => absurd h (hfree x hx)
  unfold State.issueCur
  dsimp only
  rw [if_neg (by simp [hskip]), if_neg (by simp [hrange]), htr]
  dsimp only
  rw [hreach, hblock, hroom]
  rfl

theorem execMemoryRequestIssue_cur {r : Req} (hm : maRuns (s.ma (maKey die slot))) (hcur : (s.ma (maKey die slot)).cur = some r) :
    exec (.memoryRequestIssue die slot) s = .next (s.issueCur die slot r) := by
  show execMemoryRequestIssue die slot s = _
  simp [execMemoryRequestIssue, canForm_of_maRuns hm, hcur]

/-! ### Translation -/

/-- A walk reads HBM, its bad granules, the roots and the live dies, and no memory actor. -/
theorem State.walkFrom_setMa (va : Nat) (k : Access) (n : Nat) (m : MemActor) (fuel lvl t : Nat) :
    (s.setMa n m).walkFrom va k fuel lvl t = s.walkFrom va k fuel lvl t := by
  induction fuel generalizing lvl t with
  | zero => rfl
  | succ fuel ih =>
    unfold State.walkFrom
    simp only [ih]
    rfl

theorem State.walk_setMa (die colour va : Nat) (k : Access) (n : Nat) (m : MemActor) :
    (s.setMa n m).walk die colour va k = s.walk die colour va k := by
  simp only [State.walk, State.walkFrom_setMa]
  rfl

theorem filter_range_one {p : Nat → Bool} {n k : Nat} (hk : k < n) (h : ∀ i < n, p i = decide (i = k)) :
    (List.range n).filter p = [k] := by
  obtain ⟨m, rfl⟩ := Nat.exists_eq_add_of_lt hk
  have hrest : (List.range' (k + 1) m).filter p = [] := List.filter_eq_nil_iff.2 fun i hi => by
    have hi := List.mem_range'_1.1 hi
    rw [h i (by omega), decide_eq_false (by omega)]
    exact Bool.false_ne_true
  have hfirst : (List.range k).filter p = [] := List.filter_eq_nil_iff.2 fun i hi => by
    have hi := List.mem_range.1 hi
    rw [h i (by omega), decide_eq_false (by omega)]
    exact Bool.false_ne_true
  have hsplit : List.range (k + m + 1) = List.range k ++ k :: List.range' (k + 1) m := by
    rw [Nat.add_assoc, List.range_eq_range', List.range_eq_range', ← List.range'_append_1, Nat.zero_add, List.range'_succ]
  rw [hsplit, List.filter_append, List.filter_cons_of_pos (by simp [h k hk]), hfirst, hrest]
  rfl

/-- The end of a walk whose page is a leaf keeps the leaf. -/
theorem State.walkEnds_page {r : Req} {l : Leaf} (hm : maRuns (s.ma (maKey die slot)))
    (hcur : (s.ma (maKey die slot)).cur = some r) (hskip : r.skip = false) (hrange : r.outOfRange = false)
    (htlb : (s.ma (maKey die slot)).tlb = [])
    (hl : s.walk die (s.ma (maKey die slot)).colour r.va (maCfg (s.ma (maKey die slot)).active).kind.access = .page l) :
    (s.walkEnds die slot).ma (maKey die slot) = keepLeaf { s.ma (maKey die slot) with walking := none } l := by
  have hmiss : missing { s.ma (maKey die slot) with walking := none } = some (r, 0) :=
    missing_empty (canForm_of_maRuns hm) hcur hskip hrange htlb
  simp only [State.walkEnds, hmiss, granuleVa, Nat.mul_zero, Nat.add_zero, State.walk_setMa, hl, State.mapMa_ma,
    State.ma_setMa_same]

@[simp] theorem State.report_ma (colour load : Nat) (holds : Holds) (code : Nat) (origin : Origin) (pos : Nat) (w2 w3 : DWord)
    (k : Nat) : (s.report die colour load holds code origin pos slot w2 w3).ma k = s.ma k := rfl

/-- A stalled actor holds the code, the tag and the index of its stall. -/
theorem State.stallMa_stall {code index : Nat} {tag : Word} (kind : StallKind) (w3 : DWord) :
    ∃ x, ((s.stallMa die slot kind code tag index w3).ma (maKey die slot)).st = .stalled ∧
      ((s.stallMa die slot kind code tag index w3).ma (maKey die slot)).stall = some x ∧ x.code = code ∧ x.tag = tag ∧
      x.index = index := by
  simp only [State.stallMa, State.report_ma, State.mapMa_ma]
  exact ⟨_, trivial, rfl, rfl, rfl, rfl⟩

/-- The end of a walk that fails stalls the actor at its request. -/
theorem State.walkEnds_xlate {r : Req} {cause lvl : Nat} (hm : maRuns (s.ma (maKey die slot)))
    (hcur : (s.ma (maKey die slot)).cur = some r) (hskip : r.skip = false) (hrange : r.outOfRange = false)
    (htlb : (s.ma (maKey die slot)).tlb = []) (hstall : (s.ma (maKey die slot)).stall = none)
    (hl : s.walk die (s.ma (maKey die slot)).colour r.va (maCfg (s.ma (maKey die slot)).active).kind.access = .xlate cause lvl) :
    ∃ x, ((s.walkEnds die slot).ma (maKey die slot)).st = .stalled ∧
      ((s.walkEnds die slot).ma (maKey die slot)).stall = some x ∧ x.code = cXlate ∧ x.tag = r.tag ∧ x.index = r.index := by
  have hmiss : missing { s.ma (maKey die slot) with walking := none } = some (r, 0) :=
    missing_empty (canForm_of_maRuns hm) hcur hskip hrange htlb
  have hw : s.walkEnds die slot =
      (s.setMa (maKey die slot) { s.ma (maKey die slot) with walking := none }).stallMa die slot .request cXlate r.tag r.index
        (maWord3 r.va cause lvl) := by
    simp only [State.walkEnds, hmiss, granuleVa, Nat.mul_zero, Nat.add_zero, State.walk_setMa, hl]
    exact if_neg (by simp [isStalled, hstall])
  rw [hw]
  exact State.stallMa_stall .request (maWord3 r.va cause lvl)

/-- The one walk of a page ends. -/
theorem execAddressTranslation_ends {page : Nat} (hslot : slot < 64) (hw : (s.ma (maKey die slot)).walking = some page)
    (hothers : ∀ n, n < 64 → n ≠ slot → (s.ma (maKey die n)).walking = none) :
    exec (.addressTranslation die slot) s = .next (s.walkEnds die slot) := by
  have hone := filter_range_one (p := fun n =>
    (s.ma (maKey die n)).walking = some page && (s.ma (maKey die n)).colour = (s.ma (maKey die slot)).colour) hslot
    fun n hn => by
      by_cases h : n = slot
      · subst h
        simp [hw]
      · simp [hothers n hn h, h]
  show execAddressTranslation die slot s = _
  simp only [execAddressTranslation, hw, hone, List.foldl_cons, List.foldl_nil]

/-- A miss begins a walk of its page, if the walker has room. -/
theorem execAddressTranslation_begins {r : Req} (hm : maRuns (s.ma (maKey die slot)))
    (hcur : (s.ma (maKey die slot)).cur = some r) (hskip : r.skip = false) (hrange : r.outOfRange = false)
    (htlb : (s.ma (maKey die slot)).tlb = []) (hw : (s.ma (maKey die slot)).walking = none)
    (hroom : (s.walks die).length < walkLimit) :
    exec (.addressTranslation die slot) s = .next (s.mapMa die slot fun m => { m with walking := some (pageOf r.va) }) := by
  show execAddressTranslation die slot s = _
  simp [execAddressTranslation, hw, missing_empty (canForm_of_maRuns hm) hcur hskip hrange htlb, hroom, granuleVa]

/-! ### The tokens of a memory actor -/

theorem execStartToken_data {t : Token} (hst : (s.ma (maKey die slot)).st = .running)
    (hsaved : (s.ma (maKey die slot)).saved = false)
    (hdrained : (s.ma (maKey die slot)).drained = true) (hdrop : (s.ma (maKey die slot)).dropAddrs = false)
    (hrun : (s.ma (maKey die slot)).run = none) (hhead : s.maHead die slot inStart = some t) (hk : t.kind = .data) :
    exec (.startToken die slot) s =
      .next ((s.maPop die slot inStart).mapMa die slot fun m => { m with run := some (t.payload, t.tag, 0), ran := true }) := by
  show execStartToken die slot s = _
  simp [execStartToken, hhead, hst, hsaved, hdrained, hk, hdrop, hrun]

theorem execWriteDataToken_data {t : Token} (hst : (s.ma (maKey die slot)).st = .running)
    (hsaved : (s.ma (maKey die slot)).saved = false) (hweir : (s.ma (maKey die slot)).weir ≠ .sent)
    (hkind : (maCfg (s.ma (maKey die slot)).active).kind ≠ .read) (htile : isTile (maCfg (s.ma (maKey die slot)).active) = false)
    (hunit : (s.ma (maKey die slot)).unit = none) (hcur : (s.ma (maKey die slot)).cur = none)
    (hhead : s.maHead die slot inData = some t) (hk : t.kind = .data) :
    exec (.writeDataToken die slot) s = .next ((s.maPop die slot inData).mapMa die slot fun m =>
      { m with unit := some [lowBytes (maCfg (s.ma (maKey die slot)).active) t.payload] }) := by
  show execWriteDataToken die slot s = _
  simp [execWriteDataToken, hhead, hst, hsaved, hweir, hkind, hunit, hcur, State.dataToken', hk, htile]

theorem execAfterToken_data {t : Token} (hst : (s.ma (maKey die slot)).st ≠ .unconfigured)
    (hsaved : (s.ma (maKey die slot)).saved = false) (hhead : s.maHead die slot inAfter = some t) (hk : t.kind = .data) :
    exec (.afterToken die slot) s =
      .next ((s.maPop die slot inAfter).mapMa die slot fun m => { m with after := m.after + 1 }) := by
  show execAfterToken die slot s = _
  simp [execAfterToken, hhead, hst, hsaved, hk]

end

/-- Settles O40: the request of a run, its issue, its translation, and the tokens of start, data and after. -/
theorem memoryActorRequests : Obligations.MemoryActorRequests := by
  unfold Obligations.MemoryActorRequests
  intro s die slot key m c
  refine ⟨?_, ?_, ?_, ?_, ?_, ?_⟩
  · intro start tag i hm hcur hk hidx hrun htlb hrest hunit hdrop hafter hlow hhigh
    have hskip : (patternReq m start tag i).skip = false := by simp [patternReq, formedReq, hrest, hunit]
    have hrange : (patternReq m start tag i).outOfRange = false := by
      show leavesRange c (patternVa c start.toNat i) = false
      simp only [leavesRange, Bool.or_eq_false_iff, decide_eq_false_iff_not, not_lt, gt_iff_lt]
      exact ⟨hlow, hhigh⟩
    obtain ⟨n, hn⟩ := State.formRead_pattern (s := s) (die := die) (slot := slot) hk hidx hrun hdrop hafter
    refine ⟨_, patternReq m start tag i,
      execMemoryRequestIssue_pattern hm hcur hk hidx hrun htlb hskip hrange hdrop hafter, ?_, rfl, rfl, rfl, ?_, ?_, ?_⟩
    · exact congrArg MemActor.cur hn
    · exact congrArg MemActor.nextIdx hn
    · exact congrArg MemActor.resp hn
    · exact congrArg MemActor.run hn
  · intro r pas hm hcur hskip hrange htr hreach hfree hroom
    have hissue := State.issueCur_issues hskip hrange htr hreach hfree hroom
    obtain ⟨l, hl, hlen, hall⟩ := State.sendRequest_packets
      (s := s.mapMa die slot fun m => { m with cur := none, flight := m.flight ++ [{ r with pas := pas }] })
      (die := die) (slot := slot) { r with pas := pas }
    rw [State.mapMa_ma] at hall
    refine ⟨_, l, execMemoryRequestIssue_cur hm hcur, ?_, ?_, ?_, ?_, hlen, hall⟩
    · rw [hissue, State.sendRequest_ma]
      exact congrArg MemActor.cur (State.mapMa_ma s die slot _)
    · rw [hissue, State.sendRequest_ma]
      exact congrArg MemActor.flight (State.mapMa_ma s die slot _)
    · rw [hissue, State.sendRequest_phys, State.mapMa_phys]
    · rw [hissue, hl]
      rfl
  · intro r hslot hm hcur hskip hrange htlb hstall
    refine ⟨fun hw hroom => execAddressTranslation_begins hm hcur hskip hrange htlb hw hroom,
      fun page hw hothers => ⟨?_, ?_⟩⟩
    · intro l hl
      have hu := State.walkEnds_page hm hcur hskip hrange htlb hl
      refine ⟨_, execAddressTranslation_ends hslot hw hothers, ?_, ?_⟩
      · exact congrArg MemActor.walking hu
      · refine (congrArg MemActor.tlb hu).trans ?_
        exact keepLeaf_empty (m := { s.ma (maKey die slot) with walking := none }) htlb l
    · intro cause lvl hl
      obtain ⟨x, hx⟩ := State.walkEnds_xlate hm hcur hskip hrange htlb hstall hl
      exact ⟨_, x, execAddressTranslation_ends hslot hw hothers, hx⟩
  · intro t hst hsaved hdrained hdrop hrun hhead hk
    refine ⟨_, execStartToken_data hst hsaved hdrained hdrop hrun hhead hk, ?_, State.taken_queue hhead rfl rfl⟩
    exact congrArg MemActor.run (State.mapMa_ma _ die slot _)
  · intro t hst hsaved hweir hkind hunit8 hunit hcur hhead hk
    have htile : isTile c = false := by simp only [isTile, decide_eq_false_iff_not]; omega
    refine ⟨_, execWriteDataToken_data hst hsaved hweir hkind htile hunit hcur hhead hk, ?_, State.taken_queue hhead rfl rfl⟩
    exact congrArg MemActor.unit (State.mapMa_ma _ die slot _)
  · intro t hst hsaved hhead hk
    refine ⟨_, execAfterToken_data hst hsaved hhead hk, ?_, State.taken_queue hhead rfl rfl⟩
    refine (congrArg MemActor.after (State.mapMa_ma _ die slot _)).trans ?_
    rw [State.maPop_ma]
    rfl

end Sys2Proof.Machine
end

section
/-! ## Forwarding, spilling and failing links -/

namespace Sys2Proof.Machine
open Host (Outcome)

/-! ### Forwarding (13 R349, R352, R355) -/

theorem dropNth_eq_eraseIdx {α : Type} (l : List α) (i : Nat) : dropNth l i = l.eraseIdx i :=
  (List.eraseIdx_eq_take_drop_succ l i).symm

theorem Packet.atTarget_iff (p : Packet) : p.atTarget = true ↔ p.here = p.target ∧ p.via = none := by
  simp [Packet.atTarget]

/-- A packet that has moved to a router across a culvert or none. -/
def Packet.movedTo (p : Packet) (hop : Loc) (c : Option Nat) : Packet :=
  { p with here := hop, refused := 0, via := if c.isSome && c = p.via then none else p.via }

/-- A packet that a router has refused once more. -/
def Packet.refusedOnce (p : Packet) : Packet := { p with refused := p.refused + 1 }

section
variable {s : State} {i : Nat} {p : Packet} {hop : Loc} {c : Option Nat}

theorem execPacketForward_crosses (hp : s.packets[i]? = some p)
    (hnext : ((s.nexts p.here).find? fun x => x.1 = hop) = some (hop, c)) (hallowed : s.hopAllowed p hop c = true)
    (hup : ∀ l, c = some l → crosses (s.link p.here.die l) = true) :
    exec (.packetForward i hop) s = .next { s with
      packets := if s.routerHasRoom hop p = true ∧ s.yields p hop c = false then setOrLast s.packets i (p.movedTo hop c)
        else setNth s.packets i p.refusedOnce } := by
  show execPacketForward i hop s = _
  unfold execPacketForward
  simp only [hp, hnext, hallowed]
  by_cases hmove : s.routerHasRoom hop p = true ∧ s.yields p hop c = false
  · cases c with
    | none => simp [hmove, Packet.movedTo]
    | some l => simp [hmove, hup l rfl, Packet.movedTo]
  · have hstay : (s.routerHasRoom hop p && !s.yields p hop c) = false := by simpa using hmove
    cases c with
    | none => simp [hmove, hstay, Packet.refusedOnce]
    | some l => simp [hmove, hstay, hup l rfl, Packet.refusedOnce]

theorem execPacketForward_failed {l : Nat} (hp : s.packets[i]? = some p)
    (hnext : ((s.nexts p.here).find? fun x => x.1 = hop) = some (hop, some l)) (hallowed : s.hopAllowed p hop (some l) = true)
    (hfailed : s.link p.here.die l = .failed) :
    exec (.packetForward i hop) s = .next (s.linkHolds p.here.die l p.colour) := by
  show execPacketForward i hop s = _
  simp [execPacketForward, hp, hnext, hallowed, hfailed, crosses]

theorem execEscapeSubchannel_enters (hp : s.packets[i]? = some p) (hrefused : 64 ≤ p.refused) (hescape : p.escape = false)
    (hvia : ∀ l, p.via = some l → s.escapeCulvert p.target routerCount p.here = some l) :
    exec (.escapeSubchannel i) s = .next { s with packets := s.packets.set i { p with escape := true } } := by
  have hall : (p.via.all fun l => s.escapeCulvert p.target routerCount p.here = some l) = true := by
    cases h : p.via with
    | none => rfl
    | some l => simp [hvia l h]
  show execEscapeSubchannel i s = _
  simp [execEscapeSubchannel, hp, hrefused, hescape, hall, setNth]

/-! ### What the report of a failed link leaves and adds (15 R418) -/

/-- A failed link that is told already, or a link that has not failed, changes nothing. -/
theorem State.linkHolds_told {d l colour : Nat} (h : s.linkFaults.contains (d * 5 + l, colour) = true) :
    s.linkHolds d l colour = s := by
  unfold State.linkHolds
  dsimp only
  rw [if_neg (by simpa using fun _ => h)]

/-- The report of a failed link adds one record of the colour to the levee, with code LINK. -/
theorem State.linkHolds_tells {d l colour : Nat} (hfailed : s.link d l = .failed)
    (h : s.linkFaults.contains (d * 5 + l, colour) = false) :
    ∃ r, (s.linkHolds d l colour).levee = s.levee ++ [r] ∧ r.record.w0.toNat % 256 = cLink ∧ r.colour = colour := by
  unfold State.linkHolds
  dsimp only
  rw [if_pos (by simpa [hfailed] using h)]
  refine ⟨_, by cases linkPeer d l <;> rfl, ?_, rfl⟩
  simp only [faultRecord, BitVec.toNat_ofNat, cLink]
  omega

theorem State.linkHolds_packets (d l colour : Nat) : (s.linkHolds d l colour).packets = s.packets := by
  unfold State.linkHolds
  dsimp only
  split
  · cases linkPeer d l <;> rfl
  · rfl

theorem State.linkHolds_links (d l colour : Nat) : (s.linkHolds d l colour).links = s.links := by
  unfold State.linkHolds
  dsimp only
  split
  · cases linkPeer d l <;> rfl
  · rfl

theorem State.linkHolds_ctrls (d l colour : Nat) : (s.linkHolds d l colour).ctrls = s.ctrls := by
  unfold State.linkHolds
  dsimp only
  split
  · cases linkPeer d l <;> rfl
  · rfl

theorem foldl_linkHolds_links (d l : Nat) (cs : List Nat) (s : State) :
    (cs.foldl (fun u c => u.linkHolds d l c) s).links = s.links := by
  induction cs generalizing s with
  | nil => rfl
  | cons c cs ih => rw [List.foldl_cons, ih, State.linkHolds_links]

theorem foldl_linkHolds_ctrls (d l : Nat) (cs : List Nat) (s : State) :
    (cs.foldl (fun u c => u.linkHolds d l c) s).ctrls = s.ctrls := by
  induction cs generalizing s with
  | nil => rfl
  | cons c cs ih => rw [List.foldl_cons, ih, State.linkHolds_ctrls]

/-! ### Latched events -/

/-- A latched event is pending. -/
theorem State.latch_latched (d : Nat) {bit : Nat} (h : bit < 12) : ((s.latch d bit).ctrl d).latched.getLsbD bit = true := by
  simp [State.latch, h]

/-- Latching keeps what is latched, on every die. -/
theorem State.latch_keeps {d b : Nat} (d' bit : Nat) (h : (s.ctrl d).latched.getLsbD b = true) :
    ((s.latch d' bit).ctrl d).latched.getLsbD b = true := by
  unfold State.latch
  dsimp only
  by_cases hd : d = d'
  · subst hd
    simp [h]
  · rw [State.ctrl_setCtrl_other _ _ hd, h]

/-! ### The two ends of a culvert (01 R8) -/

/-- The other end of a culvert stands on another die, and is a culvert. -/
theorem linkPeer_other {d l d' l' : Nat} (h : linkPeer d l = some (d', l')) : d' ≠ d ∧ l' < 5 := by
  unfold linkPeer at h
  split at h
  case h_5 => cases h
  all_goals
    split at h
    · cases h
    · simp only [Option.some.injEq, Prod.mk.injEq] at h
      omega

theorem State.link_setLink_peer {d l d' l' : Nat} (x : LinkState) (h : linkPeer d l = some (d', l')) :
    (s.setLink d l x).link d' l' = x := by
  simp [State.setLink, h, State.link, tabGet_tabSet_same]

theorem State.link_setLink_same {d l : Nat} (x : LinkState) (hl : l < 5) : (s.setLink d l x).link d l = x := by
  unfold State.setLink
  cases h : linkPeer d l with
  | none => simp [State.link, tabGet_tabSet_same]
  | some q =>
    obtain ⟨d', l'⟩ := q
    obtain ⟨hd, hl'⟩ := linkPeer_other h
    have hkey : d * 5 + l ≠ d' * 5 + l' := by omega
    simp [State.link, tabGet_tabSet_same, tabGet_tabSet_other _ _ hkey]

/-- The link table alone gives the state of a link. -/
theorem State.link_congr {t : State} (h : t.links = s.links) (d l : Nat) : t.link d l = s.link d l := by
  rw [State.link, h, State.link]

theorem State.ctrl_congr {t : State} (h : t.ctrls = s.ctrls) (d : Nat) : t.ctrl d = s.ctrl d := by
  rw [State.ctrl, h, State.ctrl]

theorem crosses_of {x : LinkState} (h : x = .inService ∨ x = .degraded) : crosses x = true := by
  simpa [crosses] using h

/-- Event 11 at both ends of a link that has changed. -/
def State.latchEnds (s : State) (d l : Nat) : State :=
  match linkPeer d l with
  | some (d', _) => (s.latch d 11).latch d' 11
  | none => s.latch d 11

theorem State.latchEnds_links (d l : Nat) : (s.latchEnds d l).links = s.links := by
  unfold State.latchEnds
  split <;> rfl

theorem State.latchEnds_latched (d l : Nat) : ((s.latchEnds d l).ctrl d).latched.getLsbD 11 = true := by
  unfold State.latchEnds
  split
  · exact State.latch_keeps _ _ (State.latch_latched d (by omega))
  · exact State.latch_latched d (by omega)

theorem State.latchEnds_latched_peer {d l d' l' : Nat} (h : linkPeer d l = some (d', l')) :
    ((s.latchEnds d l).ctrl d').latched.getLsbD 11 = true := by
  unfold State.latchEnds
  rw [h]
  exact State.latch_latched d' (by omega)

theorem State.degrade_eq (d l : Nat) : s.degrade d l = (s.setLink d l .degraded).latchEnds d l := by
  unfold State.degrade State.latchEnds
  cases linkPeer d l <;> rfl

/-- A link that fails wholly is failed, with event 11 at both ends; the reports of the held packets change neither. -/
theorem execLink_fails {d l : Nat} (hl : l < 5) (hup : crosses (s.link d l) = true) :
    ∃ u, exec (.link d l) s = .next u ∧ u.links = (s.setLink d l .failed).links ∧
      u.ctrls = ((s.setLink d l .failed).latchEnds d l).ctrls := by
  refine ⟨_, if_pos (by simp [hl, hup]), ?_, ?_⟩
  · cases h : linkPeer d l with
    | none => exact foldl_linkHolds_links d l _ _
    | some q =>
      dsimp only
      rw [foldl_linkHolds_links]
      exact foldl_linkHolds_links d l _ _
  · unfold State.latchEnds
    cases h : linkPeer d l with
    | none => exact foldl_linkHolds_ctrls d l _ _
    | some q =>
      dsimp only
      rw [foldl_linkHolds_ctrls]
      simp only [State.latch, State.setCtrl_ctrls, State.ctrl_congr (foldl_linkHolds_ctrls ..), foldl_linkHolds_ctrls]

theorem execLaneLoss_degrades {d l : Nat} (hl : l < 5) (hup : crosses (s.link d l) = true) :
    exec (.laneLoss d l) s = .next (s.degrade d l) := if_pos (by simp [hl, hup])

theorem execLaneRetrain_counts {d l : Nat} (degrades : Bool) (hl : l < 5) (hup : crosses (s.link d l) = true) :
    exec (.laneRetrain d l degrades) s =
      .next (if degrades then (s.setTel d { s.tel d with
          retrains := tabSet (s.tel d).retrains l ((tabGet (s.tel d).retrains l).getD 0 + 1) }).degrade d l
        else s.setTel d { s.tel d with retrains := tabSet (s.tel d).retrains l ((tabGet (s.tel d).retrains l).getD 0 + 1) }) :=
  if_pos (by simp [hl, hup])

theorem State.degrade_link {d l : Nat} (hl : l < 5) : (s.degrade d l).link d l = .degraded := by
  rw [State.degrade_eq, State.link_congr (State.latchEnds_links d l), State.link_setLink_same _ hl]

theorem State.degrade_latched (d l : Nat) : ((s.degrade d l).ctrl d).latched.getLsbD 11 = true := by
  rw [State.degrade_eq]
  exact State.latchEnds_latched d l

theorem State.degrade_levee (d l : Nat) : (s.degrade d l).levee = s.levee := by
  unfold State.degrade State.setLink
  cases linkPeer d l <;> rfl

theorem State.degrade_tel (d l k : Nat) : (s.degrade d l).tel k = s.tel k := by
  unfold State.degrade State.setLink
  cases linkPeer d l <;> rfl

/-! ### Spilling (04 R98, 13 R353, 15 R417) -/

/-- The free place for the next token that a channel spills on a die. -/
def State.freeSpill (s : State) (die colour chan : Nat) (load : Option Nat) : Option Nat :=
  s.spillPlace (s.depthOf die colour chan load) (s.areaBytes (s.depthOf die colour chan load) / tokenSize)

theorem find_chan {d : Dest} {colour : Nat} {c : Chan}
    (h : (s.chans.find? fun x => x.dest = d && x.colour = colour && x.queue ≠ []) = some c) :
    c.dest = d ∧ c.colour = colour := by
  have hp := List.find?_some h
  simp only [Bool.and_eq_true, decide_eq_true_eq] at hp
  exact hp.1

theorem execSpillWrite_sends {d : Dest} {colour : Nat} {c : Chan} {failed : Bool}
    (hc : (s.chans.find? fun x => x.dest = d && x.colour = colour && x.queue ≠ []) = some c) (hdue : s.spillDue c = true)
    (hidle : s.spilling d colour c.load isSpill = false)
    (hplace : s.freeSpill d.die colour c.chan c.load ≠ none) :
    exec (.spillWrite d colour failed) s = .next (s.spillPacket c (.spill failed)) := by
  show execSpillWrite d colour failed s = _
  unfold execSpillWrite
  rw [hc]
  dsimp only
  rw [if_neg (by simp [hdue, hidle]), if_neg (by simpa [State.freeSpill] using hplace)]

theorem execSpillWrite_full {d : Dest} {colour : Nat} {c : Chan} {failed : Bool}
    (hc : (s.chans.find? fun x => x.dest = d && x.colour = colour && x.queue ≠ []) = some c) (hdue : s.spillDue c = true)
    (hidle : s.spilling d colour c.load isSpill = false)
    (hplace : s.freeSpill d.die colour c.chan c.load = none) :
    exec (.spillWrite d colour failed) s = .next (s.latch d.die 5) := by
  show execSpillWrite d colour failed s = _
  unfold execSpillWrite
  rw [hc]
  dsimp only
  rw [if_neg (by simp [hdue, hidle]), if_pos (by simpa [State.freeSpill] using hplace)]

/-- A spill write puts the newest token of a queue of more than one at the free place. -/
theorem State.spillPerform_newest {d : Dest} {colour off : Nat} {load : Option Nat} {c : Chan} {q : List Token} {y t : Token}
    (hc : s.chanAt d colour load = some c) (hq : c.queue = q ++ [y, t]) (hspilled : c.spilled = [])
    (hplace : s.freeSpill d.die colour c.chan load = some off) :
    s.spillPerform d colour load false =
      (s.spillWrite (s.spillAddr d.die off) t).mapChan d colour load (·.spillTo (s.spillAddr d.die off)) := by
  have htoken : c.spillToken = some t := by simp [Chan.spillToken, hspilled, hq]
  have hlong : ¬ c.queue.length ≤ 1 := by simp [hq]
  rw [State.freeSpill] at hplace
  simp only [State.spillPerform, hc, hplace, htoken, hlong, Bool.false_eq_true, if_false]

/-- The endpoint of a channel after a spill write of its newest token. -/
theorem State.chanAt_spilled {d : Dest} {colour : Nat} {load : Option Nat} {c : Chan} {q : List Token} {y t : Token} (pa : Nat)
    (hc : s.chanAt d colour load = some c) (hq : c.queue = q ++ [y, t]) (hspilled : c.spilled = []) :
    ((s.spillWrite pa t).mapChan d colour load (·.spillTo pa)).chanAt d colour load =
      some { c with queue := q ++ [y], spilled := [pa] } := by
  have hto : c.spillTo pa = { c with queue := q ++ [y], spilled := [pa] } := by
    have hlast : (q ++ [y, t]).dropLast = q ++ [y] := by simp
    simp [Chan.spillTo, hspilled, hq, hlast]
  rw [← hto]
  exact State.chanAt_mapChan_same (s := s.spillWrite pa t) (f := (·.spillTo pa)) hc (by rw [hto]) (by rw [hto]) (by rw [hto])

theorem State.arrive_spill {failed : Bool} (hp : s.packets[i]? = some p) (hhere : p.here = p.target) (hvia : p.via = none)
    (hcargo : p.cargo = .spill failed) :
    s.arrive i = ({ s with packets := dropNth s.packets i } : State).spillPerform p.dest p.colour p.load failed := by
  have hdel : s.deliverable i p = true := by
    simp [State.deliverable, (Packet.atTarget_iff p).2 ⟨hhere, hvia⟩, Packet.token, hcargo]
  simp only [State.arrive, hp, hdel, if_true, hcargo]

theorem execTokenArrival_packet (hp : s.packets[i]? = some p) :
    exec (.tokenArrival (.packet i)) s = .next ((s.arrive i).reportWeir p.dest p.colour p.load) := by
  show execTokenArrival (.packet i) s = _
  simp only [execTokenArrival, hp]

end

/-- Settles O39: forwarding, the escape sub-channel, spill writes sent and performed, and links that fail, degrade or retrain. -/
theorem fabricEvents : Obligations.FabricEvents := by
  unfold Obligations.FabricEvents
  refine ⟨?_, ?_, ?_, ?_, ?_⟩
  · intro s i p hop c hp hnext hallowed
    refine ⟨fun hup => ?_, ?_⟩
    · dsimp only
      rw [execPacketForward_crosses hp hnext hallowed hup]
      by_cases hmove : s.routerHasRoom hop p = true ∧ s.yields p hop c = false
      · simp only [if_pos hmove]
        -- only a request's place depends on whether it has reached its home
        cases hcargo : p.cargo <;>
          simp only [setOrLast, Packet.movedTo, hcargo, Packet.atTarget_iff, dropNth_eq_eraseIdx, setNth, true_and]
      · simp only [if_neg hmove]
        cases hcargo : p.cargo <;> simp [setNth, Packet.refusedOnce, hcargo]
    · rintro l rfl hfailed
      refine ⟨_, execPacketForward_failed hp hnext hallowed hfailed, ?_, ?_, ?_⟩
      · exact State.linkHolds_packets p.here.die l p.colour
      · exact fun h => by rw [State.linkHolds_told h]
      · exact State.linkHolds_tells hfailed
  · intro s i p hp hrefused hescape hvia
    exact execEscapeSubchannel_enters hp hrefused hescape hvia
  · intro s d colour c failed hc x hdue hidle
    obtain ⟨hdest, hcolour⟩ := find_chan hc
    refine ⟨fun hplace => ⟨_, execSpillWrite_sends hc hdue hidle hplace, rfl, rfl, hdest, hcolour⟩, fun hplace => ?_⟩
    exact ⟨_, execSpillWrite_full hc hdue hidle hplace, State.latch_latched d.die (by omega), rfl, rfl⟩
  · intro s i p c q y t off hp hhere hvia hcargo hc hq hspilled hwf x hplace pa
    have harrive : s.arrive i = (({ s with packets := dropNth s.packets i } : State).spillWrite pa t).mapChan p.dest p.colour p.load
        (·.spillTo pa) :=
      (State.arrive_spill hp hhere hvia hcargo).trans (State.spillPerform_newest hc hq hspilled hplace)
    have hphys : ((s.arrive i).reportWeir p.dest p.colour p.load).phys = Memory.write s.phys pa (tokenNat t) 16 := by
      rw [State.reportWeir_phys, harrive]
      rfl
    have hchan : ((s.arrive i).reportWeir p.dest p.colour p.load).chanAt p.dest p.colour p.load =
        some { c with queue := q ++ [y], spilled := [pa] } := by
      rw [State.chanAt, State.reportWeir_chans, harrive]
      exact State.chanAt_spilled (s := { s with packets := dropNth s.packets i }) pa hc hq hspilled
    refine ⟨_, execTokenArrival_packet hp, ?_, ?_, ?_, ?_, ?_⟩
    · rw [State.reportWeir_packets, harrive]
      exact dropNth_eq_eraseIdx s.packets i
    · rw [hchan]
      rfl
    · rw [hchan]
      rfl
    · rw [hphys, Memory.read_write_same _ _ _ _ hwf, pow_256_eq]
    · intro a ha
      rw [hphys, Memory.get_write_other _ _ _ _ _ ha]
  · intro s d l hd hl hstate
    have hup := crosses_of hstate
    refine ⟨?_, ?_, ?_, ?_⟩
    · obtain ⟨u, hu, hlinks, hctrls⟩ := execLink_fails hl hup
      refine ⟨u, hu, ?_, ?_, fun d' l' hpeer => ⟨?_, ?_⟩⟩
      · rw [State.link_congr hlinks, State.link_setLink_same _ hl]
      · rw [State.ctrl_congr hctrls]
        exact State.latchEnds_latched d l
      · rw [State.link_congr hlinks, State.link_setLink_peer _ hpeer]
      · rw [State.ctrl_congr hctrls]
        exact State.latchEnds_latched_peer hpeer
    · exact ⟨_, execLaneLoss_degrades hl hup, State.degrade_link hl, State.degrade_latched d l, State.degrade_levee d l⟩
    · refine ⟨_, execLaneRetrain_counts false hl hup, rfl, ?_⟩
      simp [tabGet_tabSet_same]
    · refine ⟨_, execLaneRetrain_counts true hl hup, State.degrade_link hl, ?_⟩
      simp [State.degrade_tel, tabGet_tabSet_same]

end Sys2Proof.Machine
end

section
/-! The fields of an instruction word, and the codes of operands: what both directions of chapter 6 rest on. -/

namespace Sys2Proof

/-! ## A word has a form when each field of the form stands in it -/

/-- The bits of a word from `lo` upward are those of `v`. -/
def Has (w : Word) (lo : Nat) {k : Nat} (v : BitVec k) : Prop := fld w lo k = v

theorem fld_join (w : Word) (lo m n : Nat) : fld w lo (m + n) = fld w (lo + n) m ++ fld w lo n :=
  (BitVec.extractLsb'_append_extractLsb'_eq_extractLsb' rfl).symm

theorem has_append {m n : Nat} (w : Word) (lo : Nat) (x : BitVec m) (y : BitVec n) :
    Has w lo (x ++ y) ↔ Has w (lo + n) x ∧ Has w lo y := by
  refine ⟨fun h => ?_, fun ⟨hx, hy⟩ => by rw [Has, fld_join, hx, hy]⟩
  rw [Has, fld_join] at h
  constructor
  · rw [← BitVec.extractLsb'_append_eq_left (a := x) (b := y), ← h, BitVec.extractLsb'_append_eq_left, Has]
  · rw [← BitVec.extractLsb'_append_eq_right (a := x) (b := y), ← h, BitVec.extractLsb'_append_eq_right, Has]

theorem eq_word_iff (x w : Word) : x = w ↔ Has w 0 x := by rw [Has, fld, BitVec.extractLsb'_eq_self, eq_comm]

theorem fld_bit (w : Word) (lo : Nat) : fld w lo 1 = b1 (wbit w lo) := by
  ext i hi
  obtain rfl : i = 0 := by omega
  simp [fld, wbit]

theorem has_b1 (w : Word) (lo : Nat) (b : Bool) : Has w lo (b1 b) ↔ wbit w lo = b := by
  rw [Has, fld_bit]
  exact ⟨fun h => by simpa using congrArg (fun v => v.getLsbD 0) h, fun h => h ▸ rfl⟩

theorem has_zero_bit (w : Word) (lo : Nat) : Has w lo 0#1 ↔ wbit w lo = false := has_b1 w lo false

theorem has_one_bit (w : Word) (lo : Nat) : Has w lo 1#1 ↔ wbit w lo = true := has_b1 w lo true

@[simp] theorem fld_eq_zero_bit (w : Word) (lo : Nat) : fld w lo 1 = 0#1 ↔ wbit w lo = false := has_zero_bit w lo

@[simp] theorem fld_eq_one_bit (w : Word) (lo : Nat) : fld w lo 1 = 1#1 ↔ wbit w lo = true := has_one_bit w lo

/-- A field against a constant, read as two adjacent fields. -/
theorem fld_split (w : Word) (lo m n : Nat) (v : BitVec (m + n)) :
    fld w lo (m + n) = v ↔ fld w (lo + n) m = v.extractLsb' n m ∧ fld w lo n = v.extractLsb' 0 n := by
  conv_lhs => rw [← BitVec.extractLsb'_eq_self (x := v), ← BitVec.extractLsb'_append_extractLsb'_eq_extractLsb' (Nat.zero_add n).symm]
  exact has_append w lo _ _

theorem fld_toNat (w : Word) (lo n : Nat) : (fld w lo n).toNat = w.toNat / 2 ^ lo % 2 ^ n := by
  rw [fld, BitVec.extractLsb'_toNat, Nat.shiftRight_eq_div_pow]

theorem eq_ofNat_of_toNat_eq {n k : Nat} {x : BitVec n} (h : x.toNat = k) : x = BitVec.ofNat n k := by
  rw [← h, BitVec.ofNat_toNat, BitVec.setWidth_eq]

theorem toNat_eq_iff_ofNat {n : Nat} (x : BitVec n) (k : Nat) : x.toNat = k ↔ x = BitVec.ofNat n k ∧ k < 2 ^ n := by
  constructor
  · intro h
    exact ⟨eq_ofNat_of_toNat_eq h, h ▸ x.isLt⟩
  · rintro ⟨rfl, h⟩
    simp [Nat.mod_eq_of_lt h]

/-! ## Operand fields and codes: the decoder of each inverts its encoder -/

theorem decSrc_eq_some {alt : Bool} {f : BitVec 5} {a : Src} : decSrc alt f = some a ↔ alt = a.alt ∧ f = a.field := by
  constructor
  · have h : ∀ alt f, ∀ a ∈ decSrc alt f, alt = a.alt ∧ f = a.field := by decide
    exact h alt f a
  · rintro ⟨rfl, rfl⟩
    cases a with
    | s r => rfl
    | x n => revert n; decide
    | xt | xc => rfl
    | q n => revert n; decide

theorem decSQ_eq_some {q : Bool} {f : BitVec 5} {d : SQ} : decSQ q f = some d ↔ q = d.isQ ∧ f = d.field := by
  constructor
  · have h : ∀ q f, ∀ d ∈ decSQ q f, q = d.isQ ∧ f = d.field := by decide
    exact h q f d
  · rintro ⟨rfl, rfl⟩
    cases d with
    | s r => rfl
    | q n => revert n; decide

theorem decQ_eq_some {n : Nat} {q : Fin 3} : decQ n = some q ↔ n = q.val := by
  unfold decQ
  fin_cases q <;> split <;> simp_all

theorem decBounded_eq_some {n b : Nat} {k : Fin b} : decBounded n b = some k ↔ n = k.val := by
  unfold decBounded
  split
  · simp [Fin.ext_iff]
  · rename_i h
    simp only [reduceCtorEq, false_iff]
    rintro rfl
    exact h k.isLt

theorem decParam_eq_some {n : Nat} {k : Fin 10} : decParam n = some k ↔ n = k.val := decBounded_eq_some

theorem decFmt_eq_some {f : BitVec 3} {x : Fmt} : decFmt f = some x ↔ f = x.code := by
  revert f; cases x <;> decide

theorem decRm_eq_some {f : BitVec 3} {x : Rm} : decRm f = some x ↔ f = x.code := by
  revert f; cases x <;> decide

theorem decIntCc_eq_some {f : BitVec 3} {x : IntCc} : decIntCc f = some x ↔ f = x.code := by
  revert f; cases x <;> decide

theorem decFloatCc_eq_some {f : BitVec 3} {x : FloatCc} : decFloatCc f = some x ↔ f = x.code := by
  revert f; cases x <;> decide

theorem decLoadWidth_eq_some {f : BitVec 3} {x : LoadWidth} : decLoadWidth f = some x ↔ f = x.code := by
  revert f; cases x <;> decide

theorem decStoreWidth_eq_some {f : BitVec 3} {x : StoreWidth} : decStoreWidth f = some x ↔ f = x.code := by
  revert f; cases x <;> decide

theorem decMmaFmt_eq_some {f : BitVec 3} {x : MmaFmt} : decMmaFmt f = some x ↔ f = x.code := by
  revert f; cases x <;> decide

@[simp] theorem decSrc_field (a : Src) : decSrc a.alt a.field = some a := decSrc_eq_some.2 ⟨rfl, rfl⟩
@[simp] theorem decSQ_field (d : SQ) : decSQ d.isQ d.field = some d := decSQ_eq_some.2 ⟨rfl, rfl⟩
@[simp] theorem decFmt_code (x : Fmt) : decFmt x.code = some x := decFmt_eq_some.2 rfl
@[simp] theorem decRm_code (x : Rm) : decRm x.code = some x := decRm_eq_some.2 rfl
@[simp] theorem decIntCc_code (x : IntCc) : decIntCc x.code = some x := decIntCc_eq_some.2 rfl
@[simp] theorem decFloatCc_code (x : FloatCc) : decFloatCc x.code = some x := decFloatCc_eq_some.2 rfl
@[simp] theorem decLoadWidth_code (x : LoadWidth) : decLoadWidth x.code = some x := decLoadWidth_eq_some.2 rfl
@[simp] theorem decStoreWidth_code (x : StoreWidth) : decStoreWidth x.code = some x := decStoreWidth_eq_some.2 rfl
@[simp] theorem decMmaFmt_code (x : MmaFmt) : decMmaFmt x.code = some x := decMmaFmt_eq_some.2 rfl

theorem decQ_mod (q : Fin 3) {m : Nat} (h : 3 ≤ m) : decQ (q.val % m) = some q :=
  decQ_eq_some.2 (Nat.mod_eq_of_lt (q.isLt.trans_le h))

theorem decBounded_mod {b : Nat} (k : Fin b) {m : Nat} (h : b ≤ m) : decBounded (k.val % m) b = some k :=
  decBounded_eq_some.2 (Nat.mod_eq_of_lt (k.isLt.trans_le h))

theorem decParam_mod (k : Fin 10) {m : Nat} (h : 10 ≤ m) : decParam (k.val % m) = some k := decBounded_mod k h

@[simp] theorem Src.field_s (r : BitVec 5) : (Src.s r).field = r := rfl
@[simp] theorem Src.alt_s (r : BitVec 5) : (Src.s r).alt = false := rfl
@[simp] theorem SQ.field_s (r : BitVec 5) : (SQ.s r).field = r := rfl
@[simp] theorem SQ.isQ_s (r : BitVec 5) : (SQ.s r).isQ = false := rfl

/-! ## Instructions of one word -/

theorem has_of_encode {w x : Word} (h : [x] = [w]) : Has w 0 x := (eq_word_iff x w).1 (List.head_eq_of_cons_eq h)

/-- The word is the one word of a well-formed instruction. -/
def Encodes (w : Word) (i : Instr) : Prop := i.wellFormed = true ∧ encode i = [w]

theorem encodes_of_has {w x : Word} {i : Instr} (hw : i.wellFormed = true) (he : encode i = [x]) (h : Has w 0 x) : Encodes w i :=
  ⟨hw, by rw [he, (eq_word_iff x w).2 h]⟩

/-- Whatever an optional instruction holds, the word is its encoding. -/
def Sound (w : Word) (o : Option Instr) : Prop := ∀ i, o = some i → Encodes w i

theorem sound_none (w : Word) : Sound w none := fun _ h => nomatch h

theorem sound_of_has {w x : Word} {i : Instr} (hw : i.wellFormed = true) (he : encode i = [x]) (h : Has w 0 x) :
    Sound w (some i) := fun _ e => Option.some.inj e ▸ encodes_of_has hw he h

theorem sound_map_of_has {α : Type} {w : Word} {f : α → Instr} {g : α → Word} {o : Option α} (hw : ∀ x, (f x).wellFormed = true)
    (he : ∀ x, encode (f x) = [g x]) (h : ∀ x, o = some x → Has w 0 (g x)) : Sound w (o.map f) := by
  cases o with
  | none => exact sound_none w
  | some x => exact sound_of_has (hw x) (he x) (h x rfl)

end Sys2Proof
end

section
/-! A word that decodes is the encoding of what it decodes to (06 R153, R186), one lemma for each sub-map. -/

namespace Sys2Proof

/-! ## Major 0x00 -/

theorem has_encInt {w : Word} {op : BitVec 6} {d : SQ} {a b : Src} {ww : Bool} :
    Has w 0 (encInt op d a b ww) ↔ fld w 26 6 = 0 ∧ fld w 21 5 = d.field ∧ fld w 16 5 = a.field ∧ fld w 11 5 = b.field ∧
      wbit w 10 = a.alt ∧ wbit w 9 = b.alt ∧ wbit w 8 = d.isQ ∧ wbit w 7 = ww ∧ wbit w 6 = false ∧ fld w 0 6 = op := by
  simp only [encInt, has_append, has_b1, has_zero_bit]
  simp only [Has, and_assoc]
  rfl

section
variable {w : Word} {op : BitVec 6} {d : SQ} {a b : Src} {ww : Bool}

theorem alu1w_sound {k : SQ → Src → Bool → Instr} (hk : alu1w op.toNat = some k) (h : Has w 0 (encInt op d a (.s 0) ww)) :
    Sound w (some (k d a ww)) := by
  unfold alu1w at hk
  split at hk <;> cases hk <;> rename_i ho <;> cases eq_ofNat_of_toNat_eq ho <;> exact sound_of_has rfl rfl h

theorem alu1_sound {k : SQ → Src → Instr} (hk : alu1 op.toNat = some k) (h : Has w 0 (encInt op d a (.s 0) false)) :
    Sound w (some (k d a)) := by
  unfold alu1 at hk
  split at hk <;> cases hk <;> rename_i ho <;> cases eq_ofNat_of_toNat_eq ho <;> exact sound_of_has rfl rfl h

theorem alu2w_sound {k : SQ → Src → Src → Bool → Instr} (hk : alu2w op.toNat = some k) (h : Has w 0 (encInt op d a b ww)) :
    Sound w (some (k d a b ww)) := by
  unfold alu2w at hk
  split at hk <;> cases hk <;> rename_i ho <;> cases eq_ofNat_of_toNat_eq ho <;> exact sound_of_has rfl rfl h

theorem alu2_sound {k : SQ → Src → Src → Instr} (hk : alu2 op.toNat = some k) (h : Has w 0 (encInt op d a b false)) :
    Sound w (some (k d a b)) := by
  unfold alu2 at hk
  split at hk <;> cases hk <;> rename_i ho <;> cases eq_ofNat_of_toNat_eq ho <;> exact sound_of_has rfl rfl h

end

theorem decInt_sound {w : Word} (hm : fld w 26 6 = 0) : Sound w (decInt w) := by
  unfold decInt
  dsimp only
  repeat' split
  any_goals exact sound_none w
  · refine sound_of_has rfl rfl (has_encInt.2 ?_)
    simp_all [decSrc_eq_some, toNat_eq_iff_ofNat]
  · rename_i hk _
    refine alu1w_sound hk (has_encInt.2 ?_)
    simp_all [decSrc_eq_some, decSQ_eq_some]
  · rename_i hk _
    refine alu1_sound hk (has_encInt.2 ?_)
    simp_all [decSrc_eq_some, decSQ_eq_some]
  · rename_i hk
    refine alu2w_sound hk (has_encInt.2 ?_)
    simp_all [decSrc_eq_some, decSQ_eq_some]
  · rename_i hk _
    refine alu2_sound hk (has_encInt.2 ?_)
    simp_all [decSrc_eq_some, decSQ_eq_some]

/-! ## Majors 0x05 to 0x0F -/

theorem decShift_sound {w : Word} (hm : fld w 26 6 = 0x05) : Sound w (decShift w) := by
  unfold decShift
  dsimp only
  split
  · rename_i h
    simp only [Bool.and_eq_true, decide_eq_true_eq] at h
    obtain ⟨h7, hk⟩ := h
    split
    any_goals exact sound_none w
    all_goals
      refine sound_of_has hk rfl ?_
      simp only [encI, has_append, has_b1]
      simp_all [Has, toNat_eq_iff_ofNat]
  · exact sound_none w

theorem decCmpi_sound {w : Word} (hm : fld w 26 6 = 0x07) : Sound w (decCmpi w) := by
  unfold decCmpi
  split
  · refine sound_map_of_has (fun _ => rfl) (fun _ => rfl) fun cc hcc => ?_
    simp only [encI, has_append]
    simp_all [Has, decIntCc_eq_some]
  · exact sound_none w

theorem decIndexed_sound {w : Word} (hm : fld w 26 6 = 0x0A) : Sound w (decIndexed w) := by
  unfold decIndexed
  split
  · split
    all_goals
      refine sound_map_of_has (fun _ => rfl) (fun _ => rfl) fun wd hwd => ?_
      simp only [has_append, has_zero_bit, has_one_bit]
      simp_all [Has, decStoreWidth_eq_some, decLoadWidth_eq_some]
  · exact sound_none w

theorem decJump_sound {w : Word} (hm : fld w 26 6 = 0x0E) : Sound w (decJump w) := by
  unfold decJump
  dsimp only
  repeat' split
  any_goals exact sound_none w
  all_goals
    refine sound_of_has rfl rfl ?_
    simp only [encI, has_append]
    simp_all [Has, fld_split w 0 12 4, toNat_eq_iff_ofNat]

theorem decLoop_sound {w : Word} (hm : fld w 26 6 = 0x0F) : Sound w (decLoop w) := by
  unfold decLoop
  repeat' split
  any_goals exact sound_none w
  · refine sound_of_has rfl rfl ?_
    simp only [has_append, has_one_bit]
    simp_all [Has]
  · refine sound_of_has (by simp_all [Instr.wellFormed]) rfl ?_
    simp only [has_append, has_zero_bit]
    simp_all [Has]

/-! ## Majors 0x10 to 0x13 -/

section
variable {w : Word} {fn : BitVec 5} {fmt : Fmt} {d a b : SQ}

theorem float1_sound {k : Fmt → SQ → SQ → Instr} (hk : float1 fn.toNat = some k)
    (hp : fmt.packed = true ∨ fn ≠ 0x0F ∧ fn ≠ 0x11) (h : Has w 0 (encFloat 0x10 fn fmt d a (.s 0))) :
    Sound w (some (k fmt d a)) := by
  unfold float1 at hk
  split at hk <;> cases hk <;> rename_i ho <;> cases eq_ofNat_of_toNat_eq ho
  case h_8 | h_9 => exact sound_of_has (by simpa [Instr.wellFormed] using hp) rfl h
  all_goals exact sound_of_has rfl rfl h

theorem float2_sound {k : Fmt → SQ → SQ → SQ → Instr} (hk : float2 fn.toNat = some k)
    (hp : fmt.packed = true ∨ fn ≠ 0x10) (h : Has w 0 (encFloat 0x10 fn fmt d a b)) : Sound w (some (k fmt d a b)) := by
  unfold float2 at hk
  split at hk <;> cases hk <;> rename_i ho <;> cases eq_ofNat_of_toNat_eq ho
  case h_8 => exact sound_of_has (by simpa [Instr.wellFormed] using hp) rfl h
  all_goals exact sound_of_has rfl rfl h

end

theorem decFloat_sound {w : Word} (hm : fld w 26 6 = 0x10) : Sound w (decFloat w) := by
  unfold decFloat
  dsimp only
  repeat' split
  any_goals exact sound_none w
  · refine sound_of_has rfl rfl ?_
    simp only [encFloat, has_append, has_b1]
    simp_all [Has, toNat_eq_iff_ofNat, decFmt_eq_some, decSQ_eq_some]
  · rename_i hk _
    refine float1_sound hk (by simp_all [toNat_eq_iff_ofNat]) ?_
    simp only [encFloat, has_append, has_b1]
    simp_all [Has, decFmt_eq_some, decSQ_eq_some]
  · rename_i hk _ _ _ _
    refine float2_sound hk (by simp_all [toNat_eq_iff_ofNat]) ?_
    simp only [encFloat, has_append, has_b1]
    simp_all [Has, decFmt_eq_some, decSQ_eq_some]

theorem decFma_sound {w : Word} (hm : fld w 26 6 = 0x11) : Sound w (decFma w) := by
  unfold decFma
  repeat' split
  any_goals exact sound_none w
  all_goals
    refine sound_of_has rfl rfl ?_
    simp only [encFloat, has_append, has_b1]
    simp_all [Has, decFmt_eq_some, decSQ_eq_some, toNat_eq_iff_ofNat]

theorem decConvert_sound {w : Word} (hm : fld w 26 6 = 0x12) : Sound w (decConvert w) := by
  have small : (fld w 0 5).toNat < 5 → fld w 3 2 = 0#2 := fun h => by
    apply BitVec.eq_of_toNat_eq
    simp only [fld_toNat, BitVec.toNat_ofNat] at h ⊢
    omega
  unfold decConvert
  dsimp only
  repeat' split
  any_goals exact sound_none w
  case h_1.isTrue =>
    refine sound_of_has (by simp_all [Instr.wellFormed]) rfl ?_
    simp only [encConvert, has_append, has_b1]
    simp_all [Has, decFmt_eq_some, decRm_eq_some, decSQ_eq_some]
  all_goals
    refine sound_of_has rfl rfl ?_
    simp only [encConvert, has_append, has_b1, has_zero_bit]
    simp_all [Has, decFmt_eq_some, decRm_eq_some, decSQ_eq_some, toNat_eq_iff_ofNat]

theorem decFcmp_sound {w : Word} (hm : fld w 26 6 = 0x13) : Sound w (decFcmp w) := by
  unfold decFcmp
  repeat' split
  any_goals exact sound_none w
  · refine sound_of_has rfl rfl ?_
    simp only [has_append, has_b1, has_zero_bit]
    simp_all [Has, fld_split w 3 3 2, decFloatCc_eq_some, decSQ_eq_some]

/-! ## Majors 0x14 to 0x17 -/

theorem three_of_rest : ∀ x : BitVec 2, x.toNat ≠ 0 → x.toNat ≠ 1 → x.toNat ≠ 2 → x = 3 := by decide

theorem decSbind_sound {w : Word} (hm : fld w 26 6 = 0x14) (hs : fld w 8 3 = 0) : Sound w (decSbind w) := by
  unfold decSbind
  repeat' split
  any_goals exact sound_none w
  · refine sound_map_of_has (fun _ => rfl) (fun _ => rfl) fun g hg => ?_
    simp only [encStream, has_append]
    simp_all [Has, toNat_eq_iff_ofNat, decQ_eq_some]
  · refine sound_of_has rfl rfl ?_
    simp only [encStream, has_append, has_zero_bit]
    simp_all [Has, toNat_eq_iff_ofNat, decQ_eq_some]
  · refine sound_of_has rfl rfl ?_
    simp only [encStream, has_append]
    simp_all [Has, toNat_eq_iff_ofNat, decQ_eq_some]
  · rename_i h0 h1 h2 _
    have h3 : fld w 6 2 = 3 := three_of_rest _ h0 h1 h2
    clear h0 h1 h2
    refine sound_of_has rfl rfl ?_
    simp only [encStream, has_append]
    simp_all [Has, fld_split w 0 2 4, toNat_eq_iff_ofNat, decQ_eq_some]

theorem decStream_sound {w : Word} (hm : fld w 26 6 = 0x14) : Sound w (decStream w) := by
  unfold decStream
  dsimp only
  repeat' split
  any_goals exact sound_none w
  · exact decSbind_sound hm ‹_›
  · refine sound_map_of_has (fun _ => rfl) (fun _ => rfl) fun k hk => ?_
    simp only [encStream, has_append]
    simp_all [Has, toNat_eq_iff_ofNat, decQ_eq_some, decParam_eq_some]
  all_goals
    refine sound_of_has rfl rfl ?_
    simp only [encStream, has_append]
    simp_all [Has, toNat_eq_iff_ofNat, decQ_eq_some, GenMode.code]

theorem decToken_sound {w : Word} (hm : fld w 26 6 = 0x15) : Sound w (decToken w) := by
  unfold decToken
  dsimp only
  repeat' split
  any_goals exact sound_none w
  · refine sound_map_of_has (fun _ => rfl) (fun _ => rfl) fun a ha => ?_
    simp only [encToken, has_append, has_b1]
    simp_all [Has, toNat_eq_iff_ofNat, decSrc_eq_some]
  · refine sound_of_has rfl rfl ?_
    simp only [encToken, has_append, has_b1, has_zero_bit]
    simp_all [Has, toNat_eq_iff_ofNat, decSrc_eq_some]
  · refine sound_of_has rfl rfl ?_
    simp only [encToken, has_append, has_b1, has_one_bit]
    simp_all [Has, toNat_eq_iff_ofNat]
  · refine sound_map_of_has (fun _ => rfl) (fun _ => rfl) fun a ha => ?_
    simp only [encToken, has_append, has_b1]
    simp_all [Has, toNat_eq_iff_ofNat, decSrc_eq_some, fld_split w 0 2 6, fld_split w 6 1 1]
  · refine sound_map_of_has (fun _ => rfl) (fun _ => rfl) fun a ha => ?_
    simp only [encToken, has_append, has_b1]
    simp_all [Has, toNat_eq_iff_ofNat, decSrc_eq_some]

theorem decTag_sound {w : Word} (hm : fld w 26 6 = 0x16) : Sound w (decTag w) := by
  unfold decTag
  dsimp only
  repeat' split
  any_goals exact sound_none w
  case h_1.isTrue | h_1 =>
    refine sound_of_has rfl rfl ?_
    simp only [encTag, has_append, has_b1, has_zero_bit]
    simp_all [Has, toNat_eq_iff_ofNat, decSrc_eq_some]
  all_goals
    refine sound_map_of_has (fun _ => rfl) (fun _ => rfl) fun a ha => ?_
    simp only [encTag, has_append, has_b1, has_zero_bit]
    simp_all [Has, toNat_eq_iff_ofNat, decSrc_eq_some]

theorem decEnd_sound {w : Word} (hm : fld w 26 6 = 0x17) : Sound w (decEnd w) := by
  unfold decEnd
  repeat' split
  any_goals exact sound_none w
  all_goals
    refine sound_of_has (by simp_all [Instr.wellFormed, Instr.isIsa]) rfl ?_
    simp only [has_append, has_zero_bit]
    simp_all [Has]

/-! ## Majors 0x18 and 0x19 -/

theorem decMatrix_sound {w : Word} (hm : fld w 26 6 = 0x18) : Sound w (decMatrix w) := by
  unfold decMatrix
  dsimp only
  split
  · repeat' split
    any_goals exact sound_none w
    all_goals
      refine sound_of_has rfl rfl ?_
      simp only [encMatrix, has_append, has_b1]
      simp_all [Has, toNat_eq_iff_ofNat, fld_split w 0 1 4]
  · repeat' split
    any_goals exact sound_none w
    · refine sound_of_has (by simp_all [Instr.wellFormed]) rfl ?_
      simp only [encMatrix, has_append, has_b1, has_zero_bit]
      simp_all [Has, decMmaFmt_eq_some]

theorem decSemiring_sound {w : Word} (hm : fld w 26 6 = 0x19) : Sound w (decSemiring w) := by
  unfold decSemiring
  dsimp only
  repeat' split
  any_goals exact sound_none w
  all_goals
    refine sound_of_has rfl rfl ?_
    simp only [encMatrix, has_append, has_b1]
    simp_all [Has, toNat_eq_iff_ofNat]

/-! ## Majors 0x1A to 0x1D -/

theorem decPred_sound {w : Word} (hm : fld w 26 6 = 0x1A) : Sound w (decPred w) := by
  unfold decPred
  dsimp only
  repeat' split
  any_goals exact sound_none w
  · refine sound_of_has rfl rfl ?_
    simp only [has_append, has_b1]
    simp_all [Has, decSrc_eq_some, decIntCc_eq_some]
  all_goals
    refine sound_of_has rfl rfl ?_
    simp only [encPred, has_append]
    simp_all [Has, toNat_eq_iff_ofNat]

theorem decSel_sound {w : Word} (hm : fld w 26 6 = 0x1B) : Sound w (decSel w) := by
  unfold decSel
  repeat' split
  any_goals exact sound_none w
  · refine sound_of_has rfl rfl ?_
    simp only [has_append, has_b1]
    simp_all [Has, decSrc_eq_some]

theorem decSystem_sound {w : Word} (hm : fld w 26 6 = 0x1C) : Sound w (decSystem w) := by
  unfold decSystem
  dsimp only
  repeat' split
  any_goals exact sound_none w
  case h_3.isTrue | h_5.isTrue =>
    refine sound_of_has rfl rfl ?_
    simp only [encSystem, has_append, has_b1]
    simp_all [Has, toNat_eq_iff_ofNat]
  all_goals
    refine sound_map_of_has (fun _ => rfl) (fun _ => rfl) fun k hk => ?_
    simp only [encSystem, has_append, has_b1]
    simp_all [Has, toNat_eq_iff_ofNat, decSrc_eq_some, decBounded_eq_some]

theorem decController_sound {w : Word} (hm : fld w 26 6 = 0x1D) : Sound w (decController w) := by
  unfold decController
  dsimp only
  repeat' split
  any_goals exact sound_none w
  case h_7 | h_8 =>
    refine sound_map_of_has (fun _ => rfl) (fun _ => rfl) fun k hk => ?_
    simp only [encController, has_append]
    simp_all [Has, toNat_eq_iff_ofNat, decBounded_eq_some]
  all_goals
    refine sound_of_has rfl rfl ?_
    simp only [encController, has_append]
    simp_all [Has, toNat_eq_iff_ofNat]

end Sys2Proof
end

section
/-! Every word, by its major: what decodes is the encoding of what it decodes to (06 R186). -/

namespace Sys2Proof

theorem decWord_sound (w : Word) : Sound w (decWord w) := by
  unfold decWord
  dsimp only
  split <;> rename_i hm
  case h_1 => exact decInt_sound (eq_ofNat_of_toNat_eq hm)
  case h_2 | h_3 | h_4 | h_5 =>
    refine sound_of_has rfl rfl ?_
    simp only [encI, has_append]
    simp [Has, eq_ofNat_of_toNat_eq hm]
  case h_6 => exact decShift_sound (eq_ofNat_of_toNat_eq hm)
  case h_7 =>
    split
    · refine sound_of_has rfl rfl ?_
      simp only [encI, has_append]
      simp_all [Has, toNat_eq_iff_ofNat]
    · exact sound_none w
  case h_8 => exact decCmpi_sound (eq_ofNat_of_toNat_eq hm)
  case h_9 | h_10 =>
    refine sound_map_of_has (fun _ => rfl) (fun _ => rfl) fun wd hwd => ?_
    simp only [encI, has_append]
    simp_all [Has, toNat_eq_iff_ofNat, decLoadWidth_eq_some, decStoreWidth_eq_some]
  case h_11 => exact decIndexed_sound (eq_ofNat_of_toNat_eq hm)
  case h_12 =>
    split
    · refine sound_of_has rfl rfl ?_
      simp only [encI, has_append]
      simp_all [Has, toNat_eq_iff_ofNat]
    · exact sound_none w
  case h_13 =>
    refine sound_of_has rfl rfl ?_
    simp only [has_append, has_b1]
    simp [Has, eq_ofNat_of_toNat_eq hm]
  case h_14 =>
    repeat' split
    any_goals exact sound_none w
    all_goals
      refine sound_of_has rfl rfl ?_
      simp only [has_append, has_one_bit, has_zero_bit]
      simp_all [Has, toNat_eq_iff_ofNat]
  case h_15 => exact decJump_sound (eq_ofNat_of_toNat_eq hm)
  case h_16 => exact decLoop_sound (eq_ofNat_of_toNat_eq hm)
  case h_17 => exact decFloat_sound (eq_ofNat_of_toNat_eq hm)
  case h_18 => exact decFma_sound (eq_ofNat_of_toNat_eq hm)
  case h_19 => exact decConvert_sound (eq_ofNat_of_toNat_eq hm)
  case h_20 => exact decFcmp_sound (eq_ofNat_of_toNat_eq hm)
  case h_21 => exact decStream_sound (eq_ofNat_of_toNat_eq hm)
  case h_22 => exact decToken_sound (eq_ofNat_of_toNat_eq hm)
  case h_23 => exact decTag_sound (eq_ofNat_of_toNat_eq hm)
  case h_24 => exact decEnd_sound (eq_ofNat_of_toNat_eq hm)
  case h_25 => exact decMatrix_sound (eq_ofNat_of_toNat_eq hm)
  case h_26 => exact decSemiring_sound (eq_ofNat_of_toNat_eq hm)
  case h_27 => exact decPred_sound (eq_ofNat_of_toNat_eq hm)
  case h_28 => exact decSel_sound (eq_ofNat_of_toNat_eq hm)
  case h_29 => exact decSystem_sound (eq_ofNat_of_toNat_eq hm)
  case h_30 => exact decController_sound (eq_ofNat_of_toNat_eq hm)
  case h_31 => exact sound_none w

/-- The two words of LIX (06 R166). -/
theorem lix_sound {w v : Word} (hm : (fld w 26 6).toNat = 0x3B) (h : (isExtWord v && decide (fld w 16 5 = 0)) = true) :
    encode (.lix (fld w 21 5) (fld w 0 16 ++ fld v 0 28)) = [w, v] := by
  simp only [isExtWord, Bool.and_eq_true, decide_eq_true_eq] at h
  obtain ⟨hv, h0⟩ := h
  have hm := eq_ofNat_of_toNat_eq hm
  have hi : (fld w 0 16 ++ fld v 0 28).extractLsb' 28 16 = fld w 0 16 := BitVec.extractLsb'_append_eq_left
  have lo : (fld w 0 16 ++ fld v 0 28).extractLsb' 0 28 = fld v 0 28 := BitVec.extractLsb'_append_eq_right
  have first : (0x3B#6 ++ fld w 21 5 ++ 0#5 ++ fld w 0 16 : BitVec 32) = w := by
    rw [eq_word_iff]
    simp only [has_append]
    simp [Has, hm, h0]
  have second : (0xF#4 ++ fld v 0 28 : BitVec 32) = v := by
    rw [eq_word_iff]
    simp only [has_append]
    simp [Has, hv]
  show [(0x3B#6 ++ fld w 21 5 ++ 0#5 ++ (fld w 0 16 ++ fld v 0 28).extractLsb' 28 16 : BitVec 32),
    (0xF#4 ++ (fld w 0 16 ++ fld v 0 28).extractLsb' 0 28 : BitVec 32)] = [w, v]
  rw [hi, lo, first, second]

theorem decodeWords_encode {w v : Word} {i : Instr} (h : decodeWords w (some v) = .ok i) :
    i.wellFormed = true ∧ (encode i = [w] ∨ encode i = [w, v]) := by
  unfold decodeWords at h
  split at h
  · cases h
  · split at h
    · rename_i hm
      dsimp only at h
      split at h
      · rename_i hv
        cases h
        exact ⟨rfl, .inr (lix_sound hm hv)⟩
      · cases h
    · split at h
      · rename_i hw
        cases h
        obtain ⟨hwf, henc⟩ := decWord_sound w _ hw
        exact ⟨hwf, .inl henc⟩
      · cases h

/-- Settles O29: each sub-map of chapter 6 decodes only the words that the encoder gives. -/
theorem encodeDecode : Obligations.EncodeDecode := fun _ _ _ h =>
  have ⟨hwf, henc⟩ := decodeWords_encode h
  ⟨decodeWords_isIsa h, hwf, henc⟩

end Sys2Proof
end

section
/-! The encoding of a well-formed instruction decodes to it (06 R152 to R154, R186, R187). -/

namespace Sys2Proof

theorem decWord_of_encode {w : Word} {i : Instr} (hw : i.wellFormed = true) (hl : ∀ d imm, i ≠ .lix d imm) (h : encode i = [w]) :
    decWord w = some i := by
  cases i
  case lix d imm => exact absurd rfl (hl d imm)
  case add | sub | and | or | xor | andn | orn | sll | srl | sra | rol | mul | mulh | mulhz | div | divz | rem | remz | min | max
      | minz | maxz | adds | subs | ext | extz | rand | clz | ctz | popc | brev | bswap | ins =>
    replace h := has_of_encode h
    simp only [encInt, has_append, has_b1, has_zero_bit] at h
    simp [Has] at h
    simp [decWord, decInt, alu1, alu1w, alu2, alu2w, h]
  case addi | andi | ori | xori | lui =>
    replace h := has_of_encode h
    simp only [encI, has_append] at h
    simp [Has] at h
    simp [decWord, h]
  case slli | srli | srai =>
    replace h := has_of_encode h
    simp only [encI, has_append, has_b1] at h
    simp [Has] at h
    simp [Instr.wellFormed] at hw
    simp [decWord, decShift, h, hw]
  case cmpi =>
    replace h := has_of_encode h
    simp only [encI, has_append] at h
    simp [Has] at h
    simp [decWord, decCmpi, h]
  case ld | st | ldc =>
    replace h := has_of_encode h
    simp only [encI, has_append] at h
    simp [Has] at h
    simp [decWord, h]
  case ldx | stx =>
    replace h := has_of_encode h
    simp only [has_append, has_zero_bit, has_one_bit] at h
    simp [Has] at h
    simp [decWord, decIndexed, h]
  case br | jmp | call =>
    replace h := has_of_encode h
    simp only [has_append, has_b1, has_zero_bit, has_one_bit] at h
    simp [Has] at h
    simp [decWord, h]
  case jr | callr | ret | done | nop =>
    replace h := has_of_encode h
    simp only [encI, has_append] at h
    simp [Has, fld_split w 0 12 4] at h
    simp [decWord, decJump, h]
  case loop | rpt =>
    replace h := has_of_encode h
    simp only [has_append, has_zero_bit, has_one_bit] at h
    simp [Has] at h
    simp [Instr.wellFormed] at hw
    simp [decWord, decLoop, h, hw]
  case fadd | fsub | fmul | fdiv | fmin | fmax | fcps | fpack | fabs | fneg | fsqrt | frcp | frsq | fexp2 | flog2 | fclass | fsum2 |
      funpack =>
    replace h := has_of_encode h
    simp only [encFloat, has_append, has_b1] at h
    simp [Has] at h
    simp [Instr.wellFormed] at hw
    simp [decWord, decFloat, float1, float2, h, hw]
  case fma | fms | fnma =>
    replace h := has_of_encode h
    simp only [encFloat, has_append, has_b1] at h
    simp [Has] at h
    simp [decWord, decFma, h]
  case fcvt src _ _ _ _ _ =>
    replace h := has_of_encode h
    simp only [encConvert, has_append, has_b1] at h
    simp [Has] at h
    simp [Instr.wellFormed] at hw
    have hfn : (fld w 0 5).toNat = src.code.toNat := by
      rw [fld_join w 0 2 3, h.2.1, h.2.2, BitVec.toNat_append]
      simp
    have hlt : src.code.toNat < 5 := by cases src <;> decide
    have h9 : src.code.toNat ≠ 9 := by omega
    have h13 : src.code.toNat ≠ 13 := by omega
    simp [decWord, decConvert, h, hw, hfn, hlt, h9, h13]
  case fcvtFromE2m1 | fcvtToE2m1 | fcvti32 | fcvti64 | fcvti8 | icvtf32 | icvtf64 | icvtf8 =>
    replace h := has_of_encode h
    simp only [encConvert, has_append, has_b1, has_zero_bit] at h
    simp [Has] at h
    simp [decWord, decConvert, h]
  case fcmp =>
    replace h := has_of_encode h
    simp only [has_append, has_b1, has_zero_bit] at h
    simp [Has] at h
    simp [decWord, decFcmp, h, fld_split w 3 3 2]
  case sbindGenerator | sbindInputPort | sbindOutputPort | sbindUnbind =>
    replace h := has_of_encode h
    simp only [encStream, has_append, has_zero_bit] at h
    simp [Has, fld_split w 0 2 4] at h
    simp [decWord, decStream, decSbind, h, decQ_mod]
  case scfg | sstop | swait | scount =>
    replace h := has_of_encode h
    simp only [encStream, has_append] at h
    simp [Has] at h
    simp [decWord, decStream, h, decQ_mod, decParam_mod]
  case sstart g m a =>
    replace h := has_of_encode h
    simp only [encStream, has_append] at h
    simp [Has] at h
    cases m <;> simp [decWord, decStream, h, decQ_mod, GenMode.code]
  case mreq =>
    replace h := has_of_encode h
    simp only [encToken, has_append, has_b1] at h
    simp [Has] at h
    simp [decWord, decToken, h]
  case send | sendt | sendbTile | sendbMemory =>
    replace h := has_of_encode h
    simp only [encToken, has_append, has_b1, has_zero_bit, has_one_bit] at h
    simp [Has, fld_split w 0 2 6, fld_split w 6 1 1] at h
    simp [decWord, decToken, h]
  case tagnext | tagret | tagmk | tagctx | tagiter | ctxnew | ctxfree =>
    replace h := has_of_encode h
    simp only [encTag, has_append, has_b1, has_zero_bit] at h
    simp [Has] at h
    simp [decWord, decTag, h]
  case stop | eos =>
    replace h := has_of_encode h
    simp only [has_append, has_zero_bit] at h
    simp [Has] at h
    simp [Instr.wellFormed] at hw
    simp [decWord, decEnd, h, hw]
  case mma | mzero | mread | mstore | mloada | mfill | mempty | mwait | mstat =>
    replace h := has_of_encode h
    simp only [encMatrix, has_append, has_b1, has_zero_bit] at h
    simp [Has, fld_split w 0 1 4] at h
    simp [Instr.wellFormed] at hw
    simp [decWord, decMatrix, h, hw]
  case msr | mldm =>
    replace h := has_of_encode h
    simp only [encMatrix, has_append, has_b1] at h
    simp [Has] at h
    simp [decWord, decSemiring, h]
  case cmp =>
    replace h := has_of_encode h
    simp only [has_append, has_b1] at h
    simp [Has] at h
    simp [decWord, decPred, h]
  case pand | por | pxor | pnot | pmov =>
    replace h := has_of_encode h
    simp only [encPred, has_append] at h
    simp [Has] at h
    simp [decWord, decPred, h]
  case sel =>
    replace h := has_of_encode h
    simp only [has_append, has_b1] at h
    simp [Has] at h
    simp [decWord, decSel, h]
  case qshape | rdid | fault | fenceE | perf | cyc =>
    replace h := has_of_encode h
    simp only [encSystem, has_append, has_b1] at h
    simp [Has] at h
    simp [decWord, decSystem, h, decBounded_mod]
  case scmd | scwait | csrr | csrw | eret | waitev | mbxrd | mbxwr =>
    replace h := has_of_encode h
    simp only [encController, has_append] at h
    simp [Has] at h
    simp [decWord, decController, h, decBounded_mod]
  case xinv kind _ =>
    cases kind
    all_goals
      replace h := has_of_encode h
      simp only [encController, has_append] at h
      simp [Has] at h
      simp [decWord, decController, h]
  all_goals exact absurd hw Bool.false_ne_true

theorem decWord_major {w : Word} {i : Instr} (h : decWord w = some i) : (fld w 26 6).toNat ≤ 0x1D := by
  unfold decWord at h
  dsimp only at h
  split at h
  case h_31 => cases h
  all_goals omega

theorem isExtWord_of_major {w : Word} (h : (fld w 26 6).toNat < 60) : isExtWord w = false := by
  refine decide_eq_false fun hf => ?_
  have hf : (fld w 28 4).toNat = 15 := congrArg BitVec.toNat hf
  simp only [fld_toNat] at h hf
  omega

/-- The word after a word of an instruction of one word does not matter. -/
theorem decodeWords_of_decWord {w : Word} {i : Instr} (v : Option Word) (h : decWord w = some i) : decodeWords w v = .ok i := by
  have hm := decWord_major h
  have hx := isExtWord_of_major (w := w) (by omega)
  have h3b : (fld w 26 6).toNat ≠ 0x3B := by omega
  simp [decodeWords, hx, h3b, h]

theorem wordOfBytes_bytes (w : Word) : wordOfBytes (fld w 0 8) (fld w 8 8) (fld w 16 8) (fld w 24 8) = w := by
  rw [eq_word_iff, wordOfBytes]
  simp only [has_append]
  simp [Has]

theorem size_of_one_word {i : Instr} (hl : ∀ d imm, i ≠ .lix d imm) : i.size = 4 := by
  unfold Instr.size
  split
  · exact absurd rfl (hl _ _)
  · rfl

theorem decode_one_word {w : Word} {i : Instr} (hl : ∀ d imm, i ≠ .lix d imm) (h : decWord w = some i) (rest : List Byte) :
    decode (bytesOfWord w ++ rest) = .ok (i, rest) := by
  simp only [decode, bytesOfWord, List.cons_append, List.nil_append, wordOfBytes_bytes, decodeWords_of_decWord _ h,
    size_of_one_word hl]
  split <;> rfl

theorem decodeWords_lix (d : BitVec 5) (imm : BitVec 44) :
    decodeWords (0x3B#6 ++ d ++ 0#5 ++ imm.extractLsb' 28 16 : BitVec 32) (some (0xF#4 ++ imm.extractLsb' 0 28 : BitVec 32)) =
      .ok (.lix d imm) := by
  generalize hw : (0x3B#6 ++ d ++ 0#5 ++ imm.extractLsb' 28 16 : BitVec 32) = w
  generalize hv : (0xF#4 ++ imm.extractLsb' 0 28 : BitVec 32) = v
  rw [eq_word_iff] at hw hv
  simp only [has_append] at hw hv
  simp [Has] at hw hv
  have hx : isExtWord w = false := isExtWord_of_major (by simp [hw])
  have hvx : isExtWord v = true := decide_eq_true hv.1
  have himm : imm.extractLsb' 28 16 ++ imm.extractLsb' 0 28 = imm :=
    (BitVec.extractLsb'_append_extractLsb'_eq_extractLsb' (Nat.zero_add 28).symm).trans BitVec.extractLsb'_eq_self
  simp [decodeWords, hx, hvx, hw, hv, himm]

theorem decode_lix (d : BitVec 5) (imm : BitVec 44) (rest : List Byte) :
    decode (encodeBytes (.lix d imm) ++ rest) = .ok (.lix d imm, rest) := by
  show decode (bytesOfWord _ ++ (bytesOfWord _ ++ []) ++ rest) = _
  simp only [decode, bytesOfWord, List.cons_append, List.nil_append, wordOfBytes_bytes, decodeWords_lix]
  rfl

theorem one_word_of_wellFormed {i : Instr} (hi : i.isIsa = true) (hl : ∀ d imm, i ≠ .lix d imm) : ∃ w, encode i = [w] := by
  cases i
  case lix d imm => exact absurd rfl (hl d imm)
  case xinv kind _ => cases kind <;> exact ⟨_, rfl⟩
  any_goals exact ⟨_, rfl⟩
  all_goals cases hi

/-- Settles O28: LIX by its two words, every other instruction by its one. -/
theorem decodeEncode : Obligations.DecodeEncode := by
  intro i hi hw rest
  by_cases hl : ∃ d imm, i = .lix d imm
  · obtain ⟨d, imm, rfl⟩ := hl
    exact decode_lix d imm rest
  · simp only [not_exists] at hl
    obtain ⟨w, he⟩ := one_word_of_wellFormed hi hl
    have hb : encodeBytes i = bytesOfWord w := by simp [encodeBytes, he]
    rw [hb]
    exact decode_one_word hl (decWord_of_encode hw hl he) rest

end Sys2Proof
end
section
/-! Registers 0 and predicate 0 (06 R155); fetch, decode and one step (06 R154, R186, R187; 07 R192, R193). -/

namespace Sys2Proof.Machine

open Host (Outcome)
open Sys2Proof.Statements

/-- Settles O6, from the rules of register 0, of predicate 0 and of a write read back. -/
theorem hardwiredRegisters : Obligations.HardwiredRegisters := by
  intro s v b
  refine ⟨s.reg_zero, s.core.pred_zero, ?_, ?_, fun r hr => ⟨?_, fun q hq => ?_⟩, fun n hn => ?_⟩
  · rw [State.setReg, CoreRegs.setReg_zero]
  · rw [State.setPred, CoreRegs.setPred_zero]
  · exact s.reg_setReg_same v hr
  · exact s.reg_setReg_other v hq
  · rw [State.setPred, State.core_setCore]
    exact ⟨s.core.pred_setPred_same b hn, fun q hq => s.core.pred_setPred_other b hq⟩

/-! ## Bytes of the core in focus -/

theorem read_eq_sum (m : Mem) (a n : Nat) :
    Memory.read m a n = ((List.range n).map fun i => (Memory.get m (a + i)).toNat * 256 ^ i).sum := by
  induction n generalizing a with
  | zero => rfl
  | succ n ih =>
    rw [Memory.read, ih, List.range_succ_eq_map, List.map_cons, List.sum_cons, List.map_map, ← List.sum_map_mul_left]
    simp [Function.comp_def, pow_succ, Nat.add_assoc, Nat.add_comm 1, Nat.mul_comm, Nat.mul_assoc]

theorem State.emRead_eq_sum (s : State) (k slot a n : Nat) :
    s.emRead k slot a n = ((List.range n).map fun i => (s.emByte k slot (a + i)).toNat * 256 ^ i).sum := by
  induction n generalizing a with
  | zero => rfl
  | succ n ih =>
    rw [State.emRead, ih, List.range_succ_eq_map, List.map_cons, List.sum_cons, List.map_map, ← List.sum_map_mul_left]
    simp [Function.comp_def, pow_succ, Nat.add_assoc, Nat.add_comm 1, Nat.mul_comm, Nat.mul_assoc]

/-- What the model loads is the little-endian number of the bytes there. -/
theorem State.load_eq_bytesAt (s : State) (a n : Nat) : s.load a n = bytesAt s a n := by
  unfold State.load bytesAt byteAt
  cases s.focus with
  | element d p => exact s.emRead_eq_sum _ _ a n
  | controller d => exact read_eq_sum _ a n

theorem State.word_eq_bytesAt (s : State) (a : Nat) : s.word a = BitVec.ofNat 32 (bytesAt s a 4) := by
  rw [State.word, State.load_eq_bytesAt]

/-! ## Fetch -/

section
variable {s : State} {pc : DWord} {i : Instr}

theorem State.fetchAt_misaligned (h : pc.toNat % 4 ≠ 0) : s.fetchAt pc = .error cMisalign := by
  simp [State.fetchAt, h]

theorem State.fetchAt_outsideMemory (h : pc.toNat % 4 = 0) (ho : pc.toNat < s.codeStart ∨ s.memEnd < pc.toNat + 4) :
    s.fetchAt pc = .error cEmRange := by
  simp [State.fetchAt, h, ho]

theorem State.fetchAt_outsideExtent (h : pc.toNat % 4 = 0) (hlo : s.codeStart ≤ pc.toNat) (hhi : pc.toNat + 4 ≤ s.memEnd)
    (ho : s.outsideExtent pc.toNat = true) : s.fetchAt pc = .error cIllegal := by
  simp [State.fetchAt, h, hlo, hhi, ho]

/-- What a fetch makes of what the decoder reads, in the profile of its core: the code of its fault (06 R154, R186). -/
def fetched (s : State) : Except DecodeError Instr → Except Nat Instr
  | .error .extword => .error cExtword
  | .error .truncated => .error cEmRange
  | .error .illegal => .error cIllegal
  | .ok i => if s.profileOk i then .ok i else .error cIllegal

/-- Inside the code extent a fetch reads the word at the pc, and the next one where memory holds it. -/
theorem State.fetchAt_inside (h : pc.toNat % 4 = 0) (hlo : s.codeStart ≤ pc.toNat) (hhi : pc.toNat + 4 ≤ s.memEnd)
    (hin : s.outsideExtent pc.toNat = false) :
    s.fetchAt pc = fetched s (decodeWords (BitVec.ofNat 32 (bytesAt s pc.toNat 4))
      (if pc.toNat + 8 ≤ s.memEnd then some (BitVec.ofNat 32 (bytesAt s (pc.toNat + 4) 4)) else none)) := by
  simp only [State.fetchAt, h, Nat.not_lt.mpr hlo, Nat.not_lt.mpr hhi, hin, ← State.word_eq_bytesAt]
  match decodeWords (s.word pc.toNat) (if pc.toNat + 8 ≤ s.memEnd then some (s.word (pc.toNat + 4)) else none) with
  | .error .extword | .error .truncated | .error .illegal | .ok _ => simp [fetched]

theorem State.fetch_single (h : s.core.rpt = none) : s.fetch = s.fetchAt s.core.pc := by
  simp [State.fetch, h]

theorem State.fetch_repeated {r : Rpt} (h : s.core.rpt = some r) (hd : decodeWords (nth r.words r.idx 0) none = .ok i) :
    s.fetch = .ok i := by
  rw [State.fetch, h]
  dsimp only
  rw [hd]

end

/-! ## The core in focus -/
section
variable {s : State} {d p : Nat}

theorem State.core_element (hf : s.focus = .element d p) : s.core = (s.elem (elemKey d p)).core := by
  rw [State.core, hf]

theorem State.core_controller (hf : s.focus = .controller d) : s.core = (s.ctrl d).core := by
  rw [State.core, hf]

theorem State.memEnd_element (hf : s.focus = .element d p) : s.memEnd = 0xC000 := by
  simp [State.memEnd, State.onController, hf, emEnd]

theorem State.memEnd_controller (hf : s.focus = .controller d) : s.memEnd = 0x400000 := by
  simp [State.memEnd, State.onController, hf]

theorem State.codeStart_element (hf : s.focus = .element d p) : s.codeStart = 0x400 := by
  simp [State.codeStart, State.onController, hf, constEnd]

theorem State.codeStart_controller (hf : s.focus = .controller d) : s.codeStart = 0 := by
  simp [State.codeStart, State.onController, hf]

theorem State.profileOk_element (hf : s.focus = .element d p) (i : Instr) : s.profileOk i = i.elementOk := by
  simp [State.profileOk, State.onController, hf]

theorem State.profileOk_controller (hf : s.focus = .controller d) (i : Instr) : s.profileOk i = i.controllerOk := by
  simp [State.profileOk, State.onController, hf]

theorem State.outsideExtent_element (hf : s.focus = .element d p) (a : Nat) : s.outsideExtent a =
    (a < codeFirst (s.elem (elemKey d p)) (s.elem (elemKey d p)).fir.slot ||
      codeLast (s.elem (elemKey d p)) (s.elem (elemKey d p)).fir.slot < a : Bool) := by
  simp [State.outsideExtent, hf]

theorem State.outsideExtent_controller (hf : s.focus = .controller d) (a : Nat) : s.outsideExtent a = false := by
  simp [State.outsideExtent, hf]

end

/-! ## The count of an instruction -/
section
variable {s : State} {d p k : Nat} {i : Instr}

theorem State.shape_setElem {e : Element} (hc : e.colour = (s.elem k).colour) (ha : e.active = (s.elem k).active)
    (slot n : Nat) : (s.setElem k e).shape k slot n = s.shape k slot n := by
  have hregion (colour die : Nat) : (s.setElem k e).regionOf colour die = s.regionOf colour die := rfl
  have hlive (g : Rect × List Nat) : (s.setElem k e).regionLive g = s.regionLive g := rfl
  have hindex (g : Rect × List Nat) (die pos : Nat) : (s.setElem k e).regionIndex g die pos = s.regionIndex g die pos := rfl
  have hldie (die : Nat) : (s.setElem k e).ldie die = s.ldie die := rfl
  have hgrade : (s.setElem k e).gradeWord = s.gradeWord := rfl
  simp only [State.shape, State.elem_setElem_same, slotField, hc, ha, hregion, hlive, hindex, hldie, hgrade]

theorem State.emByte_setElem {e : Element} (hc : e.colour = (s.elem k).colour) (ha : e.active = (s.elem k).active)
    (hm : e.mem = (s.elem k).mem) (slot a : Nat) : (s.setElem k e).emByte k slot a = s.emByte k slot a := by
  unfold State.emByte
  rw [State.shape_setElem hc ha, State.elem_setElem_same, hm]

/-- What the count of an instruction makes of its element (07 R192). -/
def countedElem (e : Element) : Element :=
  { bumpPerf e 3 1 with fir := { e.fir with steps := e.fir.steps + 1, counted := true } }

theorem State.count_counted (h : (s.elem k).fir.counted = true) : s.count k = s := by
  simp [State.count, h]

theorem State.count_fresh (h : (s.elem k).fir.counted = false) : s.count k = s.setElem k (countedElem (s.elem k)) := by
  simp [State.count, h, countedElem]

theorem State.emByte_count (slot a : Nat) : (s.count k).emByte k slot a = s.emByte k slot a := by
  cases h : (s.elem k).fir.counted with
  | true => rw [State.count_counted h]
  | false =>
    rw [State.count_fresh h]
    exact State.emByte_setElem (e := countedElem (s.elem k)) rfl rfl rfl slot a

theorem State.focus_count : (s.count k).focus = s.focus := by
  cases h : (s.elem k).fir.counted with
  | true => rw [State.count_counted h]
  | false => rw [State.count_fresh h]; rfl

/-- The count touches an element's step count and performance counter only. -/
theorem State.elem_count_cases : (s.count k).elem k = s.elem k ∨ (s.count k).elem k = countedElem (s.elem k) := by
  cases h : (s.elem k).fir.counted with
  | true => exact .inl (by rw [State.count_counted h])
  | false => exact .inr (by rw [State.count_fresh h, State.elem_setElem_same])

theorem State.emRead_count (slot a n : Nat) : (s.count k).emRead k slot a n = s.emRead k slot a n := by
  simp only [State.emRead_eq_sum, State.emByte_count]

theorem State.core_count (hf : s.focus = .element d p) : (s.count (elemKey d p)).core = s.core := by
  have hcore : ((s.count (elemKey d p)).elem (elemKey d p)).core = (s.elem (elemKey d p)).core := by
    rcases State.elem_count_cases (s := s) (k := elemKey d p) with h | h <;> rw [h]
    rfl
  rw [State.core, State.core, State.focus_count, hf]
  exact hcore

theorem State.word_count (hf : s.focus = .element d p) (a : Nat) : (s.count (elemKey d p)).word a = s.word a := by
  have hslot : ((s.count (elemKey d p)).elem (elemKey d p)).fir.slot = (s.elem (elemKey d p)).fir.slot := by
    rcases State.elem_count_cases (s := s) (k := elemKey d p) with h | h <;> rw [h]
    rfl
  simp only [State.word, State.load, State.focus_count, hf, State.emRead_count, hslot]

theorem State.outsideExtent_count (hf : s.focus = .element d p) (a : Nat) :
    (s.count (elemKey d p)).outsideExtent a = s.outsideExtent a := by
  rw [State.outsideExtent, State.outsideExtent, State.focus_count, hf]
  rcases State.elem_count_cases (s := s) (k := elemKey d p) with h | h <;> simp only [h]
  rfl

/-- What a fetch reads is as before the count. -/
theorem State.fetch_count (hf : s.focus = .element d p) : (s.count (elemKey d p)).fetch = s.fetch := by
  have hcontroller : (s.count (elemKey d p)).onController = s.onController := by
    rw [State.onController, State.onController, State.focus_count]
  have hend : (s.count (elemKey d p)).memEnd = s.memEnd := by rw [State.memEnd, State.memEnd, hcontroller]
  have hstart : (s.count (elemKey d p)).codeStart = s.codeStart := by rw [State.codeStart, State.codeStart, hcontroller]
  have hprofile (i : Instr) : (s.count (elemKey d p)).profileOk i = s.profileOk i := by
    rw [State.profileOk, State.profileOk, hcontroller]
  simp only [State.fetch, State.fetchAt, State.core_count hf, State.word_count hf, State.outsideExtent_count hf, hend,
    hstart, hprofile]

/-- Below its step limit, or with its instruction counted, a firing goes on (07 R192). -/
theorem State.limitReached_below (h : (s.elem k).fir.counted = true ∨
    (s.elem k).fir.steps < stepLimitOf (s.elem k) (s.elem k).fir.slot) : s.limitReached k = false := by
  rcases h with h | h
  · simp [State.limitReached, h]
  · simp [State.limitReached, Nat.not_le.mpr h]

/-- The pc inside the code extent. -/
theorem State.outsideExtent_inside {a : Nat} (hf : s.focus = .element d p)
    (hfirst : codeFirst (s.elem (elemKey d p)) (s.elem (elemKey d p)).fir.slot ≤ a)
    (hlast : a ≤ codeLast (s.elem (elemKey d p)) (s.elem (elemKey d p)).fir.slot) : s.outsideExtent a = false := by
  simp [State.outsideExtent_element hf, hfirst, hlast]

theorem State.limitReached_count : (s.count k).limitReached k = false := by
  cases h : (s.elem k).fir.counted with
  | true => rw [State.count_counted h, State.limitReached, h]; rfl
  | false => rw [State.count_fresh h, State.limitReached, State.elem_setElem_same]; rfl

theorem State.status_count : ((s.count k).elem k).fir.status = (s.elem k).fir.status := by
  rcases State.elem_count_cases (s := s) (k := k) with h | h <;> rw [h]
  rfl

/-- A word that is no instruction faults the core that would execute it, below its step limit. -/
theorem execNonInstruction_faults {code : Nat} (hf : s.focus = .element d p)
    (hrun : (s.elem (elemKey d p)).fir.status = .running ∨ (s.elem (elemKey d p)).fir.status = .stalled)
    (hlim : s.limitReached (elemKey d p) = false) (hcode : s.fetch = .error code) :
    execNonInstruction s = .next (s.raise code (noDetail code)) := by
  have hlimited : s.limited = false := by simp [State.limited, hf, hlim]
  have hfetches : s.fetches = true := by simp [State.fetches, hf, hrun]
  simp [execNonInstruction, hlimited, hfetches, hcode]

/-! ## One step -/

/-- A fault that aborts the counted instruction's firing aborts the firing as it stood. -/
theorem aborted_of_count {u : State} {code : Nat} (h : Aborted (s.count k) u k code) : Aborted s u k code := by
  cases hc : (s.elem k).fir.counted with
  | true => rwa [State.count_counted hc] at h
  | false =>
    rw [State.count_fresh hc, Aborted, State.elem_setElem_same] at h
    exact h

/-- An element that runs below its step limit counts the instruction it fetches and executes it. -/
theorem stepElement_runs (hf : s.focus = .element d p) (hrun : (s.elem (elemKey d p)).fir.status = .running ∨
    (s.elem (elemKey d p)).fir.status = .stalled) (hlim : s.limitReached (elemKey d p) = false) (hi : s.fetch = .ok i) :
    stepElement s (elemKey d p) = exec i (s.count (elemKey d p)) := by
  have hif := State.fetch_count hf
  rcases hrun with hrun | hrun <;> simp [stepElement, hrun, hlim, hif, hi]

/-- An element whose fetch faults aborts the firing of the counted instruction with the fault's code. -/
theorem stepElement_faults {code : Nat} (hf : s.focus = .element d p) (hrun : (s.elem (elemKey d p)).fir.status = .running)
    (hlim : s.limitReached (elemKey d p) = false) (hcode : s.fetch = .error code) (hlt : code < 256) :
    ∃ u, stepElement s (elemKey d p) = .next u ∧ Aborted s u (elemKey d p) code := by
  have hfocus : (s.count (elemKey d p)).focus = .element d p := State.focus_count.trans hf
  have hfetch := (State.fetch_count hf).trans hcode
  refine ⟨_, ?_, aborted_of_count ((s.count (elemKey d p)).raise_aborted d p code (noDetail code) hfocus hlt)⟩
  have hstep : stepElement s (elemKey d p) = execNonInstruction (s.count (elemKey d p)) := by
    simp [stepElement, hrun, hlim, hfetch]
    rfl
  rw [hstep, execNonInstruction_faults hfocus (.inl (State.status_count.trans hrun)) State.limitReached_count hfetch]

theorem stepElement_limited (hrun : (s.elem k).fir.status = .running) (hcount : (s.elem k).fir.counted = false)
    (hlim : stepLimitOf (s.elem k) (s.elem k).fir.slot ≤ (s.elem k).fir.steps) : stepElement s k = exec .stepLimit s := by
  simp [stepElement, hrun, State.limitReached, hcount, hlim]

theorem stepController_runs (hc : s.firmwareRuns d = true) (hi : s.fetch = .ok i) : stepController s d = exec i s := by
  simp [stepController, hc, hi]

end

theorem step_element {s : State} {d p : Nat} (hag : s.agenda = []) (hf : s.focus = .element d p) :
    step s = stepElement s (elemKey d p) := by
  simp [step, hag, stepCore, hf]

theorem step_controller {s : State} {d : Nat} (hag : s.agenda = []) (hf : s.focus = .controller d) :
    step s = stepController s d := by
  simp [step, hag, stepCore, hf]

/-- Settles O25: a core's turn and an event of the agenda, each by the equation of its branch of the step. -/
theorem stepRunsDecoded : Obligations.StepRunsDecoded := by
  refine ⟨?_, ?_, ?_, ?_⟩
  · intro s d p i hag hf k e a hrun hcnt c
    have hstep (hi : s.fetch = .ok i) : step s = exec i c := by
      rw [step_element hag hf]
      exact stepElement_runs hf hrun (State.limitReached_below hcnt) hi
    have hcore : s.core = e.core := State.core_element hf
    refine ⟨fun hrpt hal hlo hhi hfirst hlast hdec hok => hstep ?_, fun r hrpt hdec => hstep ?_⟩
    · have hend := State.memEnd_element hf
      have hin := State.outsideExtent_inside hf hfirst hlast
      rw [State.fetch_single (hcore ▸ hrpt), hcore, State.fetchAt_inside hal (State.codeStart_element hf ▸ hlo) (hend ▸ hhi) hin,
        hend, hdec, fetched, State.profileOk_element hf, if_pos hok]
    · exact State.fetch_repeated (hcore ▸ hrpt) hdec
  · intro s d i hag hf c a hrel hhalt
    have hstep (hi : s.fetch = .ok i) : step s = exec i s := by
      rw [step_controller hag hf]
      exact stepController_runs (by simp [State.firmwareRuns, show (s.ctrl d).released = true from hrel,
        show (s.ctrl d).halted = none from hhalt]) hi
    have hcore : s.core = c.core := State.core_controller hf
    refine ⟨fun hrpt hal hhi hdec hok => hstep ?_, fun r hrpt hdec => hstep ?_⟩
    · have hend := State.memEnd_controller hf
      rw [State.fetch_single (hcore ▸ hrpt), hcore, State.fetchAt_inside hal (State.codeStart_controller hf ▸ Nat.zero_le _)
        (hend ▸ hhi) (State.outsideExtent_controller hf _), hend, hdec, fetched, State.profileOk_controller hf, if_pos hok]
    · exact State.fetch_repeated (hcore ▸ hrpt) hdec
  · intro s e rest hag he
    simp [step, hag, he]
  · intro s c rest hag
    simp [step, hag]

/-! ## Faults of a fetch -/

/-- Major 0x1D holds the instructions of a controller alone (06 R171, R187). -/
theorem decController_elementOk {w : Word} {i : Instr} (h : decController w = some i) : i.elementOk = false := by
  unfold decController at h
  dsimp only at h
  repeat' split at h
  case h_7 | h_8 =>
    obtain ⟨k, -, rfl⟩ := Option.map_eq_some_iff.mp h
    rfl
  all_goals cases h
  all_goals rfl

theorem decWord_controllerMajor {w : Word} (h : (fld w 26 6).toNat = 0x1D) : decWord w = decController w := by
  simp [decWord, h]

section
variable {s : State} {d p : Nat} {w : Word} {w2 : Option Word}

theorem fetched_extword (h : w.toNat / 2 ^ 28 = 15) : fetched s (decodeWords w w2) = .error cExtword := by
  have hext : isExtWord w = true := by
    refine decide_eq_true (BitVec.eq_of_toNat_eq ?_)
    rw [fld_toNat, h]
    rfl
  simp [decodeWords, hext, fetched]

/-- The majors above 0x1D hold no instruction, and 0x1D none of an element's (06 R187). -/
theorem fetched_reserved (hf : s.focus = .element d p) (hlo : 0x1D ≤ w.toNat / 2 ^ 26) (hhi : w.toNat / 2 ^ 26 ≤ 0x3A) :
    fetched s (decodeWords w w2) = .error cIllegal := by
  have hm : (fld w 26 6).toNat = w.toNat / 2 ^ 26 := by
    rw [fld_toNat]
    omega
  have hword : isExtWord w = false := isExtWord_of_major (by omega)
  have hsingle : (fld w 26 6).toNat ≠ 0x3B := by omega
  cases hw : decWord w with
  | none => simp [decodeWords, hword, hsingle, hw, fetched]
  | some i =>
    have h1D : (fld w 26 6).toNat = 0x1D := by
      have := decWord_major hw
      omega
    have hok : i.elementOk = false := decController_elementOk (decWord_controllerMajor h1D ▸ hw)
    simp [decodeWords_of_decWord w2 hw, fetched, State.profileOk_element hf, hok]

end

/-- Settles O26: the fault of each check of a fetch, raised by the step that executes it. -/
theorem fetchFaults : Obligations.FetchFaults := by
  intro s d p hag hf k e a w hrun hrpt hcnt
  have hcore : s.core = e.core := State.core_element hf
  have hend := State.memEnd_element hf
  have hstart := State.codeStart_element hf
  rw [step_element hag hf]
  refine ⟨fun hlim => ?_, fun hlim => ?_⟩
  · rw [stepElement_limited hrun hcnt hlim]
    exact stepLimit_aborts hf hrun hcnt hlim
  · have hreached := State.limitReached_below (.inr hlim)
    have hfault {code : Nat} (h : s.fetchAt e.core.pc = .error code) (hlt : code < 256) :
        ∃ u, stepElement s k = .next u ∧ Aborted s u k code :=
      stepElement_faults hf hrun hreached (by rw [State.fetch_single (hcore ▸ hrpt), hcore, h]) hlt
    refine ⟨fun h => ?_, fun hal h => ?_, fun hal hlo hhi h => ?_, fun hal hlo hhi hfirst hlast => ⟨fun h => ?_, fun h h' => ?_⟩⟩
    · exact hfault (State.fetchAt_misaligned h) (by decide)
    · exact hfault (State.fetchAt_outsideMemory hal (by rw [hstart, hend]; exact h)) (by decide)
    · exact hfault (State.fetchAt_outsideExtent hal (hstart ▸ hlo) (hend ▸ hhi)
        (by simpa [State.outsideExtent_element hf] using h)) (by decide)
    all_goals have hin := State.outsideExtent_inside hf hfirst hlast
    · exact hfault ((State.fetchAt_inside hal (hstart ▸ hlo) (hend ▸ hhi) hin).trans (fetched_extword h)) (by decide)
    · exact hfault ((State.fetchAt_inside hal (hstart ▸ hlo) (hend ▸ hhi) hin).trans (fetched_reserved hf h h')) (by decide)

end Sys2Proof.Machine
end
section
/-! Instructions outside the profile of the core in focus (06 R187). -/

namespace Sys2Proof.Machine

open Host (Outcome)
open Sys2Proof.Statements

/-- The core in focus raises ILLEGAL. -/
def Refuses (s : State) (o : Out) : Prop := ∃ detail, o = .next (s.raise cIllegal detail)

section
variable {s : State} {d p : Nat}

theorem onElement_refuses (hf : s.focus = .controller d) (f : Nat → Out) : Refuses s (onElement s f) :=
  ⟨_, onElement_controller s f d hf⟩

theorem onController_refuses (hf : s.focus = .element d p) (f : Nat → Out) : Refuses s (onController s f) :=
  ⟨_, onController_element s f d p hf⟩

/-- An operand that a controller lacks. -/
theorem withOperands_refuses (hf : s.focus = .controller d) {ok : Bool} (hok : ok = false) (pops : List (Fin 3))
    (push : Option (Fin 3)) (eff : State → List Word → State) : Refuses s (withOperands s ok pops push eff) :=
  ⟨0, by simp [withOperands, hf, hok]⟩

theorem intOp2_refuses (hf : s.focus = .controller d) {x : SQ} {a b : Src}
    (hok : (x.controllerOk && a.controllerOk && b.controllerOk) = false) (f : DWord → DWord → DWord) :
    Refuses s (intOp2 s x a b f) :=
  withOperands_refuses hf hok _ _ _

theorem intOp1_refuses (hf : s.focus = .controller d) {x : SQ} {a : Src}
    (hok : (x.controllerOk && a.controllerOk) = false) (f : DWord → DWord) : Refuses s (intOp1 s x a f) :=
  withOperands_refuses hf hok _ _ _

theorem srcOp2_refuses (hf : s.focus = .controller d) {a b : Src} (hok : (a.controllerOk && b.controllerOk) = false)
    (eff : State → DWord → DWord → State) : Refuses s (srcOp2 s a b eff) :=
  withOperands_refuses hf hok _ _ _

theorem floatOp2_refuses (hf : s.focus = .controller d) (x a b : SQ) (f : Word → Word → Word) :
    Refuses s (floatOp2 s x a b f) :=
  withOperands_refuses hf rfl _ _ _

theorem floatOp1_refuses (hf : s.focus = .controller d) (x a : SQ) (f : Word → Word) : Refuses s (floatOp1 s x a f) :=
  withOperands_refuses hf rfl _ _ _

theorem fusedOp_refuses (hf : s.focus = .controller d) (fmt : Fmt) (np na : Bool) (x : BitVec 5) (a b : SQ) :
    Refuses s (fusedOp s fmt np na x a b) :=
  withOperands_refuses hf rfl _ _ _

theorem convertOp_refuses (hf : s.focus = .controller d) (rm : Rm) (n : Nat) (x a : SQ) (f : (Nat → Word) → Word → Word) :
    Refuses s (convertOp s rm n x a f) :=
  withOperands_refuses hf rfl _ _ _

theorem convertIntOp_refuses (hf : s.focus = .controller d) (rm : Rm) (n : Nat) (x a : SQ)
    (f : (Nat → Word) → Word → DWord) : Refuses s (convertIntOp s rm n x a f) :=
  withOperands_refuses hf rfl _ _ _

theorem sendOne_refuses (hf : s.focus = .controller d) (o : Nat) (kind : SendKind) (pops : List (Fin 3))
    (tok : State → Nat → List Word → Token) : Refuses s (sendOne s o kind pops tok) :=
  onElement_refuses hf _

theorem queued_refuses (hf : s.focus = .controller d) (c : MCmd) : Refuses s (queued s c) := onElement_refuses hf _

theorem queuedAt_refuses (hf : s.focus = .controller d) (a : BitVec 5) (n : Nat) (write : Bool) (c : Nat → MCmd) :
    Refuses s (queuedAt s a n write c) :=
  onElement_refuses hf _

theorem afterQueue_refuses (hf : s.focus = .controller d) (eff : Nat → State → State) : Refuses s (afterQueue s eff) :=
  onElement_refuses hf _

theorem execMma_refuses (hf : s.focus = .controller d) (mf : MmaFmt) (sc clear : Bool) (acc : BitVec 2) (ta tb : BitVec 4)
    (a : BitVec 5) : Refuses s (execMma mf sc clear acc ta tb a s) := by
  unfold execMma
  split
  · exact queuedAt_refuses hf _ _ _ _
  · exact queued_refuses hf _

theorem exec_refuses_controller (hf : s.focus = .controller d) {i : Instr} (hi : i.isIsa = true)
    (hok : i.controllerOk = false) : Refuses s (exec i s) := by
  cases i <;> unfold exec
  case add | sub | and | or | xor | andn | orn | sll | srl | sra | rol | mul | mulh | mulhz | div | divz | rem | remz | min | max
      | minz | maxz | adds | subs | ext | extz | rand =>
    exact intOp2_refuses hf hok _
  case clz | ctz | popc | brev | bswap => exact intOp1_refuses hf hok _
  case ins | cmp | sel => exact srcOp2_refuses hf hok _
  case fadd | fsub | fmul | fdiv | fmin | fmax | fcps | fpack => exact floatOp2_refuses hf _ _ _ _
  case fabs | fneg | fsqrt | frcp | frsq | fexp2 | flog2 | fsum2 | funpack => exact floatOp1_refuses hf _ _ _
  case fma | fms | fnma => exact fusedOp_refuses hf _ _ _ _ _ _
  case fcvt | fcvtFromE2m1 | fcvtToE2m1 | icvtf32 | icvtf8 => exact convertOp_refuses hf _ _ _ _ _
  case fcvti32 | fcvti64 | fcvti8 => exact convertIntOp_refuses hf _ _ _ _ _
  case fclass | fcmp | icvtf64 => exact withOperands_refuses hf rfl _ _ _
  case ldc | done | sbindGenerator | sbindInputPort | sbindOutputPort | sbindUnbind | scfg | sstart | sstop | swait | scount
      | sendbTile | sendbMemory | tagnext | tagret | tagmk | tagctx | tagiter | ctxnew | ctxfree | mstat | qshape | rdid | fault
      | fenceE | perf | cyc =>
    exact onElement_refuses hf _
  case send | sendt | mreq | stop | eos => exact sendOne_refuses hf _ _ _ _
  case mzero | mfill | mempty | msr => exact queued_refuses hf _
  case mstore | mloada | mldm => exact queuedAt_refuses hf _ _ _ _
  case mread | mwait => exact afterQueue_refuses hf _
  case mma => exact execMma_refuses hf _ _ _ _ _ _ _
  case addi | andi | ori | xori | slli | srli | srai | lui | cmpi | ld | st | ldx | stx | br | jmp | call | jr | callr | ret | nop
      | loop | rpt | pand | por | pxor | pnot | pmov | lix | scmd | scwait | csrr | csrw | eret | waitev | mbxrd | mbxwr | xinv =>
    exact absurd hok.symm Bool.false_ne_true
  all_goals exact absurd hi Bool.false_ne_true

theorem exec_refuses_element (hf : s.focus = .element d p) {i : Instr} (hi : i.isIsa = true)
    (hok : i.elementOk = false) : Refuses s (exec i s) := by
  cases i
  case scmd | scwait | csrr | csrw | eret | waitev | mbxrd | mbxwr | xinv => exact onController_refuses hf _
  all_goals exact absurd (hok.symm.trans hi) Bool.false_ne_true

end

/-- Settles O15: an instruction that the profile leaves out stops at the check of the core or of its operands. -/
theorem profileFaults : Obligations.ProfileFaults :=
  ⟨fun _ _ _ hf hi hok => exec_refuses_controller hf hi hok, fun _ _ _ _ hf hi hok => exec_refuses_element hf hi hok⟩

end Sys2Proof.Machine
end
section
/-! Fault records, fault tokens and repairs (06 R186; 15 R402 to R406, R409). -/

namespace Sys2Proof.Machine

open Host (Outcome)
open Sys2Proof.Statements

/-! ## Records and fault tokens -/

theorem State.putRec_room {s : State} {d : Nat} {k : Fin 5} {r : Rec} (h : (s.box d k).length < boxSize k) :
    s.putRec d k r = some (s.setBox d k (s.box d k ++ [r])) := by
  simp [State.putRec, Nat.not_le.mpr h]

theorem State.box_setBox (s : State) (d : Nat) (k : Fin 5) (l : List Rec) : (s.setBox d k l).box d k = l := by
  simp [State.setBox, State.box]

/-- The open fault of a record of the levee network that enters mailbox 0. -/
def openFaultOf (x : LeveeRec) : OpenFault :=
  { die := x.die, pos := x.pos, record := x.record, colour := x.colour, told := false, channel := !x.handled, past := x.past }

/-- The only record that waits, due for mailbox 0 alone, is delivered and is an open fault. -/
theorem faultRecordDelivery_enters {s : State} {x : LeveeRec} (hl : s.levee = [x]) (hbox : x.toBox = true)
    (hch : x.toChannel = false) (hroom : (s.box x.die 0).length < 256) :
    exec (.faultRecordDelivery x.die) s = .next { s.setBox x.die 0 (s.box x.die 0 ++ [x.record]) with
      levee := [], hw := { s.hw with faultsOpen := s.hw.faultsOpen ++ [openFaultOf x] } } := by
  change execFaultRecordDelivery x.die s = _
  have hput : s.putRec x.die 0 x.record = some (s.setBox x.die 0 (s.box x.die 0 ++ [x.record])) := State.putRec_room hroom
  have hlevee : (s.setBox x.die 0 (s.box x.die 0 ++ [x.record])).levee = [x] := hl
  have hhw : (s.setBox x.die 0 (s.box x.die 0 ++ [x.record])).hw = s.hw := rfl
  simp [execFaultRecordDelivery, hl, hbox, hput, hlevee, hch, hhw, execFaultRecordDelivery.dropNth', openFaultOf]

theorem recSlot_lt (r : Rec) : recSlot r < 8 := by
  unfold recSlot
  split
  · exact Nat.mod_lt _ (by decide)
  · decide

/-- The fields of a fault handle below bit 32 fit there. -/
theorem faultHandle_low (r : Rec) : ∃ low, low < 2 ^ 32 ∧ low % 256 = recCode r ∧
    faultHandle r = BitVec.ofNat 64 (recSeq r * 2 ^ 32 + low) := by
  have hslot := recSlot_lt r
  have hldie : recLdie r < 64 := Nat.mod_lt _ (by decide)
  have hcode : recCode r < 256 := Nat.mod_lt _ (by decide)
  refine ⟨recSlot r * 2 ^ 28 + recPos r % 8192 * 2 ^ 15 + (if recKind r = 1 then 2 ^ 14 else 0) + recLdie r * 2 ^ 8 + recCode r,
    ?_, ?_, ?_⟩
  · split <;> omega
  · split <;> omega
  · simp only [faultHandle, Nat.add_assoc]

theorem faultHandle_toNat_code (r : Rec) : (faultHandle r).toNat % 256 = r.w0.toNat % 256 := by
  obtain ⟨low, -, hcode, hr⟩ := faultHandle_low r
  rw [hr, BitVec.toNat_ofNat]
  change low % 256 = r.w0.toNat % 256 at hcode
  omega

theorem faultHandle_toNat_seq (r : Rec) : (faultHandle r).toNat / 2 ^ 32 = r.w0.toNat / 2 ^ 32 := by
  obtain ⟨low, hlow, -, hr⟩ := faultHandle_low r
  rw [hr, BitVec.toNat_ofNat, recSeq]
  have hlt := r.w0.isLt
  omega

theorem faultHandle_code (r : Rec) : (faultHandle r).extractLsb' 0 8 = r.w0.extractLsb' 0 8 := by
  refine BitVec.eq_of_toNat_eq ?_
  rw [BitVec.extractLsb'_toNat, BitVec.extractLsb'_toNat]
  exact faultHandle_toNat_code r

theorem faultHandle_seq (r : Rec) : (faultHandle r).extractLsb' 32 32 = r.w0.extractLsb' 32 32 := by
  refine BitVec.eq_of_toNat_eq ?_
  rw [BitVec.extractLsb'_toNat, BitVec.extractLsb'_toNat, Nat.shiftRight_eq_div_pow, Nat.shiftRight_eq_div_pow,
    faultHandle_toNat_seq]

/-- The only record that waits, due for the fault channel alone: its token leaves there with a credit. -/
theorem faultToken_leaves {s : State} {x : LeveeRec} {b : Bind} (hl : s.levee = [x]) (hbox : x.toBox = false)
    (hch : x.toChannel = true) (hb : s.faultChannel x.colour x.load = some b) (hsrc : s.srcBind b.source x.colour x.load = some b)
    (hcredit : s.credit b (faultTokenOf x.colour x.record) = true) :
    ∃ u, exec (.faultToken x.die) s = .next u ∧ u.levee = [] ∧ u.packets = s.packets ++
      (pickDests b (faultTokenOf x.colour x.record)).map (s.packet b (faultTokenOf x.colour x.record)) := by
  obtain ⟨l, hemit⟩ := State.emit_packets (s := s) (t := faultTokenOf x.colour x.record) b.source x.load hsrc
    (strayStop_data rfl)
  have htry : s.tryEmit b.source x.load (faultTokenOf x.colour x.record) =
      some (s.emit b.source x.load (faultTokenOf x.colour x.record)) := by
    simp [State.tryEmit, show s.srcBind b.source (faultTokenOf x.colour x.record).colour x.load = some b from hsrc, hcredit]
  refine ⟨(s.emit b.source x.load (faultTokenOf x.colour x.record)).tokenSent 0 x, ?_, ?_, ?_⟩
  · change execFaultToken x.die s = _
    simp [execFaultToken, hl, hch, hb, htry]
  · rw [hemit]
    simp [State.tokenSent, hbox, State.sent, hl, dropNth]
  · rw [hemit]
    rfl

/-! ## The repair channel -/

/-- A request of kind RESUME for an element of a live die is a repair token of kind 0 for it. -/
theorem State.repairOf_resume {s : State} {t : Token} {d : Nat} (colour : Nat) (subst : DWord) (hlt : t.payload.toNat < 2 ^ 31)
    (hma : t.payload.toNat / 2 ^ 14 % 2 = 0) (hpos : t.payload.toNat / 2 ^ 15 % 8192 < 6400)
    (hd : s.dieOf (t.payload.toNat / 2 ^ 8 % 64) = some d) :
    s.repairOf colour t subst = some {
      dest := d * 6400 + t.payload.toNat / 2 ^ 15 % 8192, isMa := false, slot := t.payload.toNat / 2 ^ 28 % 8, tag := t.tag,
      kind := 0, subst := subst, colour := colour } := by
  have h31 : t.payload.toNat / 2 ^ 31 = 0 := Nat.div_eq_of_lt hlt
  have h32 : t.payload.toNat / 2 ^ 32 = 0 := Nat.div_eq_of_lt (by omega)
  have h35 : t.payload.toNat / 2 ^ 35 = 0 := Nat.div_eq_of_lt (by omega)
  simp only [State.repairOf, hma, h31, h32, h35, hd]
  simpa [elemKey] using hpos

theorem State.takeOut_eq (s : State) (c : Chan) (t : Token) : ∃ l,
    s.takeOut c t = { s.mapChan c.dest c.colour c.load fun c => countMarks t c.pop with packets := l } :=
  State.popChan_eq ..

theorem countMarks_data {t : Token} (c : Chan) (h : t.kind = .data) : countMarks t c = c := by
  simp [countMarks, h]

theorem repairRequest_sends {s : State} {colour d : Nat} {c : Chan} {t : Token} {rest : List Token}
    (hfind : (s.chans.find? fun x => x.colour = colour && s.isRepair x && x.queue ≠ []) = some c)
    (hc : s.chanAt c.dest c.colour c.load = some c) (hq : c.queue = t :: rest) (hstuck : c.stuck = false) (hkind : t.kind = .data)
    (hsubst : (s.out (c.dest.die * 16 + c.dest.pos)).subst = none) (hlt : t.payload.toNat < 2 ^ 31)
    (hma : t.payload.toNat / 2 ^ 14 % 2 = 0) (hpos : t.payload.toNat / 2 ^ 15 % 8192 < 6400)
    (hd : s.dieOf (t.payload.toNat / 2 ^ 8 % 64) = some d) :
    ∃ u, exec (.repairRequest colour) s = .next u ∧ u.repairs = s.repairs ++ [{
      dest := d * 6400 + t.payload.toNat / 2 ^ 15 % 8192, isMa := false, slot := t.payload.toNat / 2 ^ 28 % 8, tag := t.tag,
      kind := 0, subst := 0, colour := colour }] ∧ (u.chanAt c.dest c.colour c.load).map Chan.queue = some c.pop.queue := by
  obtain ⟨l, htake⟩ := s.takeOut_eq c t
  have hrepair := State.repairOf_resume (s := s.takeOut c t) colour 0 hlt hma hpos (by rw [htake]; exact hd)
  have hout : ((s.takeOut c t).out (c.dest.die * 16 + c.dest.pos)).subst = none := by rw [htake]; exact hsubst
  have hhead : c.head = some t := by simp [Chan.head, hstuck, hq]
  have hresume : t.payload.toNat / 2 ^ 32 % 8 ≠ 2 := by omega
  refine ⟨(s.takeOut c t).sendRepair colour t 0, ?_, ?_, ?_⟩
  · change execRepairRequest colour s = _
    rw [execRepairRequest, hfind]
    dsimp only
    rw [hhead]
    dsimp only
    rw [hout, if_neg (by simp [hkind])]
    dsimp only
    rw [if_neg hresume]
  · rw [State.sendRepair, hrepair, htake]
    rfl
  · have hchan : ((s.takeOut c t).sendRepair colour t 0).chanAt c.dest c.colour c.load =
        (s.mapChan c.dest c.colour c.load fun c => countMarks t c.pop).chanAt c.dest c.colour c.load := by
      rw [htake]
      rfl
    rw [hchan, State.chanAt_mapChan_same (f := fun c => countMarks t c.pop) hc rfl rfl rfl, countMarks_data _ hkind]
    rfl

/-! ## Repair tokens -/

/-- An element with its entry at p READY again, with retry set, behind those that are ready (15 R405). -/
def resumed (e : Element) (p : Nat) (en : Entry) : Element :=
  { setEntry e p { en with st := .ready, retry := true } with ready := e.ready ++ [p] }

theorem readmit_unordered {e : Element} {p : Nat} {en : Entry} (h : slotOrdered e en.slot = false) :
    readmit e p (retryEntry en) = resumed e p en := by
  simp [readmit, retryEntry, resumed, h]

theorem resumed_entry (e : Element) (p : Nat) (en : Entry) :
    tabGet (resumed e p en).store p = some { en with st := .ready, retry := true } :=
  tabGet_tabSet_same ..

theorem State.repairElement_resumes {s : State} {k slot p : Nat} {tag : Word} {en : Entry} (v : DWord)
    (hcfg : (s.elem k).configured = true) (hcut : (s.elem k).cut ≠ .saved)
    (hfind : findEntry (s.elem k) slot tag = some (p, en)) (hst : en.st = .faulted)
    (hwhole : en.present = requiredMask (s.elem k) en.slot) (hord : slotOrdered (s.elem k) en.slot = false) :
    s.repairElement k slot tag .resume v = (0, s.setElem k (resumed (s.elem k) p en)) := by
  simp [State.repairElement, hcfg, hcut, hfind, hst, State.repairEntry, hwhole, readmit_unordered hord]

theorem State.repair_element {s u : State} {die pos slot : Nat} {tag : Word} {kind : RepairKind} {v : DWord}
    (h : s.repairElement (elemKey die pos) slot tag kind v = (0, u)) :
    s.repair die pos slot tag false kind v = (0, u.closeFault die pos slot tag false) := by
  simp [State.repair, h]

theorem State.applyRepair_element {s : State} {r : RepairTok} {kind : RepairKind} (hma : r.isMa = false)
    (hkind : repairKind r.kind = some kind) (hcolour : (s.elem r.dest).colour = r.colour) :
    s.applyRepair r = s.repair (r.dest / 6400) (r.dest % 6400) r.slot r.tag false kind r.subst := by
  simp [State.applyRepair, hkind, hma, hcolour]

/-- A RESUME for a whole FAULTED entry of a tagged actor makes it READY with retry set. -/
theorem State.applyRepair_resumes {s : State} {r : RepairTok} {p : Nat} {en : Entry} (hma : r.isMa = false) (hkind : r.kind = 0)
    (hcolour : (s.elem r.dest).colour = r.colour) (hcfg : (s.elem r.dest).configured = true)
    (hcut : (s.elem r.dest).cut ≠ .saved) (hfind : findEntry (s.elem r.dest) r.slot r.tag = some (p, en))
    (hst : en.st = .faulted) (hwhole : en.present = requiredMask (s.elem r.dest) en.slot)
    (hord : slotOrdered (s.elem r.dest) en.slot = false) :
    s.applyRepair r = (0, (s.setElem r.dest (resumed (s.elem r.dest) p en)).closeFault
      (r.dest / 6400) (r.dest % 6400) r.slot r.tag false) := by
  have hkey : elemKey (r.dest / 6400) (r.dest % 6400) = r.dest := Nat.div_add_mod' ..
  rw [State.applyRepair_element (kind := .resume) hma (by rw [hkind]; rfl) hcolour]
  refine State.repair_element ?_
  rw [hkey]
  exact State.repairElement_resumes r.subst hcfg hcut hfind hst hwhole hord

/-- The only repair token, of an element between firings, is applied where it is not put off. -/
theorem repairToken_applies {s u : State} {r : RepairTok} {status : Nat} (hr : s.repairs = [r])
    (hidle : (s.elem r.dest).fir.status = .idle)
    (happ : ({ s with repairs := [] } : State).applyRepair r = (status, u)) (hstatus : status ≠ notYet) :
    exec (.repairToken 0) s = .next u := by
  change execRepairToken 0 s = _
  simp [execRepairToken, hr, State.betweenFirings, hidle, dropNth, happ, hstatus]

/-- Settles O42: each event by its equation; a word that is no instruction by the fault of its fetch. -/
theorem faultEvents : Obligations.FaultEvents := by
  refine ⟨?_, ?_, ?_, ?_, ?_⟩
  · rintro s die x hl rfl hbox hch hroom
    refine ⟨_, faultRecordDelivery_enters hl hbox hch hroom, State.box_setBox .., rfl, openFaultOf x, rfl, rfl, rfl, rfl⟩
  · rintro s die x b hl rfl hbox hch hb hsrc hcredit
    obtain ⟨u, hu, hlevee, hpackets⟩ := faultToken_leaves hl hbox hch hb hsrc hcredit
    exact ⟨u, _, hu, hlevee, hpackets, rfl, rfl, rfl, faultHandle_code _, faultHandle_seq _⟩
  · intro s colour c t rest d hfind hc hq hstuck hkind hsubst hlt hma hpos hd
    exact repairRequest_sends hfind hc hq hstuck hkind hsubst hlt hma hpos hd
  · intro s r p en hr hma hkind e hidle hcolour hcfg hcut hfind hst hwhole _ hord
    have happ := State.applyRepair_resumes (s := { s with repairs := [] }) hma hkind hcolour hcfg hcut hfind hst hwhole hord
    refine ⟨_, repairToken_applies hr hidle happ (by decide), rfl, ?_, ?_, ?_⟩
    · exact State.setElem_sameMemory { s with repairs := [] } r.dest _ rfl
    · exact congrArg Element.ready (State.elem_setElem_same { s with repairs := [] } r.dest _)
    · exact (congrArg (fun e => tabGet (Element.store e) p)
        (State.elem_setElem_same { s with repairs := [] } r.dest _)).trans (resumed_entry _ _ _)
  · intro s d p code hf f hrun hcnt hfetch hlt
    exact ⟨_, execNonInstruction_faults hf hrun (State.limitReached_below hcnt) hfetch, s.raise_aborted d p code _ hf hlt⟩

end Sys2Proof.Machine
end
section
/-! The frame of the instructions that write registers, predicates and streams only (06 R155 to R157, R195, R226). -/

namespace Sys2Proof.Machine

open Host (Outcome)
open Sys2Proof.Statements

/-! ## What they leave unchanged -/

/-- The parts of an element that only loads, stores, tags, streams' bindings and the matrix unit touch. -/
def keptParts (e : Element) :=
  (e.mem, e.x, e.xt, e.xc, e.q, e.acc, e.tiles, e.mprog, e.mq, e.wins)

/-- No memory, special register or controller register differs, and of the registers and predicates of the core in focus
none but those in `ws` and `wp`. -/
structure RegsOnly (ws : List (BitVec 5)) (wp : List (BitVec 3)) (s u : State) : Prop where
  parts : ∀ k, keptParts (u.elem k) = keptParts (s.elem k)
  ctrls : ∀ d, { u.ctrl d with core := (s.ctrl d).core } = s.ctrl d
  phys : u.phys = s.phys
  regs : SameRegs s u ws wp

section
variable {ws : List (BitVec 5)} {wp : List (BitVec 3)} {s t u : State}

theorem keptParts_setElem {k : Nat} {e : Element} (h : keptParts e = keptParts (t.elem k)) (j : Nat) :
    keptParts ((t.setElem k e).elem j) = keptParts (t.elem j) := by
  by_cases hj : j = k
  · rw [hj, State.elem_setElem_same, h]
  · rw [t.elem_setElem_other e hj]

theorem State.core_setElem {k : Nat} {e : Element} (h : e.core = (t.elem k).core) : (t.setElem k e).core = t.core := by
  cases hf : t.focus with
  | element d p =>
    rw [State.core_element hf, State.core_element (s := t.setElem k e) hf]
    by_cases hj : elemKey d p = k
    · rw [hj, State.elem_setElem_same, h]
    · rw [t.elem_setElem_other e hj]
  | controller d =>
    rw [State.core_controller hf, State.core_controller (s := t.setElem k e) hf]
    rfl

theorem CoreRegs.pred_setReg (c : CoreRegs) (r : BitVec 5) (v : DWord) (n : BitVec 3) : (c.setReg r v).pred n = c.pred n := by
  unfold CoreRegs.setReg
  split <;> rfl

theorem CoreRegs.reg_setPred (c : CoreRegs) (n : BitVec 3) (v : Bool) (r : BitVec 5) : (c.setPred n v).reg r = c.reg r := by
  unfold CoreRegs.setPred
  split <;> rfl

theorem ctrl_setCtrl_core (d j : Nat) (c : CoreRegs) :
    { (s.setCtrl d { s.ctrl d with core := c }).ctrl j with core := (s.ctrl j).core } = s.ctrl j := by
  by_cases hj : j = d
  · rw [hj, State.ctrl_setCtrl_same]
  · rw [s.ctrl_setCtrl_other _ hj]

namespace RegsOnly

theorem refl (s : State) : RegsOnly ws wp s s := ⟨fun _ => rfl, fun _ => rfl, rfl, sameRegs_of_core rfl rfl⟩

theorem trans (h : RegsOnly ws wp s t) (g : RegsOnly ws wp t u) : RegsOnly ws wp s u := by
  refine ⟨fun k => (g.parts k).trans (h.parts k), fun d => ?_, g.phys.trans h.phys, sameRegs_trans h.regs g.regs⟩
  rw [← h.ctrls d, ← g.ctrls d]

theorem sameMemory (h : RegsOnly ws wp s u) : SameMemory s u := by
  refine ⟨fun k a => ?_, fun d a => ?_, fun a => by rw [h.phys]⟩
  · rw [show (u.elem k).mem = (s.elem k).mem from congrArg Prod.fst (h.parts k)]
  · have hd := congrArg Controller.sram (h.ctrls d)
    exact congrArg (Memory.get · a) hd

theorem sameSpecial (h : RegsOnly ws wp s u) : SameSpecial s u := by
  refine ⟨fun k => ?_, h.ctrls⟩
  have hk := h.parts k
  simp only [keptParts, Prod.mk.injEq] at hk
  exact hk.2

/-- An element is replaced by one with the same core and kept parts. -/
theorem setElem (h : RegsOnly ws wp s t) {k : Nat} {e : Element} (hp : keptParts e = keptParts (t.elem k))
    (hc : e.core = (t.elem k).core) : RegsOnly ws wp s (t.setElem k e) := 
  h.trans ⟨keptParts_setElem hp, fun _ => rfl, rfl, sameRegs_of_core rfl (State.core_setElem hc)⟩

theorem report (h : RegsOnly ws wp s t) (die colour load : Nat) (ho : Holds) (code : Nat) (o : Origin) (pos slot : Nat)
    (w2 w3 : DWord) : RegsOnly ws wp s (t.report die colour load ho code o pos slot w2 w3) :=
  h.trans ⟨fun _ => rfl, fun _ => rfl, rfl, sameRegs_of_core rfl rfl⟩

/-! ### Pops -/

theorem settlePort (h : RegsOnly ws wp s t) (k i fuel : Nat) : RegsOnly ws wp s (t.settlePort k i fuel) := by
  induction fuel generalizing t with
  | zero => exact h
  | succ fuel ih =>
    unfold State.settlePort
    dsimp only
    split
    · exact h
    · split
      case h_5 | h_6 =>
        split
        · exact ih ((h.setElem (by rfl) (by rfl)).report _ _ _ _ _ _ _ _ _ _)
        · exact h
      case h_7 => exact h
      all_goals exact ih (h.setElem (by rfl) (by rfl))

theorem takePort (h : RegsOnly ws wp s t) (k i : Nat) : RegsOnly ws wp s (t.takePort k i) :=
  (h.setElem (by rfl) (by rfl)).settlePort k i 8

theorem popPort (h : RegsOnly ws wp s t) (k : Nat) (q : Fin 3) (i fuel : Nat) :
    RegsOnly ws wp s (t.popPort k q i fuel).state := by
  induction fuel generalizing t with
  | zero => exact h
  | succ fuel ih =>
    unfold State.popPort
    split
    · split <;> exact h
    · split
      · exact h.takePort k i
      · exact ih (h.takePort k i)

theorem popOne (h : RegsOnly ws wp s t) (k : Nat) (q : Fin 3) : RegsOnly ws wp s (t.popOne k q).state := by
  unfold State.popOne
  dsimp only
  split
  · split
    · exact h
    · exact h.setElem (by rfl) (by rfl)
  · exact h.popPort k q _ 8
  · exact h

theorem popAll (h : RegsOnly ws wp s t) (k : Nat) (l : List (Fin 3)) (vals : List Word) :
    RegsOnly ws wp s (t.popAll k l vals).state := by
  induction l generalizing t vals with
  | nil => exact h
  | cons q l ih =>
    have hq := h.popOne k q
    unfold State.popAll
    split <;> rename_i hp <;> rw [hp] at hq
    · exact ih hq _
    · exact hq.setElem (by rfl) (by rfl)
    · exact hq

theorem gate (h : RegsOnly ws wp s t) (k : Nat) (pops : List (Fin 3)) (push : Option (Fin 3)) :
    RegsOnly ws wp s (t.gate k pops push).state := by
  unfold State.gate
  dsimp only
  split
  · exact h
  · exact h
  · have hp := h.popAll k (pops.drop (t.elem k).fir.latch.length) (t.elem k).fir.latch
    split
    · rename_i hg
      rw [hg] at hp
      split
      · split
        · exact hp.setElem (by rfl) (by rfl)
        · exact hp
      · exact hp
    · exact hp

/-- Operands that are ready have been taken with nothing but streams touched. -/
theorem ready {ok : Bool} {pops : List (Fin 3)} {push : Option (Fin 3)} {vals : List Word}
    (h : Ready s ok pops push t vals) : RegsOnly ws wp s t := by
  unfold Ready at h
  split at h
  · obtain ⟨-, rfl, -⟩ := h
    exact .refl t
  · rename_i d p hf
    obtain ⟨-, -, rfl, -⟩ | ⟨-, hg⟩ := h
    · exact .refl t
    · have hr := (refl s : RegsOnly ws wp s s).gate (elemKey d p) pops push
      rwa [hg] at hr

/-! ### Results -/

theorem setCore (h : RegsOnly ws wp s t) {c : CoreRegs} (hr : ∀ r, r ∉ ws → c.reg r = t.core.reg r)
    (hp : ∀ n, n ∉ wp → c.pred n = t.core.pred n) : RegsOnly ws wp s (t.setCore c) := by
  refine h.trans ⟨?_, ?_, ?_, t.setCore_focus c, fun r hw => ?_, fun n hw => ?_⟩
  · unfold State.setCore
    split
    · exact keptParts_setElem rfl
    · exact fun _ => rfl
  · unfold State.setCore
    split
    · exact fun _ => rfl
    · exact fun j => ctrl_setCtrl_core _ j c
  · unfold State.setCore
    split <;> rfl
  · rw [State.reg, State.core_setCore]
    exact hr r hw
  · rw [State.core_setCore]
    exact hp n hw

theorem setReg (h : RegsOnly ws wp s t) {r : BitVec 5} (v : DWord) (hw : r ∈ ws) : RegsOnly ws wp s (t.setReg r v) :=
  h.setCore (fun _ hq => CoreRegs.reg_setReg_other _ v fun e => hq (e ▸ hw)) fun n _ => CoreRegs.pred_setReg _ r v n

theorem setPred (h : RegsOnly ws wp s t) {n : BitVec 3} (v : Bool) (hw : n ∈ wp) : RegsOnly ws wp s (t.setPred n v) :=
  h.setCore (fun r _ => CoreRegs.reg_setPred _ n v r) fun _ hq => CoreRegs.pred_setPred_other _ v fun e => hq (e ▸ hw)

theorem settle (h : RegsOnly ws wp s t) : RegsOnly ws wp s t.settle := by
  unfold State.settle
  split
  · exact h.setElem (by rfl) (by rfl)
  · exact h

theorem advance (h : RegsOnly ws wp s t) (n : Nat := 4) : RegsOnly ws wp s (t.advance n) :=
  (h.setCore (fun r _ => by rw [CoreRegs.reg, CoreRegs.advance_s, CoreRegs.reg])
    fun r _ => by rw [CoreRegs.pred, CoreRegs.advance_p, CoreRegs.pred]).settle

theorem push (h : RegsOnly ws wp s t) (q : Fin 3) (v : Word) : RegsOnly ws wp s (t.push q v) := by
  unfold State.push
  split
  · refine h.setElem ?_ ?_
    all_goals
      unfold pushElem
      dsimp only
      split <;> rfl
  · exact h

theorem useDraws (h : RegsOnly ws wp s t) (rm : Rm) (n : Nat) : RegsOnly ws wp s (t.useDraws rm n) := by
  unfold State.useDraws
  split
  · exact h.setElem (by rfl) (by rfl)
  · exact h

theorem idst {d : SQ} (h : RegsOnly (sqRegs d) wp s t) (v : DWord) : RegsOnly (sqRegs d) wp s (t.idst d v) := by
  cases d with
  | s r => exact h.setReg v (List.mem_singleton_self r)
  | q n => exact h.push n _

theorem fdst {d : SQ} (h : RegsOnly (sqRegs d) wp s t) (v : Word) : RegsOnly (sqRegs d) wp s (t.fdst d v) := by
  cases d with
  | s r => exact h.setReg _ (List.mem_singleton_self r)
  | q n => exact h.push n v

end RegsOnly
end

/-! ## Shapes of meanings -/

/-- The meaning pops and pushes as the shape says, and its effect touches the shape's destinations only. -/
def HasShape (sh : Shape) (m : State → Out) : Prop :=
  ∃ eff, (∀ s, m s = withOperands s sh.ctl sh.pops sh.push eff) ∧ ∀ t vals, RegsOnly sh.regs sh.preds t (eff t vals)

theorem intOp2_hasShape (d : SQ) (a b : Src) (f : DWord → DWord → DWord) :
    HasShape ⟨d.controllerOk && a.controllerOk && b.controllerOk, srcPops a ++ srcPops b, sqPush d, sqRegs d, []⟩
      (intOp2 · d a b f) :=
  ⟨_, fun _ => rfl, fun t _ => ((RegsOnly.refl t).idst _).advance⟩

theorem intOp1_hasShape (d : SQ) (a : Src) (f : DWord → DWord) :
    HasShape ⟨d.controllerOk && a.controllerOk, srcPops a, sqPush d, sqRegs d, []⟩ (intOp1 · d a f) :=
  ⟨_, fun _ => rfl, fun t _ => ((RegsOnly.refl t).idst _).advance⟩

/-- A value written to a scalar register from the registers, with the next instruction n bytes on. -/
theorem setReg_hasShape (d : BitVec 5) (v : State → DWord) (n : Nat := 4) :
    HasShape ⟨true, [], none, [d], []⟩ fun s => .next ((s.setReg d (v s)).advance n) :=
  ⟨fun t _ => (t.setReg d (v t)).advance n, fun s => (withOperands_scalar s fun t _ => (t.setReg d (v t)).advance n).symm,
    fun t _ => ((RegsOnly.refl t).setReg _ (List.mem_singleton_self d)).advance n⟩

theorem predOp_hasShape (pd : BitVec 3) (v : State → Bool) :
    HasShape ⟨true, [], none, [], [pd]⟩ fun s => predOp s pd (v s) :=
  ⟨fun t _ => (t.setPred pd (v t)).advance, fun s => (withOperands_scalar s fun t _ => (t.setPred pd (v t)).advance).symm,
    fun t _ => ((RegsOnly.refl t).setPred _ (List.mem_singleton_self pd)).advance⟩

theorem srcOp2_hasShape {ws : List (BitVec 5)} {wp : List (BitVec 3)} (a b : Src) {eff : State → DWord → DWord → State}
    (h : ∀ t x y, RegsOnly ws wp t (eff t x y)) :
    HasShape ⟨a.controllerOk && b.controllerOk, srcPops a ++ srcPops b, none, ws, wp⟩ (srcOp2 · a b eff) :=
  ⟨_, fun _ => rfl, fun t _ => (h t _ _).advance⟩

theorem floatOp2_hasShape (d a b : SQ) (f : Word → Word → Word) :
    HasShape ⟨false, sqPops a ++ sqPops b, sqPush d, sqRegs d, []⟩ (floatOp2 · d a b f) :=
  ⟨_, fun _ => rfl, fun t _ => ((RegsOnly.refl t).fdst _).advance⟩

theorem floatOp1_hasShape (d a : SQ) (f : Word → Word) :
    HasShape ⟨false, sqPops a, sqPush d, sqRegs d, []⟩ (floatOp1 · d a f) :=
  ⟨_, fun _ => rfl, fun t _ => ((RegsOnly.refl t).fdst _).advance⟩

theorem fusedOp_hasShape (fmt : Fmt) (np na : Bool) (d : BitVec 5) (a b : SQ) :
    HasShape ⟨false, sqPops a ++ sqPops b, none, [d], []⟩ (fusedOp · fmt np na d a b) :=
  ⟨_, fun _ => rfl, fun t _ => ((RegsOnly.refl t).setReg _ (List.mem_singleton_self d)).advance⟩

theorem convertOp_hasShape (rm : Rm) (n : Nat) (d a : SQ) (f : (Nat → Word) → Word → Word) :
    HasShape ⟨false, sqPops a, sqPush d, sqRegs d, []⟩ (convertOp · rm n d a f) :=
  ⟨_, fun _ => rfl, fun t _ => (((RegsOnly.refl t).useDraws rm n).fdst _).advance⟩

theorem convertIntOp_hasShape (rm : Rm) (n : Nat) (d a : SQ) (f : (Nat → Word) → Word → DWord) :
    HasShape ⟨false, sqPops a, sqPush d, sqRegs d, []⟩ (convertIntOp · rm n d a f) :=
  ⟨_, fun _ => rfl, fun t _ => (((RegsOnly.refl t).useDraws rm n).idst _).advance⟩

theorem icvtf64_hasShape (dst : Fmt) (rm : Rm) (sgn : Bool) (d : SQ) (a : BitVec 5) :
    HasShape ⟨false, [], sqPush d, sqRegs d, []⟩ (execIcvtf64 dst rm sgn d a) :=
  ⟨_, fun _ => rfl, fun t _ => (((RegsOnly.refl t).useDraws rm 1).fdst _).advance⟩

theorem fclass_hasShape (fmt : Fmt) (d : BitVec 5) (a : SQ) :
    HasShape ⟨false, sqPops a, none, [d], []⟩ (execFclass fmt d a) :=
  ⟨_, fun _ => rfl, fun t _ => ((RegsOnly.refl t).setReg _ (List.mem_singleton_self d)).advance⟩

theorem fcmp_hasShape (cc : FloatCc) (pd : BitVec 3) (a b : SQ) :
    HasShape ⟨false, sqPops a ++ sqPops b, none, [], [pd]⟩ (execFcmp cc pd a b) :=
  ⟨_, fun _ => rfl, fun t _ => ((RegsOnly.refl t).setPred _ (List.mem_singleton_self pd)).advance⟩

theorem HasShape.of_eq {sh : Shape} {m m' : State → Out} (h : HasShape sh m) (e : ∀ s, m' s = m s) : HasShape sh m' := by
  rwa [funext e]

/-! ## The meanings of the tables -/

section
variable {i : Instr}

theorem intTwo_exec {d : SQ} {a b : Src} {f : DWord → DWord → DWord} (h : intTwo i = some (d, a, b, f)) :
    ∃ g, ∀ s, exec i s = intOp2 s d a b g := by
  unfold intTwo at h
  split at h
  case h_28 => cases h
  all_goals
    cases h
    exact ⟨_, fun s => by dsimp only [exec]; rfl⟩

theorem intOne_exec {d : SQ} {a : Src} {f : DWord → DWord} (h : intOne i = some (d, a, f)) :
    ∃ g, ∀ s, exec i s = intOp1 s d a g := by
  unfold intOne at h
  split at h
  case h_6 => cases h
  all_goals
    cases h
    exact ⟨_, fun s => by dsimp only [exec]; rfl⟩

theorem immediate_exec {d : BitVec 5} {f : (BitVec 5 → DWord) → DWord} (h : immediate i = some (d, f)) :
    ∃ v : State → DWord, ∀ s, exec i s = .next (s.setReg d (v s)).advance := by
  unfold immediate at h
  split at h
  case h_9 => cases h
  all_goals
    cases h
    exact ⟨_, fun s => by dsimp only [exec]; rfl⟩

theorem predicateOp_exec {pd : BitVec 3} {f : (BitVec 3 → Bool) → Bool} (h : predicateOp i = some (pd, f)) :
    ∃ v : State → Bool, ∀ s, exec i s = predOp s pd (v s) := by
  unfold predicateOp at h
  split at h
  case h_6 => cases h
  all_goals
    cases h
    exact ⟨_, fun s => by dsimp only [exec]; rfl⟩

theorem floatTwo_exec {fmt : Fmt} {d a b : SQ} {f : FFormat → Nat → Nat → Nat} (h : floatTwo i = some (fmt, d, a, b, f)) :
    ∃ g, ∀ s, exec i s = floatOp2 s d a b g := by
  unfold floatTwo at h
  split at h
  case h_8 => cases h
  all_goals
    cases h
    exact ⟨_, fun s => by dsimp only [exec]; rfl⟩

theorem floatOne_exec {fmt : Fmt} {d a : SQ} {f : FFormat → Nat → Nat} (h : floatOne i = some (fmt, d, a, f)) :
    ∃ g, ∀ s, exec i s = floatOp1 s d a g := by
  unfold floatOne at h
  split at h
  case h_8 => cases h
  all_goals
    cases h
    exact ⟨_, fun s => by dsimp only [exec]; rfl⟩

theorem fused_exec {fmt : Fmt} {d : BitVec 5} {a b : SQ} {f : FVal → FVal → FVal} (h : fused i = some (fmt, d, a, b, f)) :
    ∃ signs : Bool × Bool, ∀ s, exec i s = fusedOp s fmt signs.1 signs.2 d a b := by
  unfold fused at h
  split at h
  case h_4 => cases h
  all_goals
    cases h
    exact ⟨(_, _), fun s => by dsimp only [exec]; rfl⟩

theorem floatWord_exec {d a : SQ} {f : Word → Word} (h : floatWord i = some (d, a, f)) :
    ∃ g, ∀ s, exec i s = floatOp1 s d a g := by
  unfold floatWord at h
  split at h
  case h_3 => cases h
  all_goals
    cases h
    exact ⟨_, fun s => by dsimp only [exec]; rfl⟩

/-- A conversion writes its word, or the integer of its word. -/
theorem conversion_hasShape {rm : Rm} {n : Nat} {d a : SQ} {f : (Nat → Word) → Word → DWord}
    (h : conversion i = some (rm, n, d, a, f)) : HasShape ⟨false, sqPops a, sqPush d, sqRegs d, []⟩ (exec i) := by
  unfold conversion at h
  split at h
  case h_9 => cases h
  case h_4 | h_5 | h_6 =>
    cases h
    exact (convertIntOp_hasShape _ _ _ _ _).of_eq fun s => by dsimp only [exec]; rfl
  all_goals
    cases h
    exact (convertOp_hasShape _ _ _ _ _).of_eq fun s => by dsimp only [exec]; rfl

end

/-- Every instruction of a shape acts so. -/
theorem exec_hasShape {i : Instr} {sh : Shape} (h : shapeOf i = some sh) : HasShape sh (exec i) := by
  unfold shapeOf at h
  split at h
  case h_1 =>
    obtain ⟨g, hg⟩ := intTwo_exec ‹intTwo i = _›
    cases h
    exact (intOp2_hasShape _ _ _ g).of_eq hg
  case h_2 =>
    obtain ⟨g, hg⟩ := intOne_exec ‹intOne i = _›
    cases h
    exact (intOp1_hasShape _ _ g).of_eq hg
  case h_3 =>
    obtain ⟨v, hv⟩ := immediate_exec ‹immediate i = _›
    cases h
    exact (setReg_hasShape _ v).of_eq hv
  case h_4 =>
    obtain ⟨v, hv⟩ := predicateOp_exec ‹predicateOp i = _›
    cases h
    exact (predOp_hasShape _ v).of_eq hv
  case h_5 =>
    obtain ⟨g, hg⟩ := floatTwo_exec ‹floatTwo i = _›
    cases h
    exact (floatOp2_hasShape _ _ _ g).of_eq hg
  case h_6 =>
    obtain ⟨g, hg⟩ := floatOne_exec ‹floatOne i = _›
    cases h
    exact (floatOp1_hasShape _ _ g).of_eq hg
  case h_7 =>
    obtain ⟨signs, hs⟩ := fused_exec ‹fused i = _›
    cases h
    exact (fusedOp_hasShape _ _ _ _ _ _).of_eq hs
  case h_8 =>
    obtain ⟨g, hg⟩ := floatWord_exec ‹floatWord i = _›
    cases h
    exact (floatOp1_hasShape _ _ g).of_eq hg
  case h_9 =>
    cases h
    exact conversion_hasShape ‹conversion i = _›
  case h_10 =>
    split at h
    case h_1 | h_5 =>
      cases h
      exact srcOp2_hasShape _ _ fun t _ _ => (RegsOnly.refl t).setReg _ (List.mem_singleton_self _)
    case h_2 =>
      cases h
      exact setReg_hasShape _ _ 8
    case h_3 =>
      cases h
      exact srcOp2_hasShape _ _ fun t _ _ => (RegsOnly.refl t).setPred _ (List.mem_singleton_self _)
    case h_4 =>
      cases h
      exact predOp_hasShape _ _
    case h_6 =>
      cases h
      exact fclass_hasShape _ _ _
    case h_7 =>
      cases h
      exact floatOp2_hasShape _ _ _ _
    case h_8 =>
      cases h
      exact icvtf64_hasShape _ _ _ _ _
    case h_9 =>
      cases h
      exact fcmp_hasShape _ _ _ _
    case h_10 => cases h

/-- Settles O5: operands that are ready are taken with nothing but streams touched, and the effect of an instruction of a
shape touches its destinations only. -/
theorem registerFrame : Obligations.RegisterFrame := by
  intro i sh hsh s t vals hready
  obtain ⟨eff, hexec, heff⟩ := exec_hasShape hsh
  have hframe : RegsOnly sh.regs sh.preds s (eff t vals) := (RegsOnly.ready hready).trans (heff t vals)
  exact ⟨_, (hexec s).trans (withOperands_ready hready eff), hframe.sameMemory, hframe.sameSpecial, hframe.regs⟩

end Sys2Proof.Machine
end

section
/-! Stream operands: one pop and one push (08 R244, R245, R251 to R253). -/

namespace Sys2Proof.Machine

open Host (Outcome)
open Sys2Proof.Statements

section
variable {s t : State} {k : Nat} {q : Fin 3} {v : Word}

/-- A single operand that passes its check and pops is ready. -/
theorem ready_of_pop (hk : OnElem s k) (hlatch : (s.elem k).fir.latch = []) (hcheck : s.popFault k q 1 = none)
    (hpop : s.popOne k q = .got t v) : Ready s false [q] none t [v] := by
  obtain ⟨d, p, hf, rfl⟩ := hk
  simp [Ready, hf, State.gate, hlatch, State.popsFault, hcheck, State.popAll, hpop]

theorem popFault_read {g : Fin 3} (hq : (s.elem k).q[q] = .gen g) (hst : ((s.elem k).gens[g]).st = .read)
    (hleft : ((s.elem k).gens[g]).popped < runLength (s.elem k).gens[g]) : s.popFault k q 1 = none := by
  have hmore : ¬runLength (s.elem k).gens[g] - ((s.elem k).gens[g]).popped < 1 := by omega
  simp only [State.popFault, hq, hst, if_neg hmore]

theorem popOne_held {g : Fin 3} {rest : List Word} (hq : (s.elem k).q[q] = .gen g) (hheld : ((s.elem k).gens[g]).held = v :: rest) :
    s.popOne k q = .got (s.setElem k (setGen (s.elem k) g (popGen (s.elem k).gens[g]))) v := by
  simp only [State.popOne, hq, hheld]

/-- A pop that is not the last leaves the run going. -/
theorem popGen_before_last {x : Gen} {rest : List Word} (hheld : x.held = v :: rest) (hmore : x.popped + 1 < runLength x) :
    popGen x = { x with popped := x.popped + 1, held := rest } := by
  rw [popGen, hheld]
  exact if_neg (Nat.not_le.2 hmore)

theorem popFault_inPort {i : BitVec 3} (hq : (s.elem k).q[q] = .inPort i) (hend : s.portEnded k i.toNat = false) :
    s.popFault k q 1 = none := by
  simp [State.popFault, hq, hend]

theorem popOne_data {i : BitVec 3} {h : Token} {rest : List Token} (hq : (s.elem k).q[q] = .inPort i)
    (hport : portQueue (s.elem k) i.toNat = h :: rest) (hkind : h.kind = .data) :
    s.popOne k q = .got (s.takePort k i.toNat) (h.payload.truncate 32) := by
  simp [State.popOne, hq, State.popPort, hport, hkind]

/-- The queue of a port that a number of three bits names. -/
theorem portQueue_bitVec (e : Element) (i : BitVec 3) : portQueue e i.toNat = e.ports[i.toNat]'i.isLt := by
  have hi : i.toNat < 8 := i.isLt
  simp [portQueue, nth, hi]

theorem push_onElem (hk : OnElem s k) : (s.push q v).elem k = pushElem (s.elem k) q v := by
  obtain ⟨d, p, hf, rfl⟩ := hk
  simp only [State.push, hf, State.elem_setElem_same]

/-- A push to a write run joins its waiting pushes. -/
theorem pushElem_gen {e : Element} {g : Fin 3} (hq : e.q[q] = .gen g) : pushElem e q v = setGen (unclean e) g
    { e.gens[g] with pushed := e.gens[g].pushed + 1, waiting := e.gens[g].waiting ++ [v] } := by
  simp only [pushElem, hq, unclean]

theorem pushElem_outPort_sends {e : Element} {o : BitVec 4} (hq : e.q[q] = .outPort o) : (pushElem e q v).fir.sends =
    e.fir.sends ++ [{ port := o.toNat, tok := dataToken e (v.zeroExtend 64) e.fir.tag false }] := by
  simp only [pushElem, hq]
  rfl

end

/-- Settles O17: a pop by its check and what it takes, a push by what it appends. -/
theorem streamOperand : Obligations.StreamOperand := by
  intro s k hk q
  refine ⟨fun g v rest hlatch hq hst hheld hmore => ?_, fun i h hlatch hq hport hkind hend => ?_, fun g v hq => ?_, fun o v hq => ?_⟩
  · refine ⟨_, ready_of_pop hk hlatch (popFault_read hq hst (by omega)) (popOne_held hq hheld), ?_⟩
    rw [State.elem_setElem_same, popGen_before_last hheld hmore]
  · rw [← portQueue_bitVec] at hport
    refine ⟨_, ready_of_pop hk hlatch (popFault_inPort hq hend) (popOne_data hq hport hkind), ?_⟩
    rw [State.takePort_last hport i.isLt, State.elem_setElem_same, ← portQueue_bitVec, portQueue_setPortQueue _ _ i.isLt]
  · rw [push_onElem hk, pushElem_gen hq, setGen_gens_same]
  · rw [push_onElem hk, pushElem_outPort_sends hq]
    rfl

end Sys2Proof.Machine
end

section
/-! Bindings of stream registers, parameters of generators, and their runs (08 R241 to R243, R248 to R250). -/

namespace Sys2Proof.Machine

open Host (Outcome)
open Sys2Proof.Statements

/-! ## An element replaced, and on -/

section
variable {s : State} {k : Nat} {e : Element}

/-- An instruction that changes neither core nor memory of its element leaves every register and memory. -/
theorem setElem_advance_frame (hk : OnElem s k) (hcore : e.core = (s.elem k).core) (hmem : e.mem = (s.elem k).mem) :
    SameRegs s (s.setElem k e).advance [] [] ∧ SameMemory s (s.setElem k e).advance :=
  ⟨sameRegs_trans (State.setElem_sameRegs hk e hcore) (State.advance_sameRegs _ 4),
    sameMemory_trans (s.setElem_sameMemory k e hmem) (State.advance_sameMemory (onElem_setElem hk k e))⟩

theorem setElem_advance_elem (hk : OnElem s k) : ((s.setElem k e).advance).elem k = wentOn e 4 := by
  rw [State.advance_onElem (onElem_setElem hk k e), State.elem_setElem_same, State.elem_setElem_same]

theorem checked_passes {f : Fails} (hf : f = none) (eff : State → State) : checked s f eff = .next (eff s).advance := by
  rw [hf]
  rfl

/-! ## Bindings (08 R241) -/

theorem vector_any_eq_false {α : Type} {n : Nat} {v : Vector α n} {p : α → Bool} (h : ∀ i : Fin n, p v[i] = false) :
    v.toList.any p = false := by
  refine List.any_eq_false.2 fun x hx => ?_
  obtain ⟨i, hi, rfl⟩ := Vector.mem_iff_getElem.1 (Vector.mem_toList_iff.1 hx)
  exact Bool.eq_false_iff.1 (h ⟨i, hi⟩)

theorem boundElsewhere_eq_false {q : Fin 3} {b : QBind} (h : ∀ r, r ≠ q → e.q[r] ≠ b) : boundElsewhere e q b = false := by
  simpa [boundElsewhere] using h

theorem drainReads_eq_false {i : Nat} (h : ∀ g : Fin 3, e.gens[g].st = .drain → e.gens[g].drain.toNat / 256 ≠ i) :
    drainReads e i = false := by
  refine vector_any_eq_false fun g => ?_
  rw [Bool.and_eq_false_imp]
  exact fun hst => decide_eq_false (h g (of_decide_eq_true hst))

theorem streamPort_of {i : Nat} (hmode : portMode e i = .stream) (hslot : portSlot e i = e.fir.slot) : streamPort e i = true := by
  simp [streamPort, hmode, hslot]

theorem exec_sbindGenerator (hk : OnElem s k) {q g : Fin 3} (hfree : ∀ r, r ≠ q → (s.elem k).q[r] ≠ .gen g)
    (hst : (s.elem k).gens[g].st ≠ .drain) : exec (.sbindGenerator q g) s = .next (s.rebind k q (.gen g)).advance := by
  have hpass : sbindGenFault (s.elem k) q g = none := by
    rw [sbindGenFault, boundElsewhere_eq_false hfree]
    simp only [hst, decide_false, Bool.or_self, Bool.false_eq_true, if_false]
  change execSbindGenerator q g s = _
  rw [execSbindGenerator, onElement_onElem hk, checked_passes hpass]

theorem exec_sbindInputPort (hk : OnElem s k) {q : Fin 3} {i : BitVec 3} (hport : streamPort (s.elem k) i.toNat = true)
    (hfree : ∀ r, r ≠ q → (s.elem k).q[r] ≠ .inPort i) (hdrains : drainReads (s.elem k) i.toNat = false) :
    exec (.sbindInputPort q i) s = .next (s.rebind k q (.inPort i)).advance := by
  have hpass : sbindInFault (s.elem k) q i = none := by
    rw [sbindInFault, hport, boundElsewhere_eq_false hfree, hdrains]
    rfl
  change execSbindInputPort q i s = _
  rw [execSbindInputPort, onElement_onElem hk, checked_passes hpass]

theorem exec_sbindOutputPort (hk : OnElem s k) {q : Fin 3} {o : BitVec 4} (hchan : s.outChannel k o.toNat ≠ none)
    (hfree : ∀ r, r ≠ q → (s.elem k).q[r] ≠ .outPort o) :
    exec (.sbindOutputPort q o) s = .next (s.rebind k q (.outPort o)).advance := by
  have hpass : s.sbindOutFault k q o = none := by
    rw [State.sbindOutFault, boundElsewhere_eq_false hfree, Option.isNone_eq_false_iff.2 (Option.isSome_iff_ne_none.2 hchan)]
    rfl
  change execSbindOutputPort q o s = _
  rw [execSbindOutputPort, onElement_onElem hk, checked_passes hpass]

theorem exec_sbindUnbind (hk : OnElem s k) (q : Fin 3) : exec (.sbindUnbind q) s = .next (s.rebind k q .unbound).advance := by
  change execSbindUnbind q s = _
  rw [execSbindUnbind, onElement_onElem hk]

/-! ## Parameters (08 R242, Table 8-6) -/

theorem paramInRange_of {n : Fin 10} {v : DWord} (hbase : n.val = 0 → v.toNat ≤ 0xBFFF)
    (hcnt : 1 ≤ n.val → n.val ≤ 4 → 1 ≤ v.toNat ∧ v.toNat ≤ 4096)
    (hstr : 5 ≤ n.val → n.val ≤ 8 → -49152 ≤ v.toInt ∧ v.toInt ≤ 49152) (hdrain : n.val = 9 → v.toNat < 2048) :
    paramInRange n v = true := by
  unfold paramInRange
  split
  · exact decide_eq_true (hbase ‹_›)
  · split
    · simpa using hcnt (by omega) ‹_›
    · split
      · simpa using hstr (by omega) ‹_›
      · exact decide_eq_true (hdrain (by omega))

section
variable (x : Gen) (v : DWord)

theorem setParam_cnt (j : Fin 4) : (setParam x (j.val + 1) v).cnt[j] = v.toNat := by
  have hj : j.val + 1 ≤ 4 := by omega
  simp [setParam, hj]

theorem setParam_str (j : Fin 4) : (setParam x (j.val + 5) v).str[j] = v.toInt := by
  have hj : j.val + 5 ≤ 8 := by omega
  simp [setParam, hj]

end

theorem setGen_gens_other {g h : Fin 3} (x : Gen) (hne : h ≠ g) : (setGen e g x).gens[h] = e.gens[h] := by
  have hval : g.val ≠ h.val := fun heq => hne (Fin.ext heq.symm)
  simp [setGen, hval]

theorem exec_scfg (hk : OnElem s k) {g : Fin 3} {n : Fin 10} {a : BitVec 5} (hst : (s.elem k).gens[g].st = .idle)
    (hrange : paramInRange n (s.reg a) = true) : exec (.scfg g n a) s =
      .next (s.setElem k (setGen (s.elem k) g (setParam (s.elem k).gens[g] n (s.reg a)))).advance := by
  have hpass : scfgFault (s.elem k) g n (s.reg a) = none := by
    simp only [scfgFault, hst, hrange, ne_eq, not_true_eq_false, if_false, Bool.not_true, Bool.false_eq_true]
  change execScfg g n a s = _
  rw [execScfg, onElement_onElem hk, checked_passes hpass]

/-! ## What is left of a run (08 R250) -/

theorem exec_scount (hk : OnElem s k) (d : BitVec 5) (g : Fin 3) :
    exec (.scount d g) s = .next (s.setReg d (scountValue (s.elem k).gens[g])).advance := by
  change execScount d g s = _
  rw [execScount, onElement_onElem hk]

theorem scountValue_idle {x : Gen} (hst : x.st = .idle) : scountValue x = 0 := by
  simp [scountValue, hst]

theorem scountValue_read {x : Gen} (hst : x.st = .read) (hlen : runLength x ≤ 2 ^ 48) :
    scountValue x = BitVec.ofNat 64 (2 ^ 61 + (runLength x - x.popped)) := by
  have hfits : (runLength x - x.popped) % 2 ^ 49 = runLength x - x.popped := Nat.mod_eq_of_lt (by omega)
  simp only [scountValue, hst, hfits, one_mul]

/-! ## Runs begun (08 R243) -/

theorem runAddrFault_none {m : GenMode} {ea : Int} (halign : ea % 4 = 0) (hlow : 0 ≤ ea) (hhigh : ea + 4 ≤ 0xC000)
    (hwrite : m = .write → 0x400 ≤ ea ∧ ∀ b, b < 4 → inBitmap e (ea.toNat + b) = false) : runAddrFault e m ea = none := by
  have hprot : (m = .write && (ea < constEnd || (List.range 4).any fun i => inBitmap e (ea.toNat + i))) = false := by
    rw [Bool.and_eq_false_imp]
    intro hm
    obtain ⟨hconst, hmap⟩ := hwrite (of_decide_eq_true hm)
    rw [Bool.or_eq_false_iff]
    exact ⟨decide_eq_false (Int.not_lt.2 hconst), List.any_eq_false.2 fun b hb => by simpa using hmap b (List.mem_range.1 hb)⟩
  have hrange : (ea < 0 || ea + 4 > emEnd) = false := by simpa [emEnd] using And.intro hlow hhigh
  simp only [runAddrFault, halign, ne_eq, not_true_eq_false, if_false, hrange, hprot, Bool.false_eq_true]

theorem firstBad_none {m : GenMode} {x : Gen} (n : Nat) :
    ∀ j, (∀ i, i < n → runAddrFault e m (runAddr x (j + i)) = none) → firstBad e m x n j = none := by
  induction n with
  | zero => exact fun _ _ => rfl
  | succ n ih =>
    intro j h
    have hfirst : runAddrFault e m (runAddr x j) = none := h 0 (Nat.succ_pos n)
    rw [firstBad, hfirst]
    refine ih (j + 1) fun i hi => ?_
    rw [Nat.add_assoc, Nat.add_comm 1 i]
    exact h (i + 1) (Nat.succ_lt_succ hi)

theorem sstartFault_run {g : Fin 3} {m : GenMode} {off : DWord} (hm : m ≠ .drain) (hst : e.gens[g].st = .idle) :
    sstartFault e g m off = firstBad e m (startRun e.gens[g] .idle off) (runLength e.gens[g]) 0 := by
  cases m with
  | drain => exact absurd rfl hm
  | read | write => simp only [sstartFault, hst, ne_eq, not_true_eq_false, if_false]

theorem sstartFault_drain {g : Fin 3} {off : DWord} (hst : e.gens[g].st = .idle)
    (hport : streamPort e (drainPort e.gens[g]) = true)
    (hbound : ∀ q : Fin 3, e.q[q] ≠ .gen g ∧ e.q[q] ≠ .inPort (BitVec.ofNat 3 (drainPort e.gens[g])))
    (hdrains : drainReads e (drainPort e.gens[g]) = false) : sstartFault e g .drain off = none := by
  have hfree : (e.q.toList.any fun b => b = .gen g || b = .inPort (BitVec.ofNat 3 (drainPort e.gens[g]))) = false := by
    refine vector_any_eq_false fun q => ?_
    obtain ⟨hgen, hport⟩ := hbound q
    rw [Bool.or_eq_false_iff]
    exact ⟨decide_eq_false hgen, decide_eq_false hport⟩
  simp only [sstartFault, hst, hport, hfree, hdrains, ne_eq, not_true_eq_false, if_false, Bool.not_true, Bool.or_self,
    Bool.false_eq_true]

theorem exec_sstart_run (hk : OnElem s k) {g : Fin 3} {m : GenMode} {a : BitVec 5} (hm : m ≠ .drain)
    (hf : sstartFault (s.elem k) g m (s.reg a) = none) : exec (.sstart g m a) s = .next (s.setElem k (unclean (setGen (s.elem k) g
      (startRun (s.elem k).gens[g] (if m = .read then .read else .write) (s.reg a))))).advance := by
  change execSstart g m a s = _
  rw [execSstart, onElement_onElem hk, checked_passes hf]
  cases m with
  | drain => exact absurd rfl hm
  | read | write => rfl

theorem exec_sstart_drain (hk : OnElem s k) {g : Fin 3} {a : BitVec 5}
    (hf : sstartFault (s.elem k) g .drain (s.reg a) = none) : exec (.sstart g .drain a) s =
      .next (s.setElem k (unclean (setGen (s.elem k) g (startDrain (s.elem k).gens[g])))).advance := by
  change execSstart g .drain a s = _
  rw [execSstart, onElement_onElem hk, checked_passes hf]
  rfl

/-! ## Runs stopped and awaited (08 R248, R249) -/

theorem exec_sstop_idle (hk : OnElem s k) {g : Fin 3} (hst : (s.elem k).gens[g].st = .idle) :
    exec (.sstop g) s = .next s.advance := by
  change execSstop g s = _
  rw [execSstop, onElement_onElem hk]
  simp only [hst]

theorem exec_swait_idle (hk : OnElem s k) {g : Fin 3} (hst : (s.elem k).gens[g].st = .idle) :
    exec (.swait g) s = .next s.advance := by
  change execSwait g s = _
  rw [execSwait, onElement_onElem hk]
  simp only [hst]

theorem exec_sstop_ends (hk : OnElem s k) {g : Fin 3} {x : Gen} (hx : (s.elem k).gens[g] = x)
    (hst : x.st = .read ∨ x.st = .error ∨ (x.st = .drain ∧ x.f = 0) ∨ (x.st = .write ∧ x.waiting = [])) :
    exec (.sstop g) s = .next (s.setElem k (setGen (s.elem k) g (idleGen x))).advance := by
  change execSstop g s = _
  rw [execSstop, onElement_onElem hk]
  simp only [hx]
  obtain hst | hst | ⟨hst, hf⟩ | ⟨hst, hw⟩ := hst
  · simp only [hst]
  · simp only [hst]
  · simp only [hst, hf, if_true]
  · simp only [hst, hw, if_true]

theorem exec_swait_held (hk : OnElem s k) {g : Fin 3} {x : Gen} (hx : (s.elem k).gens[g] = x) (hst : x.st = .read)
    (hfew : runLength x - x.popped ≤ 32) (hheld : runLength x ≤ x.popped + x.held.length) :
    exec (.swait g) s = .next (s.setElem k (setGen (s.elem k) g { x with ahead := true })).advance := by
  change execSwait g s = _
  rw [execSwait, onElement_onElem hk]
  simp only [hx, hst, if_neg (Nat.not_lt.2 hfew), if_pos hheld]

end

/-- Settles O16: each instruction by what its check asks and the element that it leaves. -/
theorem streamBindingAndRuns : Obligations.StreamBindingAndRuns := by
  refine ⟨fun s k hk => ?_, fun s k hk g => ?_⟩
  · refine ⟨fun q g hfree hst => exec_sbindGenerator hk hfree hst,
      fun q i hmode hslot hfree hdrains => exec_sbindInputPort hk (streamPort_of hmode hslot) hfree (drainReads_eq_false hdrains),
      fun q o hchan hfree => exec_sbindOutputPort hk hchan hfree, exec_sbindUnbind hk,
      fun g n a hst hbase hcnt hstr hdrain => ?_, fun d g hst => ?_, exec_scount hk, fun d g hst hlen _ => ?_⟩
    · obtain ⟨hregs, hmemory⟩ := setElem_advance_frame (e := setGen (s.elem k) g (setParam (s.elem k).gens[g] n (s.reg a))) hk rfl rfl
      refine ⟨_, exec_scfg hk hst (paramInRange_of hbase hcnt hstr hdrain), hregs, hmemory, ?_⟩
      simp only [setElem_advance_elem hk, wentOn, setGen_gens_same]
      refine ⟨fun hn => ?_, fun j hn => ?_, fun j hn => ?_, fun hn => ?_, fun h hne => setGen_gens_other _ hne⟩
      · rw [hn]; rfl
      · rw [hn]; exact setParam_cnt _ _ j
      · rw [hn]; exact setParam_str _ _ j
      · rw [hn]; rfl
    · rw [exec_scount hk, scountValue_idle hst]
    · rw [exec_scount hk, scountValue_read hst hlen]
  · refine ⟨fun m a hm hst haddr => ?_, fun a hst hmode hslot hbound hdrains => ?_,
      fun hst => ⟨exec_sstop_idle hk hst, exec_swait_idle hk hst⟩, fun hst => ?_, fun hst hfew hheld => ?_⟩
    · have hpass : sstartFault (s.elem k) g m (s.reg a) = none := by
        rw [sstartFault_run hm hst]
        refine firstBad_none _ 0 fun j hj => ?_
        obtain ⟨halign, hlow, hhigh, hwrite⟩ := haddr j hj
        rw [Nat.zero_add]
        exact runAddrFault_none halign hlow hhigh hwrite
      obtain ⟨hregs, hmemory⟩ := setElem_advance_frame (e := unclean (setGen (s.elem k) g _)) hk rfl rfl
      refine ⟨_, exec_sstart_run hk hm hpass, hregs, hmemory, ?_⟩
      simp only [setElem_advance_elem hk, wentOn, unclean, setGen_gens_same]
      exact ⟨rfl, rfl, rfl, rfl, rfl, rfl, rfl, rfl, trivial⟩
    · obtain ⟨hregs, hmemory⟩ := setElem_advance_frame (e := unclean (setGen (s.elem k) g _)) hk rfl rfl
      refine ⟨_, exec_sstart_drain hk (sstartFault_drain hst (streamPort_of hmode hslot) hbound (drainReads_eq_false hdrains)),
        hregs, hmemory, ?_⟩
      simp only [setElem_advance_elem hk, wentOn, unclean, setGen_gens_same]
      exact ⟨rfl, rfl, rfl, rfl⟩
    · obtain ⟨hregs, hmemory⟩ := setElem_advance_frame (e := setGen (s.elem k) g (idleGen (s.elem k).gens[g])) hk rfl rfl
      refine ⟨_, exec_sstop_ends hk rfl hst, hregs, hmemory, ?_⟩
      simp only [setElem_advance_elem hk, wentOn, setGen_gens_same]
      exact ⟨rfl, rfl, rfl, rfl⟩
    · obtain ⟨hregs, hmemory⟩ := setElem_advance_frame (e := setGen (s.elem k) g { (s.elem k).gens[g] with ahead := true }) hk rfl rfl
      refine ⟨_, exec_swait_held hk rfl hst hfew hheld, hregs, hmemory, ?_⟩
      simp only [setElem_advance_elem hk, wentOn, setGen_gens_same]
      exact ⟨trivial, trivial⟩

end Sys2Proof.Machine
end

section
/-! Square roots: the bits of a root, the exponent of a ratio, and the rounding of the root of a ratio (03 R76, R84; 08 R227). -/

namespace Sys2Proof.Machine

open Sys2Proof.Statements

/-! ## The integer root by bits -/

theorem isqrtFrom_bounds (n i : Nat) : ∀ root, root * root ≤ n → n < (root + 2 ^ i) * (root + 2 ^ i) →
    isqrtFrom n root i * isqrtFrom n root i ≤ n ∧ n < (isqrtFrom n root i + 1) * (isqrtFrom n root i + 1) := by
  induction i with
  | zero => exact fun _ hlow hhigh => ⟨hlow, hhigh⟩
  | succ i ih =>
    intro root hlow hhigh
    have hhalf : 2 ^ (i + 1) = 2 ^ i + 2 ^ i := by rw [Nat.pow_succ, Nat.mul_two]
    rw [isqrtFrom]
    split
    · exact ih _ ‹_› (by rwa [Nat.add_assoc, ← hhalf])
    · exact ih _ hlow (Nat.not_le.1 ‹_›)

theorem isqrt_eq_sqrt (n : Nat) : isqrt n = n.sqrt := by
  have hroot : n < 2 ^ (n.log2 / 2 + 1) * 2 ^ (n.log2 / 2 + 1) := by
    rw [← Nat.pow_add]
    exact Nat.lt_log2_self.trans_le (Nat.pow_le_pow_right (by decide) (by omega))
  have hbounds := isqrtFrom_bounds n (n.log2 / 2 + 1) 0 (Nat.zero_le n) (by rwa [Nat.zero_add])
  exact Nat.eq_sqrt.2 hbounds

/-! ## A ratio scaled by a power of two -/

/-- A numerator and a denominator, one of which takes the power of two 2^sh. -/
def downBy (sh : Int) (n d : Nat) : Nat × Nat :=
  (if sh ≥ 0 then n else n * 2 ^ (-sh).toNat, if sh ≥ 0 then d * 2 ^ sh.toNat else d)

section
variable {n d : Nat}

theorem downBy_pos (sh : Int) (hd : 0 < d) : 0 < (downBy sh n d).2 := by
  unfold downBy
  dsimp only
  split <;> positivity

theorem downBy_ratio (sh : Int) (n d : Nat) : ((downBy sh n d).1 : ℚ) / (downBy sh n d).2 = n / d * (2 : ℚ) ^ (-sh) := by
  unfold downBy
  dsimp only
  split
  · obtain ⟨m, rfl⟩ := Int.eq_ofNat_of_zero_le ‹sh ≥ 0›
    push_cast
    rw [Int.toNat_natCast, zpow_neg, zpow_natCast, div_mul_eq_div_div, div_eq_mul_inv (n / d : ℚ)]
  · obtain ⟨m, hm⟩ := Int.eq_ofNat_of_zero_le (show 0 ≤ -sh by omega)
    rw [hm]
    push_cast
    rw [Int.toNat_natCast, zpow_natCast, mul_div_right_comm]

/-! ## The exponent of a ratio -/

theorem log_eq_of_bounds {v : ℚ} {x : Int} (hlow : (2 : ℚ) ^ x ≤ v) (hhigh : v < (2 : ℚ) ^ (x + 1)) : Int.log 2 v = x := by
  have hv : 0 < v := lt_of_lt_of_le (by positivity) hlow
  have h1 := (Int.zpow_le_iff_le_log (b := 2) (by decide) hv).1 (by exact_mod_cast hlow)
  have h2 := (Int.lt_zpow_iff_log_lt (b := 2) (by decide) hv).1 (by exact_mod_cast hhigh)
  omega

/-- A ratio scaled down is at least one when the power is at most the ratio. -/
theorem downBy_one_le_iff (sh : Int) (hd : 0 < d) : (downBy sh n d).2 ≤ (downBy sh n d).1 ↔ (2 : ℚ) ^ sh ≤ n / d := by
  have hpos : (0 : ℚ) < (downBy sh n d).2 := by exact_mod_cast downBy_pos sh hd
  have hone : (downBy sh n d).2 ≤ (downBy sh n d).1 ↔ (1 : ℚ) ≤ (downBy sh n d).1 / (downBy sh n d).2 := by
    rw [le_div_iff₀ hpos, one_mul]
    exact_mod_cast Iff.rfl
  rw [hone, downBy_ratio, zpow_neg, ← div_eq_mul_inv, le_div_iff₀ (by positivity), one_mul]

theorem floorLog2_eq_downBy (n d : Nat) : floorLog2 n d =
    if (downBy ((n.log2 : Int) - d.log2) n d).2 ≤ (downBy ((n.log2 : Int) - d.log2) n d).1 then (n.log2 : Int) - d.log2
    else (n.log2 : Int) - d.log2 - 1 := by
  unfold floorLog2 downBy
  dsimp only
  by_cases h : (n.log2 : Int) - d.log2 ≥ 0
  · simp only [if_pos h, ge_iff_le]
  · simp only [if_neg h, ge_iff_le]

theorem floorLog2_eq_log (hn : 0 < n) (hd : 0 < d) : floorLog2 n d = Int.log 2 (n / d : ℚ) := by
  have hdq : (0 : ℚ) < d := by exact_mod_cast hd
  have hn1 : (2 : ℚ) ^ n.log2 ≤ n := by exact_mod_cast Nat.log2_self_le hn.ne'
  have hn2 : (n : ℚ) < 2 ^ (n.log2 + 1) := by exact_mod_cast Nat.lt_log2_self
  have hd1 : (2 : ℚ) ^ d.log2 ≤ d := by exact_mod_cast Nat.log2_self_le hd.ne'
  have hd2 : (d : ℚ) < 2 ^ (d.log2 + 1) := by exact_mod_cast Nat.lt_log2_self
  have hhigh : (n / d : ℚ) < (2 : ℚ) ^ ((n.log2 : Int) - d.log2 + 1) := by
    rw [div_lt_iff₀ hdq]
    calc (n : ℚ) < 2 ^ (n.log2 + 1) := hn2
      _ = (2 : ℚ) ^ ((n.log2 : Int) - d.log2 + 1) * 2 ^ d.log2 := by
        rw [← zpow_natCast, ← zpow_natCast, ← zpow_add₀ (by norm_num)]; congr 1; push_cast; ring
      _ ≤ _ := by gcongr
  have hlow : (2 : ℚ) ^ ((n.log2 : Int) - d.log2 - 1) ≤ (n / d : ℚ) := by
    rw [le_div_iff₀ hdq]
    calc (2 : ℚ) ^ ((n.log2 : Int) - d.log2 - 1) * d ≤ (2 : ℚ) ^ ((n.log2 : Int) - d.log2 - 1) * 2 ^ (d.log2 + 1) := by gcongr
      _ = 2 ^ n.log2 := by
        rw [← zpow_natCast, ← zpow_natCast, ← zpow_add₀ (by norm_num)]; congr 1; push_cast; ring
      _ ≤ n := hn1
  rw [floorLog2_eq_downBy]
  split
  · rename_i h
    exact (log_eq_of_bounds ((downBy_one_le_iff _ hd).1 h) hhigh).symm
  · rename_i h
    refine (log_eq_of_bounds hlow ?_).symm
    rw [sub_add_cancel]
    exact not_le.1 fun hle => h ((downBy_one_le_iff _ hd).2 hle)

theorem ratioOf_pos {ma mb : Nat} (ea eb : Int) (ha : 0 < ma) (hb : 0 < mb) :
    0 < (ratioOf ma ea mb eb).1 ∧ 0 < (ratioOf ma ea mb eb).2 := by
  unfold ratioOf
  dsimp only
  split <;> exact ⟨by positivity, by positivity⟩

theorem ratioOf_ratio (ma mb : Nat) (ea eb : Int) :
    ((ratioOf ma ea mb eb).1 : ℚ) / (ratioOf ma ea mb eb).2 = ma / mb * (2 : ℚ) ^ (ea - eb) := by
  unfold ratioOf
  dsimp only
  split
  · obtain ⟨m, hm⟩ := Int.eq_ofNat_of_zero_le ‹ea - eb ≥ 0›
    rw [hm]
    push_cast
    rw [Int.toNat_natCast, zpow_natCast, mul_div_right_comm]
  · obtain ⟨m, hm⟩ := Int.eq_ofNat_of_zero_le (show 0 ≤ -(ea - eb) by omega)
    rw [hm, show ea - eb = -(m : Int) by omega]
    push_cast
    rw [Int.toNat_natCast, zpow_neg, zpow_natCast, div_mul_eq_div_div, div_eq_mul_inv (ma / mb : ℚ)]

end

/-! ## The root of a ratio, rounded -/

/-- An encoding with twice the bias for its exponent is finite. -/
theorem bias_le_maxEnc (fm : FFormat) : 2 * fm.bias * 2 ^ fm.frac ≤ fm.maxEnc := by cases fm <;> decide

theorem bias_pos (fm : FFormat) : 0 < fm.bias := by cases fm <;> decide

theorem midpoint_lt_iff {n d : Nat} (k : Nat) (hd : 0 < d) :
    (4 * k * k + 4 * k + 1) * d < 4 * n ↔ ((k : ℚ) + 1 / 2) ^ 2 < n / d := by
  have hdq : (0 : ℚ) < d := by exact_mod_cast hd
  have hsq : ((k : ℚ) + 1 / 2) ^ 2 = (4 * k * k + 4 * k + 1) / 4 := by ring
  rw [hsq, lt_div_iff₀ hdq, div_mul_eq_mul_div, div_lt_iff₀ (by norm_num), mul_comm (n : ℚ)]
  exact_mod_cast Iff.rfl

theorem midpoint_eq_iff {n d : Nat} (k : Nat) (hd : 0 < d) :
    4 * n = (4 * k * k + 4 * k + 1) * d ↔ ((k : ℚ) + 1 / 2) ^ 2 = n / d := by
  have hdq : (0 : ℚ) < d := by exact_mod_cast hd
  have hsq : ((k : ℚ) + 1 / 2) ^ 2 = (4 * k * k + 4 * k + 1) / 4 := by ring
  rw [hsq, eq_div_iff hdq.ne', div_mul_eq_mul_div, div_eq_iff (by norm_num), mul_comm (n : ℚ), eq_comm]
  exact_mod_cast Iff.rfl

/-- The exponent of a root of v, as `roundRoot` takes it. -/
def rootExp (fm : FFormat) (v : ℚ) : Int := max (Int.log 2 v / 2) (1 - (fm.bias : Int))

/-- v in units of the last place of its root. -/
def rootUnits (fm : FFormat) (v : ℚ) : ℚ := v * (4 : ℚ) ^ ((fm.frac : Int) - rootExp fm v)

/-- The root of v in those units, rounded. -/
def rootPart (fm : FFormat) (v : ℚ) : Nat :=
  let k := Nat.sqrt ⌊rootUnits fm v⌋₊
  if ((k : ℚ) + 1 / 2) ^ 2 < rootUnits fm v ∨ (((k : ℚ) + 1 / 2) ^ 2 = rootUnits fm v ∧ k % 2 = 1) then k + 1 else k

theorem roundRoot_eq (fm : FFormat) (v : ℚ) :
    roundRoot fm v = (rootExp fm v - (1 - (fm.bias : Int))).toNat * 2 ^ fm.frac + rootPart fm v := rfl

/-- The root in units of its last place has at most one bit more than the fraction. -/
theorem rootPart_le (fm : FFormat) {v : ℚ} (hv : 0 < v) : rootPart fm v ≤ 2 ^ (fm.frac + 1) := by
  have hlog : v < (4 : ℚ) ^ (rootExp fm v + 1) := by
    have hexp : Int.log 2 v < 2 * (rootExp fm v + 1) := by
      have := le_max_left (Int.log 2 v / 2) (1 - (fm.bias : Int))
      unfold rootExp
      omega
    have h := (Int.lt_zpow_iff_log_lt (b := 2) (by decide) hv).2 hexp
    rw [zpow_mul] at h
    norm_num at h
    exact h
  have hunits : rootUnits fm v < ((2 ^ (fm.frac + 1)) ^ 2 : Nat) := by
    calc rootUnits fm v < (4 : ℚ) ^ (rootExp fm v + 1) * (4 : ℚ) ^ ((fm.frac : Int) - rootExp fm v) := by
          unfold rootUnits; gcongr
      _ = (4 : ℚ) ^ (fm.frac + 1) := by
          rw [← zpow_add₀ (by norm_num), ← zpow_natCast]; congr 1; push_cast; ring
      _ = _ := by
          push_cast
          rw [← pow_mul, mul_comm, pow_mul]; norm_num
  have hk : Nat.sqrt ⌊rootUnits fm v⌋₊ < 2 ^ (fm.frac + 1) := Nat.sqrt_lt'.2 ((Nat.floor_lt' (by positivity)).2 hunits)
  unfold rootPart
  dsimp only
  split <;> omega

/-- The part of the root from a ratio in units of its last place, as the model takes it. -/
theorem rootPart_of_ratio {fm : FFormat} {v : ℚ} {a b : Nat} (hb : 0 < b) (h : (a / b : ℚ) = rootUnits fm v) :
    (let k := isqrt (a / b)
     let half := (4 * k * k + 4 * k + 1) * b
     if 4 * a > half || (4 * a = half && k % 2 = 1) then k + 1 else k) = rootPart fm v := by
  have hk : isqrt (a / b) = Nat.sqrt ⌊rootUnits fm v⌋₊ := by rw [isqrt_eq_sqrt, ← h, Nat.floor_div_eq_div]
  dsimp only
  rw [hk, rootPart]
  refine if_congr ?_ rfl rfl
  rw [← h, ← midpoint_lt_iff _ hb, ← midpoint_eq_iff _ hb]
  simp only [Bool.or_eq_true, Bool.and_eq_true, decide_eq_true_eq, gt_iff_lt]

/-- Below a square of the format's range, the model's root of a ratio is the rounded root of its value. -/
theorem roundSqrtRatio_eq_roundRoot (fm : FFormat) {n d : Nat} (hn : 0 < n) (hd : 0 < d)
    (hsmall : (n / d : ℚ) < (2 : ℚ) ^ (2 * (fm.bias : Int))) : roundSqrtRatio fm n d = roundRoot fm (n / d) := by
  have hv : (0 : ℚ) < n / d := div_pos (by exact_mod_cast hn) (by exact_mod_cast hd)
  have hexp : rootExp fm (n / d) ≤ fm.bias - 1 := by
    have hlog := (Int.lt_zpow_iff_log_lt (b := 2) (x := 2 * (fm.bias : Int)) (by decide) hv).1 (by simpa using hsmall)
    have hbias := bias_pos fm
    unfold rootExp
    omega
  have hmin : 1 - (fm.bias : Int) ≤ rootExp fm (n / d) := le_max_right _ _
  have hscaled : ((downBy (2 * (rootExp fm (n / d) - fm.frac)) n d).1 : ℚ) / (downBy (2 * (rootExp fm (n / d) - fm.frac)) n d).2 =
      rootUnits fm (n / d) := by
    rw [downBy_ratio, rootUnits, show (4 : ℚ) = 2 ^ (2 : Int) by norm_num, ← zpow_mul]
    congr 2
    ring
  have hdown := downBy_pos (n := n) (2 * (rootExp fm (n / d) - fm.frac)) hd
  have hfits : roundRoot fm (n / d) ≤ fm.maxEnc := by
    have hsteps : (rootExp fm (n / d) - (1 - (fm.bias : Int))).toNat + 2 ≤ 2 * fm.bias := by omega
    calc roundRoot fm (n / d)
        ≤ (rootExp fm (n / d) - (1 - (fm.bias : Int))).toNat * 2 ^ fm.frac + 2 ^ (fm.frac + 1) :=
          Nat.add_le_add_left (rootPart_le fm hv) _
      _ = ((rootExp fm (n / d) - (1 - (fm.bias : Int))).toNat + 2) * 2 ^ fm.frac := by ring
      _ ≤ 2 * fm.bias * 2 ^ fm.frac := Nat.mul_le_mul_right _ hsteps
      _ ≤ fm.maxEnc := bias_le_maxEnc fm
  have henc : roundSqrtRatio fm n d = if roundRoot fm (n / d) > fm.maxEnc then overflow fm .rn false false false
      else roundRoot fm (n / d) := by
    rw [roundRoot_eq, ← rootPart_of_ratio hdown hscaled, rootExp, ← floorLog2_eq_log hn hd]
    rfl
  rw [henc, if_neg (Nat.not_lt.2 hfits)]

end Sys2Proof.Machine
end

section
/-! Lanes: the parts of an encoding, its exact value, and the results of the lane operations at special inputs (03 R70 to R77;
08 R223, R226, R227, Table 8-3). -/

namespace Sys2Proof.Machine

open Sys2Proof.Statements

/-! ## Encodings (03 Table 3-1) -/

section
variable {fm : FFormat} {x m : Nat} {e : Int} {neg : Bool}

/-- An encoding is its sign and its magnitude. -/
theorem withSign_sign_mag (hx : x < 2 ^ fm.width) : fm.withSign (fm.sign x) (fm.mag x) = x := by
  have hwidth : 2 ^ fm.width = 2 ^ (fm.width - 1) * 2 := by cases fm <;> rfl
  have htop : x / 2 ^ (fm.width - 1) < 2 := Nat.div_lt_of_lt_mul (by rwa [← hwidth])
  have hsplit := Nat.div_add_mod x (2 ^ (fm.width - 1))
  unfold FFormat.withSign FFormat.sign FFormat.mag
  rcases Nat.le_one_iff_eq_zero_or_eq_one.1 (Nat.le_of_lt_succ htop) with h | h
  · rw [h] at hsplit ⊢
    simpa using hsplit
  · rw [h] at hsplit ⊢
    simpa using hsplit

theorem withSign_lt {mag : Nat} (hmag : mag < 2 ^ (fm.width - 1)) : fm.withSign neg mag < 2 ^ fm.width := by
  have hwidth : 2 ^ fm.width = 2 ^ (fm.width - 1) + 2 ^ (fm.width - 1) := by cases fm <;> rfl
  unfold FFormat.withSign
  split <;> omega

/-- What the fields of a finite encoding are. -/
theorem valOf_fin (h : valOf fm x = .fin neg m e) : neg = fm.sign x ∧ fm.mag x ≤ fm.maxEnc ∧
    ((fm.mag x / 2 ^ fm.frac = 0 ∧ m = fm.mag x % 2 ^ fm.frac ∧ e = 1 - (fm.bias : Int) - fm.frac) ∨
      (fm.mag x / 2 ^ fm.frac ≠ 0 ∧ m = 2 ^ fm.frac + fm.mag x % 2 ^ fm.frac ∧
        e = (fm.mag x / 2 ^ fm.frac : Nat) - (fm.bias : Int) - fm.frac)) := by
  unfold valOf at h
  dsimp only at h
  split at h
  · rename_i hmag
    split at h
    · rename_i hexp
      obtain ⟨rfl, rfl, rfl⟩ := FVal.fin.inj h
      exact ⟨rfl, hmag, .inl ⟨hexp, rfl, rfl⟩⟩
    · rename_i hexp
      obtain ⟨rfl, rfl, rfl⟩ := FVal.fin.inj h
      exact ⟨rfl, hmag, .inr ⟨hexp, rfl, rfl⟩⟩
  · split at h
    · cases h
    · split at h <;> cases h

/-- An encoding of zero is a signed zero. -/
theorem eq_of_valOf_zero (h : valOf fm x = .fin neg 0 e) (hx : x < 2 ^ fm.width) : x = fm.withSign neg 0 := by
  obtain ⟨rfl, -, ⟨hexp, hfrac, -⟩ | ⟨-, hm, -⟩⟩ := valOf_fin h
  · have hmag : fm.mag x = 0 := by
      have := Nat.div_add_mod (fm.mag x) (2 ^ fm.frac)
      rw [hexp, ← hfrac] at this
      exact this.symm
    rw [← hmag, withSign_sign_mag hx]
  · have := Nat.two_pow_pos fm.frac
    omega

/-- The significand and the exponent of a finite value. -/
theorem valOf_fin_bounds (h : valOf fm x = .fin neg m e) :
    m < 2 ^ (fm.frac + 1) ∧ 1 - (fm.bias : Int) - fm.frac ≤ e ∧
      e ≤ max 1 (fm.maxEnc / 2 ^ fm.frac : Nat) - (fm.bias : Int) - fm.frac := by
  obtain ⟨-, hmax, hfields⟩ := valOf_fin h
  have hm : fm.mag x % 2 ^ fm.frac < 2 ^ fm.frac := Nat.mod_lt _ (by positivity)
  have hexp : fm.mag x / 2 ^ fm.frac ≤ fm.maxEnc / 2 ^ fm.frac := Nat.div_le_div_right hmax
  rw [Nat.pow_succ]
  generalize 2 ^ fm.frac = p at *
  generalize fm.mag x / p = E at *
  generalize fm.maxEnc / p = M at *
  generalize fm.mag x % p = f at *
  omega

/-- Every finite value of a lane format lies below the square of the format's range. -/
theorem finite_lt (hfm : fm ≠ .e2m1) (h : valOf fm x = .fin neg m e) : (m * (2 : ℚ) ^ e) < (2 : ℚ) ^ (2 * (fm.bias : Int)) := by
  obtain ⟨hm, -, he⟩ := valOf_fin_bounds h
  have hmq : (m : ℚ) < 2 ^ (fm.frac + 1) := by exact_mod_cast hm
  have hbias := bias_pos fm
  have hrange : (fm.maxEnc / 2 ^ fm.frac : Nat) + 1 ≤ 3 * fm.bias := by
    cases fm with
    | e2m1 => exact absurd rfl hfm
    | _ => decide
  calc m * (2 : ℚ) ^ e < (2 : ℚ) ^ (fm.frac + 1) * (2 : ℚ) ^ e := by gcongr
    _ = (2 : ℚ) ^ ((fm.frac + 1 : Nat) + e) := by rw [zpow_add₀ (by norm_num), zpow_natCast]
    _ ≤ _ := zpow_le_zpow_right₀ (by norm_num) (by generalize fm.maxEnc / 2 ^ fm.frac = M at *; omega)

/-- So does the inverse of every one above zero. -/
theorem inverse_lt (hm : 0 < m) (h : valOf fm x = .fin neg m e) : 1 / (m * (2 : ℚ) ^ e) < (2 : ℚ) ^ (2 * (fm.bias : Int)) := by
  obtain ⟨-, he, -⟩ := valOf_fin_bounds h
  have hmq : (1 : ℚ) ≤ m := by exact_mod_cast hm
  have hrange : fm.frac ≤ fm.bias := by cases fm <;> decide
  calc 1 / (m * (2 : ℚ) ^ e) ≤ 1 / (1 * (2 : ℚ) ^ e) := by gcongr
    _ = (2 : ℚ) ^ (-e) := by rw [one_mul, one_div, zpow_neg]
    _ < _ := zpow_lt_zpow_right₀ (by norm_num) (by omega)

/-! ## Roots of a lane (Table 8-3) -/

/-- The rounding of an infinity to a lane format. -/
theorem overflow_exact (hfm : fm ≠ .e2m1) (neg : Bool) : overflow fm .rn false neg true = infinityOf fm neg := by
  cases fm with
  | e2m1 => exact absurd rfl hfm
  | _ => cases neg <;> rfl

theorem fsqrtLane_eq (hfm : fm ≠ .e2m1) (hx : x < 2 ^ fm.width) : fsqrtLane fm (valOf fm x) = rootLane fm x := by
  unfold fsqrtLane rootLane
  cases h : valOf fm x with
  | nan => rfl
  | inf neg =>
    cases neg with
    | false => exact overflow_exact hfm false
    | true => rfl
  | fin neg m e =>
    dsimp only
    split
    · rename_i hm
      subst hm
      exact (eq_of_valOf_zero h hx).symm
    · rename_i hm
      split
      · rfl
      · obtain ⟨hn, hd⟩ := ratioOf_pos e 0 (Nat.pos_of_ne_zero hm) Nat.one_pos
        have hratio : ((ratioOf m e 1 0).1 : ℚ) / (ratioOf m e 1 0).2 = m * (2 : ℚ) ^ e := by
          rw [ratioOf_ratio, Nat.cast_one, div_one, sub_zero]
        rw [roundSqrtRatio_eq_roundRoot fm hn hd (hratio ▸ finite_lt hfm h), hratio]

theorem frsqLane_eq (hfm : fm ≠ .e2m1) (x : Nat) : frsqLane fm (valOf fm x) = inverseRootLane fm x := by
  unfold frsqLane inverseRootLane
  cases h : valOf fm x with
  | nan => rfl
  | inf neg => cases neg <;> rfl
  | fin neg m e =>
    dsimp only
    split
    · exact overflow_exact hfm neg
    · rename_i hm
      split
      · rfl
      · obtain ⟨hn, hd⟩ := ratioOf_pos 0 e Nat.one_pos (Nat.pos_of_ne_zero hm)
        have hratio : ((ratioOf 1 0 m e).1 : ℚ) / (ratioOf 1 0 m e).2 = 1 / (m * (2 : ℚ) ^ e) := by
          rw [ratioOf_ratio, Nat.cast_one, zero_sub, zpow_neg, one_div_mul_eq_div, div_eq_mul_inv, div_eq_mul_inv, mul_inv, one_mul,
            mul_comm]
        rw [roundSqrtRatio_eq_roundRoot fm hn hd (hratio ▸ inverse_lt (Nat.pos_of_ne_zero hm) h), hratio]

/-! ## Powers and logarithms of two (Table 8-3) -/

/-- The bias is the exponent field of one. -/
theorem roundRatio_one (hfm : fm ≠ .e2m1) : roundRatio fm .rn false false 1 1 0 = fm.bias * 2 ^ fm.frac := by
  cases fm with
  | e2m1 => exact absurd rfl hfm
  | _ => decide

theorem fexp2Lane_zero (hfm : fm ≠ .e2m1) (neg : Bool) (e : Int) : fexp2Lane fm (.fin neg 0 e) = fm.bias * 2 ^ fm.frac := by
  have hzero : (ratioOf 0 e 1 0).1 = 0 := by
    unfold ratioOf
    dsimp only
    split
    · exact Nat.zero_mul _
    · rfl
  have hpos : 0 < (ratioOf 0 e 1 0).2 := by
    unfold ratioOf
    dsimp only
    split <;> positivity
  have hsmall : ¬0 ≥ 1024 * (ratioOf 0 e 1 0).2 := by omega
  simp only [fexp2Lane, hzero, if_neg hsmall, Nat.zero_div, Nat.zero_mod, if_true, Nat.cast_zero, neg_zero, ite_self, roundScaled,
    ge_iff_le, le_refl, Int.toNat_zero, pow_zero, one_mul]
  exact roundRatio_one hfm

theorem fexp2Lane_intVal {k : Int} (hk : k.natAbs < 1024) : fexp2Lane fm (intVal k) = roundN fm (.fin false 1 k) := by
  have hratio : ratioOf k.natAbs 0 1 0 = (k.natAbs, 1) := by simp [ratioOf]
  have hwhole : (if decide (k < 0) then -(k.natAbs : Int) else k.natAbs) = k := by
    split
    · rename_i h
      have := of_decide_eq_true h
      omega
    · rename_i h
      have : ¬k < 0 := fun hlt => h (decide_eq_true hlt)
      omega
  have hsmall : ¬k.natAbs ≥ 1024 * 1 := by omega
  simp only [fexp2Lane, intVal, hratio, if_neg hsmall, Nat.div_one, Nat.mod_one, if_true, hwhole, roundScaled, roundN, round,
    one_ne_zero, if_false, one_mul]

theorem flog2Lane_pow (l : Nat) (e : Int) : flog2Lane fm (.fin false (2 ^ l) e) = roundN fm (intVal (l + e)) := by
  have hne : (2 : Nat) ^ l ≠ 0 := by positivity
  simp only [flog2Lane, Nat.log2_two_pow, hne, if_false, Bool.false_eq_true, if_true, roundN, intVal, round, Int.natAbs_eq_zero]
  split
  · rename_i h
    simp [h, FFormat.withSign]
  · simp

end

/-! ## Encodings of a rounded value fit their width -/

theorem overflow_lt (fm : FFormat) (rm : Rm) (sat neg exactInf : Bool) : overflow fm rm sat neg exactInf < 2 ^ fm.width := by
  have hmax : fm.maxEnc < 2 ^ (fm.width - 1) := by cases fm <;> decide
  have hinf : fm.inf < 2 ^ (fm.width - 1) ∨ fm = .e2m1 := by cases fm <;> decide
  cases fm with
  | e2m1 => exact withSign_lt hmax
  | e4m3 =>
    unfold overflow
    dsimp only
    split
    · exact withSign_lt hmax
    · decide
  | _ =>
    replace hinf := hinf.resolve_right nofun
    unfold overflow
    dsimp only
    split
    · exact withSign_lt hmax
    · split
      case h_1 | h_2 => exact withSign_lt hinf
      all_goals
        refine withSign_lt ?_
        split
        · exact hinf
        · exact hmax

theorem round_lt (fm : FFormat) (rm : Rm) (sat : Bool) (r : Word) (v : FVal) : round fm rm sat r v < 2 ^ fm.width := by
  have hmax : fm.maxEnc < 2 ^ (fm.width - 1) := by cases fm <;> decide
  have hratio (neg : Bool) (n d : Nat) : roundRatio fm rm sat neg n d r < 2 ^ fm.width := by
    have hcapped (enc : Nat) : (if enc > fm.maxEnc then overflow fm rm sat neg false else fm.withSign neg enc) < 2 ^ fm.width := by
      split
      · exact overflow_lt ..
      · exact withSign_lt (by omega)
    exact hcapped _
  unfold round
  split
  · cases fm <;> decide
  · exact overflow_lt ..
  · split
    · exact withSign_lt (by positivity)
    · split <;> exact hratio ..

end Sys2Proof.Machine
end

section
/-! Words made of lanes, the results of lanes, and the instructions of Tables 8-2 and 8-3 (08 R223, R226, R227, R229 to R232). -/

namespace Sys2Proof.Machine

open Host (Outcome)
open Sys2Proof.Statements

/-! ## Words made of lanes (08 R223) -/

theorem laneAt_lt (fmt : Fmt) (w : Word) (j : Nat) : laneAt fmt w j < 2 ^ (laneFormat fmt).width :=
  Nat.mod_lt _ (by positivity)

theorem laneFormat_ne_e2m1 (fmt : Fmt) : laneFormat fmt ≠ .e2m1 := by cases fmt <;> decide

theorem lanes_le (fmt : Fmt) : lanes fmt ≤ 4 := by cases fmt <;> decide

theorem joinLanes_lt (n : Nat) (l : List Nat) : joinLanes n l < 2 ^ (n * l.length) := by
  induction l with
  | nil => exact Nat.one_pos
  | cons x l ih =>
    have hx : x % 2 ^ n < 2 ^ n := Nat.mod_lt _ (by positivity)
    rw [joinLanes, List.length_cons, Nat.mul_succ, Nat.pow_add, Nat.mul_comm (2 ^ (n * l.length))]
    calc x % 2 ^ n + 2 ^ n * joinLanes n l < 2 ^ n * (joinLanes n l + 1) := by rw [Nat.mul_succ]; omega
      _ ≤ 2 ^ n * 2 ^ (n * l.length) := Nat.mul_le_mul_left _ ih

/-- Lanes of zeros at the top add nothing. -/
theorem joinLanes_append_zeros (n c : Nat) (l : List Nat) : joinLanes n (l ++ List.replicate c 0) = joinLanes n l := by
  induction l with
  | nil =>
    induction c with
    | zero => rfl
    | succ c ih => simpa [joinLanes, List.replicate_succ] using ih
  | cons x l ih => rw [List.cons_append, joinLanes, ih, joinLanes]

/-- A word whose lanes from m on are zero is made of its m lowest lanes. -/
theorem joinLanes_low (w m n : Nat) (g : Nat → Nat) :
    joinLanes w ((List.range n).map fun j => if j < m then g j else 0) = joinLanes w ((List.range (min m n)).map g) := by
  obtain hle | ⟨c, rfl⟩ : n ≤ m ∨ ∃ c, n = m + c := (Nat.le_total n m).imp id Nat.exists_eq_add_of_le
  · rw [Nat.min_eq_right hle]
    congr 1
    exact List.map_congr_left fun j hj => if_pos ((List.mem_range.1 hj).trans_le hle)
  · have hhigh : ((List.range c).map (m + ·)).map (fun j => if j < m then g j else 0) = List.replicate c 0 := by
      simp [List.eq_replicate_iff]
    rw [Nat.min_eq_left (Nat.le_add_right m c), List.range_add, List.map_append, hhigh, joinLanes_append_zeros]
    congr 1
    exact List.map_congr_left fun j hj => if_pos (List.mem_range.1 hj)

/-- A lane alone in its word. -/
theorem byLanes_lowest (fmt : Fmt) {x : Nat} (hx : x < 2 ^ (laneFormat fmt).width) :
    byLanes fmt (fun j => if j = 0 then x else 0) = BitVec.ofNat 32 x := by
  have h := joinLanes_low (laneFormat fmt).width 1 (lanes fmt) fun _ => x
  have hmin : min 1 (lanes fmt) = 1 := by cases fmt <;> rfl
  simp only [Nat.lt_one_iff, hmin] at h
  rw [byLanes, h, List.range_one, List.map_singleton, joinLanes, joinLanes, Nat.mul_zero, Nat.add_zero, Nat.mod_eq_of_lt hx]

/-! ## Results of lanes (Tables 8-2 to 8-4) -/

section
variable (fm : FFormat) (x y : Nat)

theorem sign_bit : (if fm.sign x then 1 else 0) = x / 2 ^ (fm.width - 1) % 2 := by
  unfold FFormat.sign
  rcases Nat.mod_two_eq_zero_or_one (x / 2 ^ (fm.width - 1)) with h | h <;> rw [h] <;> rfl

theorem withSign_eq (neg : Bool) : fm.withSign neg x = x + (if neg then 1 else 0) * 2 ^ (fm.width - 1) := by
  cases neg <;> simp [FFormat.withSign, Nat.add_comm]

theorem fcpsLane_eq : fcpsLane fm x y = x % 2 ^ (fm.width - 1) + y / 2 ^ (fm.width - 1) % 2 * 2 ^ (fm.width - 1) := by
  rw [fcpsLane, withSign_eq, sign_bit, FFormat.mag]

theorem fneg_eq : fm.withSign (!fm.sign x) (fm.mag x) =
    x % 2 ^ (fm.width - 1) + (1 - x / 2 ^ (fm.width - 1) % 2) * 2 ^ (fm.width - 1) := by
  rw [withSign_eq, ← sign_bit, FFormat.mag]
  cases fm.sign x <;> rfl

theorem fsum2Word_eq (fmt : Fmt) (w : Word) : fsum2Word fmt w =
    (let v := fun i => valOf (laneFormat fmt) (laneAt fmt w i)
     BitVec.ofNat 32 (roundN .fp32 (((List.range (lanes fmt)).tail.map v).foldl FVal.add (v 0)))) := by
  have htail : (List.range (lanes fmt)).tail = (List.range (lanes fmt - 1)).map (· + 1) := by cases fmt <;> rfl
  dsimp only
  rw [htail, List.map_map]
  rfl

theorem fpackWord_eq (fmt : Fmt) (a b : Word) : fpackWord fmt a b = packed fmt a b := by
  cases fmt <;> rfl

theorem funpackWord_eq (fmt : Fmt) (w : Word) : funpackWord fmt w =
    if lanes fmt = 2 then BitVec.ofNat 32 (roundN .fp32 (valOf (laneFormat fmt) (w.toNat / 2 ^ 16)))
    else byLanes .bf16x2 fun j => roundN .bf16 (valOf (laneFormat fmt) (laneOf 8 (j + 2) w.toNat)) := by
  have htop : laneOf 16 1 w.toNat = w.toNat / 2 ^ 16 := Nat.mod_eq_of_lt (by have := w.isLt; omega)
  unfold funpackWord
  rw [htop]
  rfl

end

/-! ### Classes (R232, Table 8-4) -/

section
variable (fm : FFormat) (x : Nat)

theorem mag_mod : fm.mag x % 2 ^ fm.frac = x % 2 ^ fm.frac := by
  have hdvd : 2 ^ fm.frac ∣ 2 ^ (fm.width - 1) := Nat.pow_dvd_pow 2 (by cases fm <;> decide)
  exact Nat.mod_mod_of_dvd x hdvd

theorem mag_div : fm.mag x / 2 ^ fm.frac = x / 2 ^ fm.frac % 2 ^ (fm.width - 1 - fm.frac) := by
  have hsplit : 2 ^ (fm.width - 1) = 2 ^ fm.frac * 2 ^ (fm.width - 1 - fm.frac) := by cases fm <;> rfl
  rw [FFormat.mag, hsplit, Nat.mod_mul_right_div_self]

/-- The highest bit of the fraction. -/
theorem mag_msb : fm.mag x / 2 ^ (fm.frac - 1) % 2 = x % 2 ^ fm.frac / 2 ^ (fm.frac - 1) := by
  have hsplit : 2 ^ fm.frac = 2 ^ (fm.frac - 1) * 2 := by cases fm <;> rfl
  rw [← mag_mod, hsplit, Nat.mod_mul_right_div_self]

/-- A finite encoding is a zero, a subnormal or a normal by its fields. -/
theorem finiteClass {neg : Bool} {m : Nat} {e : Int} (h : valOf fm x = .fin neg m e) :
    (if m = 0 then 0 else if fm.mag x / 2 ^ fm.frac = 0 then 1 else 2) =
      if x / 2 ^ fm.frac % 2 ^ (fm.width - 1 - fm.frac) ≠ 0 then 2 else if x % 2 ^ fm.frac ≠ 0 then 1 else 0 := by
  rw [← mag_div, ← mag_mod]
  obtain ⟨-, -, ⟨hexp, hm, -⟩ | ⟨hexp, hm, -⟩⟩ := valOf_fin h
  · rw [hm, hexp]
    simp only [ne_eq, not_true_eq_false, if_true, if_false, ite_not]
  · have hne : m ≠ 0 := by
      have := Nat.two_pow_pos fm.frac
      omega
    rw [if_neg hne, if_neg hexp, if_pos hexp]

/-- The kind of an encoding in its class byte. -/
def classKind (fm : FFormat) (x : Nat) : Nat :=
  match valOf fm x with
  | .nan => 4
  | .inf _ => 3
  | .fin _ _ _ => if x / 2 ^ fm.frac % 2 ^ (fm.width - 1 - fm.frac) ≠ 0 then 2 else if x % 2 ^ fm.frac ≠ 0 then 1 else 0

theorem classOf_eq (old : Bool) : classOf old fm x = classKind fm x + 8 * (x / 2 ^ (fm.width - 1) % 2) +
    16 * if old ∧ fm = .e4m3 ∧ classKind fm x = 4 then 0 else x % 2 ^ fm.frac / 2 ^ (fm.frac - 1) := rfl

theorem classKind_nan (h : valOf fm x = .nan) : classKind fm x = 4 := by
  rw [classKind, h]

theorem classKind_ne (h : valOf fm x ≠ .nan) : classKind fm x ≠ 4 := by
  unfold classKind
  split
  · exact absurd ‹_› h
  · decide
  · split
    · decide
    · split <;> decide

theorem fclassLane_eq : fclassLane fm x =
    16 * (x % 2 ^ fm.frac / 2 ^ (fm.frac - 1)) + 8 * (x / 2 ^ (fm.width - 1) % 2) + classKind fm x := by
  unfold fclassLane classKind
  dsimp only
  rw [mag_msb, sign_bit]
  cases h : valOf fm x with
  | nan => rfl
  | inf => rfl
  | fin neg m e => exact congrArg (_ + ·) (finiteClass fm x h)

theorem valOf_e4m3_nan_iff : valOf .e4m3 x = .nan ↔ x % 128 = 127 := by
  have hmag : FFormat.e4m3.mag x = x % 128 := rfl
  have hmax : FFormat.e4m3.maxEnc = 126 := rfl
  unfold valOf
  dsimp only
  rw [hmag, hmax]
  split
  · split <;> simp only [reduceCtorEq, false_iff] <;> omega
  · simp only [if_true, true_iff]
    omega

/-- Under erratum 1 the fraction's highest bit of a NaN of E4M3 is not shown. -/
theorem classByte_eq (old : Bool) (fmt : Fmt) : classByte old fmt x = classOf old (laneFormat fmt) x := by
  unfold classByte
  dsimp only
  split
  · rename_i h
    simp only [Bool.and_eq_true, decide_eq_true_eq] at h
    obtain ⟨⟨hold, rfl⟩, hx⟩ := h
    have hkind := classKind_nan .e4m3 x ((valOf_e4m3_nan_iff x).2 hx)
    have hmsb : x % 2 ^ FFormat.e4m3.frac / 2 ^ (FFormat.e4m3.frac - 1) = 1 := by
      change x % 8 / 4 = 1
      omega
    have hform : laneFormat .e4m3x4 = .e4m3 := rfl
    rw [hform, fclassLane_eq, classOf_eq, if_pos ⟨hold, rfl, hkind⟩, hmsb]
    omega
  · rename_i h
    have hshown : ¬(old = true ∧ laneFormat fmt = .e4m3 ∧ classKind (laneFormat fmt) x = 4) := by
      rintro ⟨hold, hform, hkind⟩
      have hfmt : fmt = .e4m3x4 := by
        cases fmt with
        | e4m3x4 => rfl
        | _ => cases hform
      rw [hform] at hkind
      have hnan : valOf .e4m3 x = .nan := not_not.1 fun hne => classKind_ne .e4m3 x hne hkind
      exact h (by simp only [hold, hfmt, (valOf_e4m3_nan_iff x).1 hnan, decide_true, Bool.and_self])
    rw [fclassLane_eq, classOf_eq, if_neg hshown]
    omega

end

/-! ## Instructions (08 R226 to R232) -/

section
variable {i : Instr} {d a b : SQ} {fmt : Fmt} (s : State)

theorem floatTwo_meaning {op : FFormat → Nat → Nat → Nat} (h : floatTwo i = some (fmt, d, a, b, op)) : exec i s =
    floatOp2 s d a b fun x y => byLanes fmt fun j => op (laneFormat fmt) (laneAt fmt x j) (laneAt fmt y j) := by
  unfold floatTwo at h
  split at h
  case h_8 => cases h
  case h_7 =>
    cases h
    simp only [← fcpsLane_eq]
    rfl
  all_goals
    cases h
    rfl

theorem floatOne_meaning {op : FFormat → Nat → Nat} (h : floatOne i = some (fmt, d, a, op)) : exec i s =
    floatOp1 s d a fun x => byLanes fmt fun j => op (laneFormat fmt) (laneAt fmt x j) := by
  unfold floatOne at h
  split at h
  case h_8 => cases h
  case h_2 =>
    cases h
    simp only [← fneg_eq]
    rfl
  case h_3 =>
    cases h
    simp only [← fsqrtLane_eq (laneFormat_ne_e2m1 fmt) (laneAt_lt fmt _ _)]
    rfl
  case h_5 =>
    cases h
    simp only [← frsqLane_eq (laneFormat_ne_e2m1 fmt)]
    rfl
  all_goals
    cases h
    rfl

end

end Sys2Proof.Machine
end

section
/-! The fused forms, whole-word results, conversions and FCMP (08 R228 to R238). -/

namespace Sys2Proof.Machine

open Host (Outcome)
open Sys2Proof.Statements

/-! ## Converted words (08 R234 to R237) -/

theorem zeroExtend_ofNat {n : Nat} (hn : n < 2 ^ 32) : (BitVec.ofNat 32 n).zeroExtend 64 = BitVec.ofNat 64 n := by
  apply BitVec.eq_of_toNat_eq
  rw [BitVec.zeroExtend, BitVec.toNat_setWidth, BitVec.toNat_ofNat, BitVec.toNat_ofNat, Nat.mod_eq_of_lt hn]

section
variable (r : Nat → Word) (x : Word) (src dst : Fmt) (rm : Rm)

/-- Lanes that the source does not have are zero. -/
theorem fcvtWord_eq (sat : Bool) : fcvtWord src dst rm sat r x = byLanes dst fun j =>
    if j < lanes src then round (laneFormat dst) rm sat (r j) (valOf (laneFormat src) (laneAt src x j)) else 0 :=
  congrArg (BitVec.ofNat 32) (joinLanes_low (laneFormat dst).width (lanes src) (lanes dst) _).symm

theorem fromE2m1Word_eq : fromE2m1Word dst rm r x = byLanes dst fun j =>
    round (laneFormat dst) rm false (r j) (valOf .e2m1 (laneOf 4 j x.toNat)) := rfl

theorem fromBytesWord_eq (sgn : Bool) : fromBytesWord dst rm sgn r x = byLanes dst fun j =>
    let b := BitVec.ofNat 8 (laneOf 8 j x.toNat)
    round (laneFormat dst) rm false (r j) (intVal (if sgn then b.toInt else b.toNat)) := rfl

/-- Four nibbles fit the word. -/
theorem toE2m1Word_eq (sat : Bool) : (toE2m1Word src rm sat r x).zeroExtend 64 =
    BitVec.ofNat 64 (joinLanes 4 ((List.range (lanes src)).map fun j =>
      round .e2m1 rm sat (r j) (valOf (laneFormat src) (laneAt src x j)))) := by
  refine zeroExtend_ofNat ((joinLanes_lt 4 _).trans_le (Nat.pow_le_pow_right Nat.two_pos ?_))
  have hlanes := lanes_le src
  rw [List.length_map, List.length_range]
  omega

theorem fromIntWord_eq (v : Int) : fromIntWord dst rm r v = rounded dst rm (r 0) v :=
  (byLanes_lowest dst (round_lt (laneFormat dst) rm false (r 0) (intVal v))).symm

end

/-! ## Instructions -/

section
variable {i : Instr} {d a b : SQ} {fmt : Fmt} (s : State)

theorem fused_meaning {x : BitVec 5} {f : FVal → FVal → FVal} (h : fused i = some (fmt, x, a, b, f)) : exec i s =
    withOperands s false (sqPops a ++ sqPops b) none fun t vals => (t.setReg x ((byLanes fmt fun j =>
      let v := fun w => valOf (laneFormat fmt) (laneAt fmt w j)
      roundN (laneFormat fmt) (f ((v (t.fsrc a vals)).mul (v (t.fsrc b (sqRest a vals)))) (v ((t.reg x).truncate 32)))).zeroExtend
        64)).advance := by
  unfold fused at h
  split at h
  case h_4 => cases h
  all_goals
    cases h
    rfl

theorem floatWord_meaning {f : Word → Word} (h : floatWord i = some (d, a, f)) : exec i s = floatOp1 s d a f := by
  unfold floatWord at h
  split at h
  case h_3 => cases h
  case h_1 fmt _ _ =>
    cases h
    exact congrArg (floatOp1 s d a) (funext (fsum2Word_eq fmt))
  case h_2 fmt _ _ =>
    cases h
    exact congrArg (floatOp1 s d a) (funext (funpackWord_eq fmt))

theorem fpack_meaning : exec (.fpack fmt d a b) s = floatOp2 s d a b (packed fmt) :=
  congrArg (floatOp2 s d a b) (funext fun x => funext (fpackWord_eq fmt x))

theorem fclassWord_eq (old : Bool) (x : Word) : fclassWord old fmt x = classesOf old fmt x := by
  unfold fclassWord
  simp only [classByte_eq]
  rfl

/-- A word that is pushed or written to a register is the integer of the word. -/
theorem fdst_eq_idst (w : Word) : s.fdst d w = s.idst d (w.zeroExtend 64) := by
  cases d with
  | s r => rfl
  | q n => exact congrArg (s.push n) (by simp [BitVec.zeroExtend, BitVec.truncate])

theorem convertOp_eq_convertIntOp (rm : Rm) (n : Nat) {f : (Nat → Word) → Word → Word} {g : (Nat → Word) → Word → DWord}
    (h : ∀ r x, (f r x).zeroExtend 64 = g r x) : convertOp s rm n d a f = convertIntOp s rm n d a g := by
  simp only [convertOp, convertIntOp, fdst_eq_idst, h]

theorem conversion_meaning {rm : Rm} {n : Nat} {f : (Nat → Word) → Word → DWord} (h : conversion i = some (rm, n, d, a, f)) :
    exec i s = convertIntOp s rm n d a f := by
  unfold conversion at h
  split at h
  case h_9 => cases h
  case h_4 | h_5 | h_6 =>
    cases h
    rfl
  case h_1 =>
    cases h
    exact convertOp_eq_convertIntOp s rm _ fun r x => congrArg (BitVec.zeroExtend 64) (fcvtWord_eq r x _ _ rm _)
  case h_2 =>
    cases h
    exact convertOp_eq_convertIntOp s rm _ fun r x => congrArg (BitVec.zeroExtend 64) (fromE2m1Word_eq r x _ rm)
  case h_3 =>
    cases h
    exact convertOp_eq_convertIntOp s rm _ fun r x => toE2m1Word_eq r x _ rm _
  case h_7 =>
    cases h
    refine convertOp_eq_convertIntOp s rm 1 (f := fun r x => fromIntWord _ rm r (asInt _ x)) fun r x => ?_
    rw [fromIntWord_eq]
    rfl
  case h_8 =>
    cases h
    exact convertOp_eq_convertIntOp s rm _ fun r x => congrArg (BitVec.zeroExtend 64) (fromBytesWord_eq r x _ rm _)

theorem icvtf64_meaning (dst : Fmt) (rm : Rm) (sgn : Bool) (x : BitVec 5) : exec (.icvtf64 dst rm sgn d x) s =
    withOperands s false [] (sqPush d) fun t _ => ((t.useDraws rm 1).fdst d
      (rounded dst rm (t.draw 0) (if sgn then (t.reg x).toInt else (t.reg x).toNat))).advance := by
  simp only [← fromIntWord_eq]
  rfl

theorem fcmp_meaning (cc : FloatCc) (pd : BitVec 3) : exec (.fcmp cc pd a b) s =
    withOperands s false (sqPops a ++ sqPops b) none fun t vals => (t.setPred pd
      (floatCondition cc (valOf .fp32 (t.fsrc a vals).toNat) (valOf .fp32 (t.fsrc b (sqRest a vals)).toNat))).advance := rfl

/-- Only mode rs uses draws up. -/
theorem useDraws_stoch {k : Nat} (hk : OnElem s k) (rm : Rm) (n : Nat) : ((s.useDraws rm n).elem k).fir.stoch =
    (s.elem k).fir.stoch + if rm = .rs then BitVec.ofNat 32 n else 0 := by
  obtain ⟨e, p, hf, rfl⟩ := hk
  cases rm with
  | rs => simp only [State.useDraws, hf, State.elem_setElem_same, if_true]
  | _ => simp [State.useDraws]

end

/-- Settles O4: each instruction by the word that it makes of its operands, once they are ready; the roots by
`roundSqrtRatio_eq_roundRoot`, the special inputs by the rounding of an infinity and of a power of two. -/
theorem floatAndConversionResult : Obligations.FloatAndConversionResult := by
  refine ⟨⟨fun i fmt d a b op h s t vals hready => ?_, fun i fmt d a op h s t vals hready => ?_,
    fun i fmt d a b f h s t vals hready => ?_, fun i d a f h s t vals hready => ?_, fun fmt d a b s t vals hready => ?_,
    fun fmt d a s t vals hready => ?_, fun fm hfm => ?_⟩, fun i rm n d a f h s t vals hready => ?_,
    fun dst rm sgn d a s t vals hready => ?_, fun cc pd a b s t vals hready => ?_, fun s rm n k hk => useDraws_stoch s hk rm n⟩
  · exact (floatTwo_meaning s h).trans (withOperands_ready hready _)
  · exact (floatOne_meaning s h).trans (withOperands_ready hready _)
  · exact (fused_meaning s h).trans (withOperands_ready hready _)
  · exact (floatWord_meaning s h).trans (withOperands_ready hready _)
  · exact (fpack_meaning s).trans (withOperands_ready hready _)
  · rw [← fclassWord_eq]
    exact withOperands_ready hready _
  · exact ⟨rfl, rfl, overflow_exact hfm false, fexp2Lane_zero hfm, fun _ => fexp2Lane_intVal, rfl, rfl, overflow_exact hfm false,
      fun neg e => overflow_exact hfm true, fun m e hm => (if_neg hm.ne').trans (if_pos rfl), flog2Lane_pow⟩
  · exact (conversion_meaning s h).trans (withOperands_ready hready _)
  · exact (icvtf64_meaning s dst rm sgn a).trans (withOperands_ready hready _)
  · exact (fcmp_meaning s cc pd).trans (withOperands_ready hready _)

end Sys2Proof.Machine
end

section
/-! Tokens into the send buffer (09 R258 to R266, R269). -/

namespace Sys2Proof.Machine

open Host (Outcome)
open Sys2Proof.Statements

/-! ## Pops leave the firing as it is (08 R251) -/

section
variable {s t : State} {k : Nat} {vals : List Word}

theorem State.settlePort_fir (k i fuel : Nat) (s : State) : ((s.settlePort k i fuel).elem k).fir = (s.elem k).fir := by
  induction fuel generalizing s with
  | zero => rfl
  | succ fuel ih =>
    unfold State.settlePort
    dsimp only
    split
    · rfl
    · split
      case h_5 | h_6 =>
        split
        · rw [ih, State.reportLoose, State.report_elem, State.elem_setElem_same, setPortQueue]
        · rfl
      case h_7 => rfl
      all_goals rw [ih, State.elem_setElem_same, setPortQueue]

theorem State.takePort_fir (s : State) (k i : Nat) : ((s.takePort k i).elem k).fir = (s.elem k).fir := by
  rw [State.takePort, State.settlePort_fir, State.elem_setElem_same, setPortQueue]

theorem State.popPort_fir {q : Fin 3} {i fuel : Nat} {v : Word} (h : s.popPort k q i fuel = .got t v) :
    (t.elem k).fir = (s.elem k).fir := by
  induction fuel generalizing s with
  | zero => cases h
  | succ fuel ih =>
    unfold State.popPort at h
    split at h
    · split at h <;> cases h
    · split at h
      · cases h
        exact s.takePort_fir k i
      · exact (ih h).trans (s.takePort_fir k i)

theorem State.popOne_fir {q : Fin 3} {v : Word} (h : s.popOne k q = .got t v) : (t.elem k).fir = (s.elem k).fir := by
  unfold State.popOne at h
  dsimp only at h
  split at h
  · split at h
    · cases h
    · cases h
      rw [State.elem_setElem_same, setGen]
  · exact State.popPort_fir h
  · cases h

theorem State.popAll_fir {l : List (Fin 3)} {latch : List Word} (h : s.popAll k l latch = .go t vals) :
    (t.elem k).fir = (s.elem k).fir := by
  induction l generalizing s latch with
  | nil =>
    cases h
    rfl
  | cons q l ih =>
    unfold State.popAll at h
    split at h
    · exact (ih h).trans (State.popOne_fir ‹_›)
    · cases h
    · cases h

theorem State.gate_fir {pops : List (Fin 3)} {push : Option (Fin 3)} (h : s.gate k pops push = .go t vals) :
    (t.elem k).fir = (s.elem k).fir := by
  unfold State.gate at h
  dsimp only at h
  split at h
  · cases h
  · cases h
  · split at h
    · have hpop := State.popAll_fir ‹_›
      split at h
      · split at h <;> cases h
        exact hpop
      · cases h
        exact hpop
    · exact State.popAll_fir h

/-- Operands that are ready have been taken with the firing as it was: its send buffer among the rest. -/
theorem ready_fir {ok : Bool} {pops : List (Fin 3)} {push : Option (Fin 3)} (hk : OnElem s k)
    (h : Ready s ok pops push t vals) : (t.elem k).fir = (s.elem k).fir := by
  obtain ⟨d, p, hf, rfl⟩ := hk
  simp only [Ready, hf] at h
  obtain ⟨-, -, rfl, -⟩ | ⟨-, hg⟩ := h
  · rfl
  · exact State.gate_fir hg

/-- An instruction without stream operands has them ready. -/
theorem ready_nil (hk : OnElem s k) (ok : Bool) : Ready s ok [] none s [] := by
  obtain ⟨d, p, hf, rfl⟩ := hk
  simp [Ready, hf]

end

/-! ## The checks of a send (09 R258, R260) -/

section
variable {s t : State} {k o n : Nat} {kind : SendKind} {vals : List Word}

theorem portClosed_false {b : Bind} {sends : List Send} (hopen : b.closed = false)
    (heos : ∀ x ∈ sends, x.port = o → x.tok.kind ≠ .eos) : portClosed b sends o = false := by
  simpa [portClosed, hopen] using heos

/-- A send that may be made passes the checks of its kind. -/
theorem sendFault_maySend
    (h : MaySend s k o n (decide (kind = .tagret)) (decide (kind = .stop ∨ kind = .bulk)) (decide (kind = .mreq))) :
    s.sendFault k o kind = none := by
  obtain ⟨b, hchan, hret, hopen, heos, htagged, hreq, -⟩ := h
  have hleads : kind = .mreq → leadsToReq b = true := fun hm => by simpa [leadsToReq] using hreq (decide_eq_true hm)
  simp only [decide_eq_true_eq, decide_eq_false_iff_not, not_or] at hret htagged
  simp only [State.sendFault, hchan, portClosed_false hopen heos]
  rw [if_neg (by simpa using hret), if_neg Bool.false_ne_true, if_neg (by simpa using htagged), if_neg (by simpa using hleads)]

theorem capacityFault_room (h : (s.elem k).fir.sends.length + n ≤ 256) : s.capacityFault k n = none :=
  if_neg (Nat.not_lt.2 h)

theorem maySend_room {tagret stopOrBulk mreq : Bool} (h : MaySend s k o n tagret stopOrBulk mreq) :
    (s.elem k).fir.sends.length + n ≤ 256 := by
  obtain ⟨_, -, -, -, -, -, -, hroom⟩ := h
  exact hroom

/-- A send of one token that passes its checks appends the token and goes on. -/
theorem sendOne_sends (hk : OnElem s k) {pops : List (Fin 3)} (tok : State → Nat → List Word → Token)
    (h : MaySend s k o 1 (decide (kind = .tagret)) (decide (kind = .stop ∨ kind = .bulk)) (decide (kind = .mreq)))
    (hready : Ready s false pops none t vals) :
    sendOne s o kind pops tok = .next (withSends t k [{ port := o, tok := tok t k vals }]).advance := by
  rw [sendOne, onElement_onElem hk, sendFault_maySend h, capacityFault_room (maySend_room h)]
  exact withOperands_ready hready _

end

/-! ## SEND, SENDT, MREQ, STOP, EOS, TAGRET (09 R261 to R266, R269) -/

section
variable {s t : State} {k : Nat} {vals : List Word}

/-- The next tag of SEND.nx as a number: the context kept, the iteration one on modulo 2^18 (09 R262). -/
theorem nextTag_tagOf (e : Element) :
    nextTag (tagOf e) = BitVec.ofNat 32 (e.xt.toNat / 2 ^ 18 % 2 ^ 14 * 2 ^ 18 + (e.xt.toNat % 2 ^ 18 + 1) % 2 ^ 18) := by
  apply BitVec.eq_of_toNat_eq
  rw [nextTag, BitVec.toNat_append, ← Nat.shiftLeft_add_eq_or_of_lt (BitVec.isLt _), Nat.shiftLeft_eq]
  simp only [tagOf, BitVec.truncate, BitVec.extractLsb'_toNat, BitVec.toNat_setWidth, BitVec.toNat_add, BitVec.toNat_ofNat,
    BitVec.ofNat_eq_ofNat, Nat.shiftRight_eq_div_pow, pow_zero, Nat.div_one]
  omega

theorem exec_send (hk : OnElem s k) {o : BitVec 4} {a : Src} (arm nx : Bool) (hmay : MaySend s k o.toNat 1 false false false)
    (hready : Ready s false (srcPops a) none t vals) : exec (.send o a arm nx) s = .next (withSends t k [{
      port := o.toNat, tok := firingToken t k .data (t.src a vals)
        (if nx then nextTag (tagOf (t.elem k)) else tagOf (t.elem k)) 0 arm false }]).advance := by
  show execSend o a arm nx s = _
  exact sendOne_sends hk (kind := .plain) _ hmay hready

theorem exec_sendt (hk : OnElem s k) {o : BitVec 4} {a b : Src} (arm : Bool) (hmay : MaySend s k o.toNat 1 false false false)
    (hready : Ready s false (srcPops a ++ srcPops b) none t vals) : exec (.sendt o a b arm) s = .next (withSends t k [{
      port := o.toNat,
      tok := firingToken t k .data (t.src a vals) ((t.src b (srcRest a vals)).truncate 32) 0 arm false }]).advance := by
  show execSendt o a b arm s = _
  exact sendOne_sends hk (kind := .plain) _ hmay hready

theorem exec_mreq (hk : OnElem s k) {o : BitVec 4} {a : Src} (hmay : MaySend s k o.toNat 1 false false true)
    (hready : Ready s false (srcPops a) none t vals) : exec (.mreq o a) s = .next (withSends t k [{
      port := o.toNat, tok := firingToken t k .data (t.src a vals) (tagOf (t.elem k)) 0 false false }]).advance := by
  show execMreq o a s = _
  exact sendOne_sends hk (kind := .mreq) _ hmay hready

theorem exec_stop (hk : OnElem s k) {o : BitVec 4} (level : BitVec 3) (hmay : MaySend s k o.toNat 1 false true false) :
    exec (.stop o level) s = .next (withSends s k [{
      port := o.toNat, tok := firingToken s k .stop 0 (tagOf (s.elem k)) level.toNat false false }]).advance := by
  show execStop o level s = _
  exact sendOne_sends hk (kind := .stop) _ hmay (ready_nil hk false)

theorem exec_eos (hk : OnElem s k) {o : BitVec 4} (hmay : MaySend s k o.toNat 1 false false false) :
    exec (.eos o) s = .next (withSends s k [{ port := o.toNat, tok := firingToken s k .eos 0 0 0 false false }]).advance := by
  show execEos o s = _
  exact sendOne_sends hk (kind := .plain) _ hmay (ready_nil hk false)

/-- TAGRET finds the lowest output port of the firing that leads to a return channel. -/
theorem returnPort_first {o : Nat} {b : Bind} (ho : o < 16) (hchan : s.outChannel k o = some b) (hret : b.kind = .ret)
    (hbefore : ∀ j c, j < o → s.outChannel k j = some c → c.kind ≠ .ret) : s.returnPort k = some o := by
  rw [State.returnPort, List.find?_range_eq_some]
  refine ⟨by simp [hchan, hret], List.mem_range.2 ho, fun j hj => ?_⟩
  cases hc : s.outChannel k j with
  | none => rfl
  | some c => simp [hbefore j c hj hc]

theorem exec_tagret (hk : OnElem s k) {o : Nat} {a : Src} (fin : Bool) (hport : s.returnPort k = some o)
    (hmay : MaySend s k o 1 true false false) (hready : Ready s false (srcPops a) none t vals) :
    exec (.tagret a fin) s = .next (withSends t k [{
      port := o, tok := firingToken t k .retire 0 ((t.src a vals).truncate 32) 0 false fin }]).advance := by
  show execTagret a fin s = _
  rw [execTagret, onElement_onElem hk, hport]
  exact sendOne_sends hk (kind := .tagret) _ hmay hready

end

/-! ## SENDB (09 R264) -/

section
variable {s t : State} {k : Nat}

theorem State.load_onElem (hk : OnElem s k) (a n : Nat) : s.load a n = s.emRead k (s.elem k).fir.slot a n := by
  obtain ⟨d, p, hf, rfl⟩ := hk
  simp only [State.load, hf]

/-- The tokens of a bulk message are the bytes as the element in focus reads them, and the stop. -/
theorem State.bulk_onElem (hk : OnElem s k) (o base n : Nat) : s.bulk k o base n = bulkTokens s k o base n := by
  simp only [State.bulk, ← State.load_onElem hk, State.load_eq_bytesAt]
  rfl

/-- Flits of a tile slot: its rows, and with .s its scales. -/
theorem exec_sendbTile (hk : OnElem s k) {o n : BitVec 4} {scale : Bool} (clear : Bool)
    (hmay : MaySend s k o.toNat (if scale then 67 else 65) false true false) (hmq : (s.elem k).mq = [])
    (hfull : (s.elem k).tiles[n.toNat]'n.isLt = .full) :
    exec (.sendbTile o n scale clear) s =
      let u := withSends s k (bulkTokens s k o.toNat (0x9F00 + 528 * n.toNat) (if scale then 66 else 64))
      .next (if clear then u.setElem k (unclean (setTile (u.elem k) n.toNat .empty)) else u).advance := by
  have hslot : slotCheck (s.elem k) n.toNat = .ready := by rw [slotCheck, tileOf_bitVec, hfull]
  have hroom : (s.elem k).fir.sends.length + ((if scale then 66 else 64) + 1) ≤ 256 := by
    have := maySend_room hmay
    cases scale <;> exact this
  show execSendbTile o n scale clear s = _
  rw [execSendbTile, onElement_onElem hk, sendFault_maySend (kind := .bulk) hmay]
  simp only [hmq, hslot, State.sendTile, capacityFault_room hroom, State.bulk_onElem hk]
  rfl

/-- A tile sent with .c leaves its slot empty. -/
theorem sendbTile_clears (hk : OnElem s k) {o n : BitVec 4} {scale : Bool}
    (hmay : MaySend s k o.toNat (if scale then 67 else 65) false true false) (hmq : (s.elem k).mq = [])
    (hfull : (s.elem k).tiles[n.toNat]'n.isLt = .full) :
    ∃ u, exec (.sendbTile o n scale true) s = .next u ∧ SameRegs s u [] [] ∧ SameMemory s u ∧
      (u.elem k).fir.sends = (s.elem k).fir.sends ++
        bulkTokens s k o.toNat (0x9F00 + 528 * n.toNat) (if scale then 66 else 64) ∧
      (u.elem k).tiles = (s.elem k).tiles.set n.toNat .empty n.isLt := by
  refine ⟨_, exec_sendbTile hk true hmay hmq hfull, ?_⟩
  generalize bulkTokens s k o.toNat (0x9F00 + 528 * n.toNat) (if scale then 66 else 64) = l
  rw [if_pos rfl, withSends, State.elem_setElem_same, State.setElem_setElem, setTile_bitVec]
  refine ⟨sameRegs_trans (State.setElem_sameRegs hk _ (by rfl)) (State.advance_sameRegs _ _),
    sameMemory_trans (s.setElem_sameMemory k _ (by rfl)) (State.advance_sameMemory (onElem_setElem hk k _)), ?_⟩
  rw [State.advance_onElem (onElem_setElem hk k _), State.elem_setElem_same, State.elem_setElem_same]
  exact ⟨rfl, rfl⟩

/-- A message of 1 to 255 flits from an address aligned to 8 inside element memory passes the checks of the memory form. -/
theorem bulkFault_none {o : Nat} {base n : DWord} (h1 : 1 ≤ n.toNat) (hn : n.toNat ≤ 255) (halign : base.toNat % 8 = 0)
    (hend : base.toNat + 8 * n.toNat ≤ 0xC000) : bulkFault o base n = none := by
  have hzero : n ≠ 0#64 := fun h => absurd (h ▸ h1) (by decide)
  simp [bulkFault, hzero, halign, emEnd, Nat.not_lt.2 hn, Nat.not_lt.2 hend]

theorem exec_sendbMemory (hk : OnElem s k) {o : BitVec 4} {a : Src} {b : BitVec 5} {vals : List Word}
    (hready : Ready s false (srcPops a) none t vals) (hmay : MaySend s k o.toNat ((t.reg b).toNat + 1) false true false)
    (hpass : bulkFault o.toNat (t.src a vals) (t.reg b) = none) :
    exec (.sendbMemory o a b) s =
      .next (withSends t k (bulkTokens t k o.toNat (t.src a vals).toNat (t.reg b).toNat)).advance := by
  have hroom : (t.elem k).fir.sends.length + ((t.reg b).toNat + 1) ≤ 256 := by
    rw [ready_fir hk hready]
    exact maySend_room hmay
  show execSendbMemory o a b s = _
  rw [execSendbMemory, onElement_onElem hk, sendFault_maySend (kind := .bulk) hmay]
  refine (withOperands_ready hready _).trans ?_
  rw [State.sendBulk, hpass, capacityFault_room hroom, State.bulk_onElem (ready_onElem hk hready)]
  rfl

end

/-- Settles O18: each send by the checks that it passes and the tokens that it appends. -/
theorem sendResult : Obligations.SendResult := by
  refine ⟨fun s k hk => ⟨fun o a arm nx t vals hmay hready => ?_, fun o a b arm t vals => exec_sendt hk arm,
    fun o a t vals => exec_mreq hk, fun o level => exec_stop hk level, fun o => exec_eos hk,
    fun o b a fin t vals ho hchan hret hbefore => exec_tagret hk fin (returnPort_first ho hchan hret hbefore)⟩,
    fun s k hk => ⟨fun o n scale hmay hmq hfull => ⟨exec_sendbTile hk false hmay hmq hfull, sendbTile_clears hk hmay hmq hfull⟩,
      fun o a b t vals hready hmay h1 hn halign hend =>
        exec_sendbMemory hk hready hmay (bulkFault_none h1 hn halign hend)⟩⟩
  rw [exec_send hk arm nx hmay hready, nextTag_tagOf]
  rfl

end Sys2Proof.Machine
end

section
/-! Matrix instructions at issue, MREAD, MWAIT and MSTAT (09 R278 to R290). -/

namespace Sys2Proof.Machine

open Host (Outcome)
open Sys2Proof.Statements

/-! ## Queued instructions (09 R278, R279) -/

section
variable {s : State} {k : Nat}

/-- An address that a queued command may name passes the issue checks. -/
theorem matrixAddrFault_none {e : Element} {a : DWord} {n : Nat} {write : Bool} (h : MatrixAddr e a.toNat n write) :
    matrixAddrFault e a n write = none := by
  obtain ⟨halign, hend, hwrite⟩ := h
  have hopen : (write && (decide (a.toNat < constEnd) || (List.range n).any fun i => inBitmap e (a.toNat + i))) = false := by
    cases write with
    | false => rfl
    | true =>
      obtain ⟨hconst, hbitmap⟩ := hwrite rfl
      simpa [constEnd, Nat.not_lt.2 hconst] using hbitmap
  have hin : ¬a.toNat + n > emEnd := Nat.not_lt.2 hend
  rw [matrixAddrFault, if_neg (not_not.2 halign), if_neg hin, if_neg (Bool.eq_false_iff.1 hopen)]

theorem queued_enqueues (hk : OnElem s k) (c : MCmd) : queued s c = .next (s.enqueue k c) := onElement_onElem hk _

theorem queuedAt_enqueues (hk : OnElem s k) {a : BitVec 5} {n : Nat} {write : Bool} (c : Nat → MCmd)
    (h : MatrixAddr (s.elem k) (s.reg a).toNat n write) : queuedAt s a n write c = .next (s.enqueue k (c (s.reg a).toNat)) := by
  rw [queuedAt, onElement_onElem hk, matrixAddrFault_none h]

/-- A matrix instruction whose address passes the issue checks, or that has none, offers its command to the queue. -/
theorem exec_matrix (hk : OnElem s k) {i : Instr} {c : MCmd} {need : Option (DWord × Nat × Bool)}
    (h : matrixOf s i = some (c, need))
    (haddr : ∀ a n w, need = some (a, n, w) → MatrixAddr (s.elem k) a.toNat n w) : exec i s = .next (s.enqueue k c) := by
  unfold matrixOf at h
  split at h
  case h_10 => cases h
  all_goals cases h
  case h_1 =>
    show execMma .e2m1 _ _ _ _ _ _ s = _
    rw [execMma, if_pos rfl, queuedAt_enqueues hk _ (haddr _ _ _ rfl)]
  case h_2 hmf =>
    show execMma _ _ _ _ _ _ _ s = _
    rw [execMma, if_neg hmf, queued_enqueues hk]
  case h_4 | h_6 | h_7 =>
    dsimp only [exec]
    exact queuedAt_enqueues hk _ (haddr _ _ _ rfl)
  all_goals
    dsimp only [exec]
    exact queued_enqueues hk _

theorem enqueue_room (c : MCmd) (h : (s.elem k).mq.length < 8) :
    s.enqueue k c = (s.setElem k (unclean { s.elem k with mq := (s.elem k).mq ++ [c] })).advance :=
  if_neg (Nat.not_le.2 h)

theorem enqueue_full (c : MCmd) (h : 8 ≤ (s.elem k).mq.length) : s.enqueue k c = s.stall := if_pos h

end

/-! ## MREAD and MWAIT (09 R281, R289) -/

section
variable {s : State} {k : Nat}

theorem afterQueue_empty (hk : OnElem s k) (eff : Nat → State → State) (h : (s.elem k).mq = []) :
    afterQueue s eff = .next (eff k (s.setElem k (unclean (s.elem k)))).advance := by
  rw [afterQueue, onElement_onElem hk, if_neg (not_not.2 h), unclean]

theorem afterQueue_busy (hk : OnElem s k) (eff : Nat → State → State) (h : (s.elem k).mq ≠ []) :
    afterQueue s eff = .next s.stall := by
  rw [afterQueue, onElement_onElem hk, if_pos h]

theorem exec_mread (hk : OnElem s k) (d a : BitVec 5) (acc : BitVec 2) (h : (s.elem k).mq = []) :
    exec (.mread d a acc) s = .next ((s.setElem k (unclean (s.elem k))).setReg d
      ((accWord (s.elem k) acc ((s.reg a).toNat % 64)).zeroExtend 64)).advance := by
  show execMread d a acc s = _
  rw [execMread, afterQueue_empty hk _ h]

theorem exec_mwait (hk : OnElem s k) (h : (s.elem k).mq = []) :
    exec .mwait s = .next (s.setElem k (unclean (s.elem k))).advance := by
  show execMwait s = _
  rw [execMwait, afterQueue_empty hk _ h]

theorem exec_mread_busy (hk : OnElem s k) (d a : BitVec 5) (acc : BitVec 2) (h : (s.elem k).mq ≠ []) :
    exec (.mread d a acc) s = .next s.stall := by
  show execMread d a acc s = _
  rw [execMread, afterQueue_busy hk _ h]

theorem exec_mwait_busy (hk : OnElem s k) (h : (s.elem k).mq ≠ []) : exec .mwait s = .next s.stall := by
  show execMwait s = _
  rw [execMwait, afterQueue_busy hk _ h]

end

/-! ## MSTAT (09 R290) -/

section
variable {e : Element}

/-- A sum of distinct powers of 2 is the number with those bits. -/
theorem sum_two_pow_eq_ofBits (p : Nat → Prop) [DecidablePred p] (n : Nat) :
    ((List.range n).map fun j => if p j then 2 ^ j else 0).sum = Nat.ofBits fun j : Fin n => decide (p j) := by
  induction n generalizing p with
  | zero => rfl
  | succ n ih =>
    have hdouble (j : Nat) : (if p (j + 1) then 2 ^ (j + 1) else 0) = 2 * if p (j + 1) then 2 ^ j else 0 := by
      split <;> simp [pow_succ, Nat.mul_comm]
    have hbit : (if p 0 then 2 ^ 0 else 0) = (decide (p 0)).toNat := by by_cases h : p 0 <;> simp [h]
    rw [List.range_succ_eq_map, List.map_cons, List.sum_cons, List.map_map, Nat.ofBits_succ, Nat.add_comm, hbit]
    simp only [Function.comp_def, Nat.succ_eq_add_one, hdouble, List.sum_map_mul_left, ih]
    rfl

theorem tileMask_eq_ofBits (t : TileState) : tileMask e t = Nat.ofBits fun n : Fin 16 => decide (tileOf e n = t) :=
  sum_two_pow_eq_ofBits _ 16

theorem tileMask_lt (t : TileState) : tileMask e t < 2 ^ 16 := by
  rw [tileMask_eq_ofBits]
  exact Nat.ofBits_lt_two_pow _

theorem tileMask_testBit (t : TileState) (n : Fin 16) : (tileMask e t).testBit n = decide (e.tiles[n] = t) := by
  rw [tileMask_eq_ofBits, Nat.testBit_ofBits_lt _ _ n.isLt]
  simp [tileOf, nth]

/-- The operation count of the microprogram, 0 where none is loaded. -/
def operationCount (e : Element) : Nat :=
  match e.mprog with
  | some im => microCount im
  | none => 0

theorem operationCount_lt : operationCount e < 2 ^ 3 := by
  unfold operationCount
  split
  · exact Nat.mod_lt _ (by decide)
  · decide

/-- With a queue length of 16 bits, the snapshot is its four fields side by side. -/
theorem mstatValue_toNat (h : e.mq.length < 2 ^ 16) : (mstatValue e).toNat =
    2 ^ 16 * (2 ^ 16 * (2 ^ 16 * operationCount e + tileMask e .filling) + tileMask e .full) + e.mq.length := by
  have hfull := tileMask_lt (e := e) .full
  have hfilling := tileMask_lt (e := e) .filling
  have hcount := operationCount_lt (e := e)
  have hfields : mstatValue e = BitVec.ofNat 64 (e.mq.length + tileMask e .full * 2 ^ 16 + tileMask e .filling * 2 ^ 32 +
    operationCount e * 2 ^ 48) := rfl
  rw [hfields, BitVec.toNat_ofNat]
  omega

theorem mstatValue_length (h : e.mq.length < 2 ^ 16) : ((mstatValue e).extractLsb' 0 16).toNat = e.mq.length := by
  rw [BitVec.extractLsb'_toNat, mstatValue_toNat h, Nat.shiftRight_zero]
  omega

theorem mstatValue_full (h : e.mq.length < 2 ^ 16) (n : Fin 16) :
    (mstatValue e).getLsbD (16 + n.val) = decide (e.tiles[n] = .full) := by
  rw [BitVec.getLsbD, mstatValue_toNat h, Nat.testBit_two_pow_mul_add _ h, if_neg (Nat.not_lt.2 (Nat.le_add_right 16 n)),
    Nat.add_sub_cancel_left, Nat.testBit_two_pow_mul_add _ (tileMask_lt _), if_pos n.isLt, tileMask_testBit]

theorem mstatValue_filling (h : e.mq.length < 2 ^ 16) (n : Fin 16) :
    (mstatValue e).getLsbD (32 + n.val) = decide (e.tiles[n] = .filling) := by
  have hhalf : 32 + n.val - 16 - 16 = n := by omega
  rw [BitVec.getLsbD, mstatValue_toNat h, Nat.testBit_two_pow_mul_add _ h, if_neg (by omega),
    Nat.testBit_two_pow_mul_add _ (tileMask_lt _), if_neg (by omega), hhalf, Nat.testBit_two_pow_mul_add _ (tileMask_lt _),
    if_pos n.isLt, tileMask_testBit]

theorem mstatValue_div (h : e.mq.length < 2 ^ 16) : (mstatValue e).toNat / 2 ^ 48 = operationCount e := by
  have hfull := tileMask_lt (e := e) .full
  have hfilling := tileMask_lt (e := e) .filling
  rw [mstatValue_toNat h]
  omega

theorem mstatValue_count (h : e.mq.length < 2 ^ 16) : ((mstatValue e).extractLsb' 48 3).toNat = operationCount e := by
  rw [BitVec.extractLsb'_toNat, Nat.shiftRight_eq_div_pow, mstatValue_div h, Nat.mod_eq_of_lt operationCount_lt]

/-- Nothing stands above the operation count. -/
theorem mstatValue_reserved (h : e.mq.length < 2 ^ 16) : (mstatValue e).extractLsb' 51 13 = 0 := by
  have hdiv : (mstatValue e).toNat / 2 ^ 51 = 0 := by
    rw [show 2 ^ 51 = 2 ^ 48 * 2 ^ 3 from rfl, ← Nat.div_div_eq_div_mul, mstatValue_div h, Nat.div_eq_of_lt operationCount_lt]
  apply BitVec.eq_of_toNat_eq
  rw [BitVec.extractLsb'_toNat, Nat.shiftRight_eq_div_pow, hdiv]
  rfl

/-- The queue holds 8 commands at most: the upper bits of its length are zero. -/
theorem mstatValue_length_reserved (h : e.mq.length ≤ 8) : (mstatValue e).extractLsb' 4 12 = 0 := by
  apply BitVec.eq_of_toNat_eq
  rw [BitVec.extractLsb'_toNat, mstatValue_toNat (by omega), Nat.shiftRight_eq_div_pow]
  change _ = 0
  omega

end

theorem exec_mstat {s : State} {k : Nat} (hk : OnElem s k) (d : BitVec 5) :
    exec (.mstat d) s = .next (s.setReg d (mstatValue (s.elem k))).advance := by
  show execMstat d s = _
  rw [execMstat, onElement_onElem hk]

/-- Settles O20: a queued command by the issue checks, MREAD and MWAIT by the queue, MSTAT by the fields of its snapshot. -/
theorem matrixInstructions : Obligations.MatrixInstructions := by
  refine ⟨fun s k hk i c need hm haddr => ?_, fun s k hk => ⟨fun hempty => ?_, fun hbusy => ?_, fun d => ?_⟩⟩
  · rw [exec_matrix hk hm haddr]
    exact ⟨fun hroom => by rw [enqueue_room c hroom], fun hfull => by rw [enqueue_full c hfull]⟩
  · exact ⟨fun d a acc => exec_mread hk d a acc hempty, exec_mwait hk hempty⟩
  · exact ⟨fun d a acc => exec_mread_busy hk d a acc hbusy, exec_mwait_busy hk hbusy⟩
  · exact ⟨_, exec_mstat hk d, mstatValue_length, fun h n => ⟨mstatValue_full h n, mstatValue_filling h n⟩,
      fun h => ⟨mstatValue_reserved h, mstatValue_count h⟩, mstatValue_length_reserved⟩

end Sys2Proof.Machine
end

section
/-! The commands that cut, count and set what a colour has on a die, and the holds of a generation (14 R391, R392, R394, R396 to
R398; 12 R324). -/

namespace Sys2Proof.Machine

open Sys2Proof.Statements

/-! ## A command that may be performed (14 R374) -/

section
variable {s : State} {die ticket d : Nat} {c : Cmd} {i : Instr} {mine ok : Cmd → Bool} {eff : State → Cmd → Nat → Result}
  {v : Nat} {ps : List Nat} {u : State} {r : Result} {P : State → Prop} (h : Issued s die ticket c d)
  (hi : exec i s = command die ticket mine ok eff s) (hm : mine c = true) (hok : ok c = true)
include h hi hm hok

/-- A command that may be performed is posted with what it comes to on its die, unless it waits. -/
theorem exec_of_issued (hr : eff (taken s die ticket) c d = r) (hw : r ≠ .wait) :
    exec i s = .next ((taken s die ticket).post die ticket c.code r) := by
  obtain ⟨⟨t, ht, hp, rfl, hh⟩, ha, hrsv, hd⟩ := h
  rw [hi]
  refine command_issued die ticket mine ok eff s t r ht hp hm hh ha ?_ hw
  rw [hok]
  exact (State.runCmd_good (taken s die ticket) _ _ d hrsv hd).trans hr

theorem completes_of_issued (hr : eff (taken s die ticket) c d = .done v u) (hP : P u) :
    Completes i s die ticket c v P :=
  ⟨u, exec_of_issued h hi hm hok hr nofun, hP⟩

theorem performs_of_issued (hr : eff (taken s die ticket) c d = .later v ps u) (hP : P u) : Performs i s die ticket v ps P :=
  ⟨u, exec_of_issued h hi hm hok hr nofun, hP⟩

end

/-! ## Folds and maps over numbered parts -/

/-- A fold that applies `f` to the part of each number it visits: a part visited more than once is as after the first visit. -/
theorem foldl_apply {α : Type} {get : State → Nat → α} {f : α → α} {key : Nat → Nat} {step : State → Nat → State}
    (hstep : ∀ t n k, get (step t n) k = if k = key n then f (get t k) else get t k) (hf : ∀ a, f (f a) = f a) (l : List Nat)
    (s : State) (k : Nat) : get (l.foldl step s) k = if k ∈ l.map key then f (get s k) else get s k := by
  induction l generalizing s with
  | nil => rfl
  | cons n l ih =>
    rw [List.foldl_cons, ih, hstep, List.map_cons]
    by_cases hn : k = key n <;> by_cases hl : k ∈ l.map key <;> simp [hn, hl, hf]

theorem mem_of_tabGet {α : Type} {t : Tab α} {k : Nat} {x : α} (h : tabGet t k = some x) : (k, x) ∈ t := by
  induction t with
  | nil => cases h
  | cons p t ih =>
    obtain ⟨j, y⟩ := p
    rw [tabGet] at h
    split at h
    · next hj => exact hj ▸ Option.some.inj h ▸ List.mem_cons_self
    · exact List.mem_cons_of_mem _ (ih h)

/-- A map that keeps the keys of a table acts on each entry. -/
theorem tabGet_map {α : Type} {f : Nat × α → Nat × α} {g : Nat → α → α} (hf : ∀ x, f x = (x.1, g x.1 x.2)) (t : Tab α)
    (k : Nat) : tabGet (t.map f) k = (tabGet t k).map (g k) := by
  induction t with
  | nil => rfl
  | cons p t ih =>
    obtain ⟨j, y⟩ := p
    rw [List.map_cons, hf, tabGet, tabGet]
    split
    · next hj => rw [hj]; rfl
    · exact ih

section
variable (s : State)

theorem State.mapElems_elem (die : Nat) {f : Element → Element} (hf : ∀ e, f (f e) = f e) (ps : List Nat) (k : Nat) :
    (s.mapElems die f ps).elem k = if k ∈ ps.map (elemKey die) then f (s.elem k) else s.elem k := by
  refine foldl_apply (fun t p k => ?_) hf ps s k
  split
  · next h => rw [h, State.elem_setElem_same]
  · next h => exact t.elem_setElem_other _ h

/-- Only the elements change. -/
theorem State.mapElems_rest (die : Nat) (f : Element → Element) (ps : List Nat) :
    ∃ es, s.mapElems die f ps = { s with elems := es } := by
  unfold State.mapElems
  induction ps generalizing s with
  | nil => exact ⟨_, rfl⟩
  | cons p ps ih => exact ih (s.setElem _ _)

/-- Only the memory actors change. -/
theorem State.mapMas_rest (die : Nat) (f : MemActor → MemActor) (ns : List Nat) :
    ∃ ms, s.mapMas die f ns = { s with mas := ms } := by
  unfold State.mapMas
  induction ns generalizing s with
  | nil => exact ⟨_, rfl⟩
  | cons n ns ih => exact ih (s.mapMa die n f)

end

/-! ## WEIR (14 R391) -/

section
variable {s : State} {d colour : Nat}

/-- With no move of the colour under way there is none to call off. -/
theorem State.cancelMoves_of_noMoves (h : NoMoves s colour) (d : Nat) : s.cancelMoves d colour = s := by
  have hnone : (s.moves.filter fun x => x.2.1 = colour && (x.1.src / 6400 = d || x.1.dst / 6400 = d)) = [] :=
    List.filter_eq_nil_iff.2 fun x hx => by simp [h x hx]
  rw [State.cancelMoves, hnone]
  rfl

/-- Closing dispatch changes elements alone. -/
theorem State.closeDispatch_rest : ∃ es, s.closeDispatch d colour = { s with elems := es } := s.mapElems_rest _ _ _

/-- A configured element has an entry in the table of elements. -/
theorem State.mem_elems_of_configured {k : Nat} (h : (s.elem k).configured = true) : (k, s.elem k) ∈ s.elems := by
  cases hk : tabGet s.elems k with
  | none => simp [State.elem, hk, Element.reset] at h
  | some e => rw [State.elem, hk]; exact mem_of_tabGet hk

/-- Dispatch closes at every open element of the colour on the die. -/
theorem State.closeDispatch_elem {p : Nat} (hp : p < 6400) (hconf : (s.elem (elemKey d p)).configured = true)
    (hcol : (s.elem (elemKey d p)).colour = colour) (hopen : (s.elem (elemKey d p)).cut = .open) :
    (s.closeDispatch d colour).elem (elemKey d p) = { s.elem (elemKey d p) with cut := .closed } := by
  have hdie : elemKey d p / 6400 = d := by unfold elemKey; omega
  have hpos : elemKey d p % 6400 = p := by unfold elemKey; omega
  rw [State.closeDispatch, State.mapElems_elem, if_pos, if_pos (by simp [hconf, hopen])]
  · refine List.mem_map_of_mem (List.mem_map.2 ⟨_, List.mem_filter.2 ⟨State.mem_elems_of_configured hconf, ?_⟩, hpos⟩)
    simp [hdie, hconf, hcol]
  · intro e
    split <;> simp [*]

/-- A token that leaves marks bindings and adds packets. -/
theorem State.tryEmit_rest {src : Source} {load : Nat} {t : Token} {u : State} (h : s.tryEmit src load t = some u) :
    ∃ bs ps, u = { s with binds := bs, packets := ps } := by
  cases hb : s.srcBind src t.colour load with
  | none => simp [State.tryEmit, hb] at h
  | some b =>
    simp only [State.tryEmit, hb, Option.ite_none_right_eq_some, Option.some.injEq] at h
    obtain ⟨-, rfl⟩ := h
    cases hstray : strayStop b t with
    | true => exact ⟨s.binds, s.packets, by simp [State.emit, hb, hstray]⟩
    | false => exact ⟨_, _, s.emit_bound src load b t hb hstray⟩

theorem State.payWeir_rest (s : State) (d colour n : Nat) :
    ∃ bs ps, s.payWeir d colour n = { s with binds := bs, packets := ps } := by
  unfold State.payWeir
  split
  · next b _ =>
    cases hu : s.tryEmit b.source (b.load.getD 0) (markerToken .weir colour) with
    | none => exact ⟨s.binds, s.packets, rfl⟩
    | some u => exact State.tryEmit_rest hu
  · exact ⟨s.binds, s.packets, rfl⟩

/-- A headgate at which a weir is placed: a stream that was open is held. -/
def heldGate (h : Headgate) : Headgate := { h with st := if h.st = .streaming then .holding else h.st }

theorem heldGate_heldGate (h : Headgate) : heldGate (heldGate h) = heldGate h := by
  unfold heldGate
  split <;> simp [*]

/-- A weir at a headgate changes that headgate, bindings and packets. -/
theorem State.weirGate_rest (s : State) (d colour n : Nat) : ∃ bs ps,
    s.weirGate d colour n = { s.setHead (d * 16 + n) (heldGate (s.head (d * 16 + n))) with binds := bs, packets := ps } :=
  State.payWeir_rest _ _ _ _

theorem State.weirGate_head (s : State) (d colour n k : Nat) :
    (s.weirGate d colour n).head k = if k = d * 16 + n then heldGate (s.head k) else s.head k := by
  obtain ⟨bs, ps, h⟩ := s.weirGate_rest d colour n
  rw [h]
  split
  · next hk => exact hk ▸ State.head_setHead_same _ _ _
  · next hk => exact State.head_setHead_other _ _ hk

/-- Weirs at several headgates change headgates, bindings and packets. -/
theorem State.weirGates_rest (s : State) (d colour : Nat) (l : List Nat) : ∃ hs bs ps,
    l.foldl (fun t n => t.weirGate d colour n) s = { s with heads := hs, binds := bs, packets := ps } := by
  induction l generalizing s with
  | nil => exact ⟨_, _, _, rfl⟩
  | cons n l ih =>
    obtain ⟨bs, ps, h⟩ := s.weirGate_rest d colour n
    rw [List.foldl_cons, h]
    exact ih _

/-- The state in which a WEIR places its weirs: dispatch closed where it says so, the cut begun in the staging, memory actors at
their weirs again. -/
def State.weirBegun (s : State) (d colour : Nat) (close : Bool) : State :=
  let t := if close then s.closeDispatch d colour else s
  (t.setStaging d colour { t.staging d colour with weir := true }).mapMas d weirAgain (t.colourSlots d colour)

/-- Beginning a cut changes elements by closing dispatch alone, and no headgate. -/
theorem State.weirBegun_rest (s : State) (d colour : Nat) (close : Bool) : ∃ ms, s.weirBegun d colour close =
    { s.setStaging d colour { s.staging d colour with weir := true } with
      elems := (if close then s.closeDispatch d colour else s).elems, mas := ms } := by
  unfold State.weirBegun
  cases close with
  | false => exact State.mapMas_rest _ _ _ _
  | true =>
    obtain ⟨es, he⟩ := s.closeDispatch_rest (d := d) (colour := colour)
    simp only [if_true, he]
    exact State.mapMas_rest _ _ _ _

/-- With no move of the colour under way, a WEIR begins the cut and places a weir at each headgate of the colour. -/
theorem State.weir_of_noMoves (h : NoMoves s colour) (close : Bool) : s.weir d colour close =
    (s.gatesOf d colour).foldl (fun t n => t.weirGate d colour n) (s.weirBegun d colour close) := by
  have hgates : (s.weirBegun d colour close).gatesOf d colour = s.gatesOf d colour := by
    obtain ⟨ms, hb⟩ := s.weirBegun_rest d colour close
    rw [hb]
    rfl
  rw [State.weir, State.cancelMoves_of_noMoves h, ← hgates]
  rfl

/-- Elements are as after closing dispatch, where the WEIR says so. -/
theorem State.weir_elem (h : NoMoves s colour) (close : Bool) (k : Nat) :
    (s.weir d colour close).elem k = (if close then s.closeDispatch d colour else s).elem k := by
  obtain ⟨ms, hb⟩ := s.weirBegun_rest d colour close
  obtain ⟨hs, bs, ps, hg⟩ := (s.weirBegun d colour close).weirGates_rest d colour (s.gatesOf d colour)
  rw [State.weir_of_noMoves h, hg, hb]
  rfl

theorem State.weir_staging (h : NoMoves s colour) (close : Bool) : ((s.weir d colour close).staging d colour).weir = true := by
  obtain ⟨ms, hb⟩ := s.weirBegun_rest d colour close
  obtain ⟨hs, bs, ps, hg⟩ := (s.weirBegun d colour close).weirGates_rest d colour (s.gatesOf d colour)
  rw [State.weir_of_noMoves h, hg, hb]
  simp [State.staging, tabGet_tabSet_same]

/-- Every headgate of the colour on the die is held. -/
theorem State.weir_head (h : NoMoves s colour) (close : Bool) {n : Nat} (hn : n < 16)
    (hcol : (s.head (d * 16 + n)).colour = some colour) :
    (s.weir d colour close).head (d * 16 + n) = heldGate (s.head (d * 16 + n)) := by
  obtain ⟨ms, hb⟩ := s.weirBegun_rest d colour close
  have hmem : n ∈ s.gatesOf d colour := List.mem_filter.2 ⟨List.mem_range.2 hn, by simpa using hcol⟩
  rw [State.weir_of_noMoves h, foldl_apply (get := State.head) (key := (d * 16 + ·)) (fun t n k => t.weirGate_head d colour n k)
    heldGate_heldGate, if_pos (List.mem_map_of_mem hmem), hb]
  rfl

end

/-- A WEIR of the whole colour. -/
theorem weir_completes {s : State} {die ticket d : Nat} {c : Cmd} (h : Issued s die ticket c d) (hcode : c.code = 0x11)
    (hfl : c.fl < 2) (harg : c.arg = 0) (hopd : c.opd = 0) (htgt : c.tgt = allTargets) (hmoves : NoMoves s c.colour) :
    Completes (.weir die ticket) s die ticket c (s.weirSources d c.colour) fun u => u.phys = s.phys ∧
      (u.staging d c.colour).weir = true ∧
      (∀ n, n < 16 → (s.head (d * 16 + n)).colour = some c.colour → (s.head (d * 16 + n)).st = .streaming →
        (u.head (d * 16 + n)).st = .holding) ∧
      ∀ p, p < 6400 → let e := s.elem (elemKey d p)
        e.configured = true → e.colour = c.colour → e.cut = .open →
          u.elem (elemKey d p) = if c.fl = 1 then { e with cut := .closed } else e := by
  have hmoves : NoMoves (taken s die ticket) c.colour := hmoves
  refine completes_of_issued h (show execWeir die ticket s = _ from rfl) (by simp [hcode])
    (by simp [hfl, plainOk, harg, hopd]) (u := (taken s die ticket).weir d c.colour (c.fl = 1)) (if_neg (by simp [htgt]))
    ⟨State.weir_phys _ _ _ _, State.weir_staging hmoves _, fun n hn hcol hst => ?_, fun p hp hconf hcol hopen => ?_⟩
  · have hhead := State.weir_head hmoves (c.fl = 1) hn hcol
    have hst' : ((taken s die ticket).head (d * 16 + n)).st = .streaming := hst
    simp [hhead, heldGate, hst']
  · rw [State.weir_elem hmoves]
    by_cases hclose : c.fl = 1
    · rw [if_pos (decide_eq_true hclose), if_pos hclose]
      exact State.closeDispatch_elem hp hconf hcol hopen
    · rw [if_neg (by simpa using hclose), if_neg hclose]
      rfl

/-- COLOUR.READ (14 R392) comes to the tokens of the colour in flight. -/
theorem exec_colourRead {s : State} {die ticket d : Nat} {c : Cmd} (h : Issued s die ticket c d) (hcode : c.code = 0x12)
    (hfl : c.fl = 0) (htgt : c.tgt = 0) (harg : c.arg = 0) (hopd : c.opd = 0) : exec (.colourRead die ticket) s =
      .next ((taken s die ticket).finish die ticket c.code 0 ((taken s die ticket).inFlight c.colour)) :=
  exec_of_issued h (show execColourRead die ticket s = _ from rfl) (by simp [hcode]) (by simp [plainOk, hfl, htgt, harg, hopd])
    (r := .done ((taken s die ticket).inFlight c.colour) (taken s die ticket)) rfl nofun

/-! ## SLUICE.SET (14 R394) -/

section
variable {s : State} {die ticket d : Nat} {c : Cmd}

theorem State.poolTargets_one (htgt : c.tgt < 16) : s.poolTargets d c = [c.tgt] :=
  if_neg (by unfold allTargets; omega)

theorem sluiceSet_completes (h : Issued s die ticket c d) (hcode : c.code = 0x15) (hfl : c.fl = 0) (hok : sluiceOk 0 c = true)
    (htgt : c.tgt < 16) (hplot : s.holdsPlot d c.colour = true) (hidle : poolInUse (s.pool (d * 16 + c.tgt)) = false)
    (hsize : 1 ≤ c.opd / 2 ^ 16) (hend : c.opd % 2 ^ 14 + c.opd / 2 ^ 16 ≤ 16384)
    (hfree : s.poolOverlap d c.colour c.tgt (c.opd % 2 ^ 14) (c.opd / 2 ^ 16) = false) :
    Completes (.sluiceSet die ticket) s die ticket c 0 fun u => u.elems = s.elems ∧ u.pool (d * 16 + c.tgt) =
      { Pool.reset with valid := true, colour := c.colour, base := c.opd % 2 ^ 14, size := c.opd / 2 ^ 16 } := by
  have hplot' : (taken s die ticket).holdsPlot d c.colour = true := hplot
  have hidle' : poolInUse ((taken s die ticket).pool (d * 16 + c.tgt)) = false := hidle
  have hfree' : (taken s die ticket).poolOverlap d c.colour c.tgt (c.opd % 2 ^ 14) (c.opd / 2 ^ 16) = false := hfree
  refine completes_of_issued h (show execSluiceSet die ticket s = _ from rfl) (by simp [hcode, hfl]) hok
    (u := (taken s die ticket).setPool (d * 16 + c.tgt)
      { Pool.reset with valid := true, colour := c.colour, base := c.opd % 2 ^ 14, size := c.opd / 2 ^ 16 }) ?_
    ⟨rfl, State.pool_setPool_same _ _ _⟩
  simp only [State.poolTargets_one htgt]
  rw [if_neg (by simp only [List.any_cons, List.any_nil, hfree']; simp; omega), if_neg (by simp [hplot']),
    if_neg (by simp [hidle'])]
  rfl

theorem sluiceClear_completes (h : Issued s die ticket c d) (hcode : c.code = 0x15) (hfl : c.fl = 1) (hok : sluiceOk 1 c = true)
    (htgt : c.tgt < 16) (hplot : s.holdsPlot d c.colour = true) (hidle : poolInUse (s.pool (d * 16 + c.tgt)) = false) :
    Completes (.sluiceClear die ticket) s die ticket c 0 fun u =>
      u.elems = s.elems ∧ u.pool (d * 16 + c.tgt) = Pool.reset := by
  have hplot' : (taken s die ticket).holdsPlot d c.colour = true := hplot
  have hidle' : poolInUse ((taken s die ticket).pool (d * 16 + c.tgt)) = false := hidle
  refine completes_of_issued h (show execSluiceClear die ticket s = _ from rfl) (by simp [hcode, hfl]) hok
    (u := (taken s die ticket).setPool (d * 16 + c.tgt) Pool.reset) ?_ ⟨rfl, State.pool_setPool_same _ _ _⟩
  simp only [State.poolTargets_one htgt]
  rw [if_neg (by simpa using htgt), if_neg (by simp [hplot']), if_neg (by simp [hidle'])]
  rfl

end

/-! ## GEN.MARK (14 R397, 12 R324) -/

/-- Whether a resident is the generation of an index. -/
def isGeneration (index gen : Nat) (r : Resident) : Bool := r.index = index && r.gen = gen

/-- A resident with its holds changed. -/
def Resident.mapHolds (f : Nat → Nat) (r : Resident) : Resident := { r with holds := f r.holds }

section
variable {s : State} {index gen : Nat} {r : Resident}

theorem State.mapGen_store (f : Nat → Nat) : (s.mapGen index gen f).store =
    s.store.map fun q => if isGeneration index gen q then q.mapHolds f else q := rfl

/-- The generation found is that whose holds are changed. -/
theorem State.mapGen_find (hr : s.store.find? (isGeneration index gen) = some r) (f : Nat → Nat) :
    (s.mapGen index gen f).store.find? (isGeneration index gen) = some (r.mapHolds f) := by
  have hsame : (isGeneration index gen ∘ fun q => if isGeneration index gen q then q.mapHolds f else q) =
      isGeneration index gen := by
    funext q
    rw [Function.comp_apply]
    split <;> rfl
  rw [State.mapGen_store, List.find?_map, hsame, hr, Option.map_some, if_pos (List.find?_some hr)]

/-- A generation of the store after a change of holds has the name and the number of one before. -/
theorem State.mem_mapGen {f : Nat → Nat} {q : Resident} (hq : q ∈ (s.mapGen index gen f).store) :
    ∃ p ∈ s.store, q.name = p.name ∧ q.gen = p.gen := by
  obtain ⟨p, hp, rfl⟩ := List.mem_map.1 hq
  refine ⟨p, hp, ?_⟩
  split <;> exact ⟨rfl, rfl⟩

/-- Names and numbers stay. -/
theorem State.mapGen_mem {f : Nat → Nat} {p : Resident} (hp : p ∈ s.store) :
    ∃ q ∈ (s.mapGen index gen f).store, q.name = p.name ∧ q.gen = p.gen := by
  refine ⟨_, List.mem_map_of_mem hp, ?_⟩
  split <;> exact ⟨rfl, rfl⟩

/-- The generation after a change of holds is that before, with its holds changed. -/
theorem State.mem_mapGen_generation {f : Nat → Nat} {q : Resident} (hq : q ∈ (s.mapGen index gen f).store)
    (hgen : isGeneration index gen q = true) : ∃ p ∈ s.store, isGeneration index gen p = true ∧ q = p.mapHolds f := by
  rw [State.mapGen_store] at hq
  obtain ⟨p, hp, rfl⟩ := List.mem_map.1 hq
  split at hgen
  · next hpgen => exact ⟨p, hp, hpgen, if_pos hpgen⟩
  · next hother => exact absurd hgen hother

/-- What is found and passes a filter is found behind it. -/
theorem find?_filter_of_some {α : Type} {p q : α → Bool} {l : List α} {a : α} (h : l.find? q = some a) (ha : p a = true) :
    (l.filter p).find? q = some a := by
  obtain ⟨hq, xs, ys, rfl, hxs⟩ := List.find?_eq_some_iff_append.1 h
  rw [List.find?_filter, List.find?_eq_some_iff_append]
  exact ⟨by simp [hq, ha], xs, ys, rfl, fun x hx => by simp [hxs x hx]⟩

/-- A generation that is held, or the newest of its name, stays as the old ones leave. -/
theorem State.unloadOld_find_kept (hr : s.store.find? (isGeneration index gen) = some r)
    (hkept : r.holds ≠ 0 ∨ ∀ q ∈ s.store, q.name = r.name → q.gen ≤ r.gen) :
    s.unloadOld.store.find? (isGeneration index gen) = some r := by
  refine find?_filter_of_some hr ?_
  rcases hkept with hheld | hnewest
  · simp [hheld]
  · simpa using .inr hnewest

/-- One that nothing holds leaves where a newer one of its name is resident. -/
theorem State.unloadOld_find_none (hfree : ∀ q ∈ s.store, isGeneration index gen q = true → q.holds = 0 ∧
    ∃ p ∈ s.store, p.name = q.name ∧ q.gen < p.gen) : s.unloadOld.store.find? (isGeneration index gen) = none := by
  refine List.find?_eq_none.2 fun q hq hgen => ?_
  obtain ⟨hmem, hkept⟩ := List.mem_filter.1 hq
  obtain ⟨hholds, p, hp, hname, hnewer⟩ := hfree q hmem hgen
  simp only [hholds, ne_eq, not_true_eq_false, decide_false, Bool.false_or, Bool.not_eq_true', List.any_eq_false] at hkept
  exact hkept p hp (by simp [hname, hnewer])

end

section
variable {s : State} {die ticket d : Nat} {c : Cmd} {r : Resident}

/-- A GEN.MARK of a resident generation whose holds allow the action comes to the new count. -/
theorem State.genMark_resident (hl : c.ldie = 0) (hr : s.store.find? (isGeneration (c.opd % 2 ^ 32) (c.opd / 2 ^ 32)) = some r)
    {ok : Nat → Bool} (hok : ok r.holds = true) (f : Nat → Nat) : s.genMark c ok f = .done (f r.holds)
      (if f r.holds < r.holds then (s.mapGen (c.opd % 2 ^ 32) (c.opd / 2 ^ 32) f).unloadOld
        else s.mapGen (c.opd % 2 ^ 32) (c.opd / 2 ^ 32) f) := by
  have hr' : (s.store.find? fun r => r.index = c.opd % 2 ^ 32 && r.gen = c.opd / 2 ^ 32) = some r := hr
  simp only [State.genMark, hr']
  rw [if_neg (not_not.2 hl), if_neg (by simp [hok])]

variable (h : Issued s die ticket c d) (hcode : c.code = 0x18) (htgt : c.tgt = 0) (harg : c.arg = 0) (hl : c.ldie = 0)
  (hr : s.store.find? (isGeneration (c.opd % 2 ^ 32) (c.opd / 2 ^ 32)) = some r)
include h hcode htgt harg hl hr

theorem genMarkHold_completes (hfl : c.fl = 0) : Completes (.genMarkHold die ticket) s die ticket c (r.holds + 1) fun u =>
    u.store.find? (isGeneration (c.opd % 2 ^ 32) (c.opd / 2 ^ 32)) = some { r with holds := r.holds + 1 } ∧
      u.elems = s.elems :=
  completes_of_issued h (show execGenMarkHold die ticket s = _ from rfl) (by simp [isMark, hcode, hfl])
    (by simp [markOk, hfl, htgt, harg]) (u := (taken s die ticket).mapGen (c.opd % 2 ^ 32) (c.opd / 2 ^ 32) (· + 1))
    ((State.genMark_resident (s := taken s die ticket) hl hr rfl (· + 1)).trans (by rw [if_neg (by omega)]))
    ⟨State.mapGen_find (s := taken s die ticket) hr _, rfl⟩

theorem genMarkQuery_completes (hfl : c.fl = 2) : Completes (.genMarkQuery die ticket) s die ticket c r.holds fun u =>
    u.store.find? (isGeneration (c.opd % 2 ^ 32) (c.opd / 2 ^ 32)) = some r ∧ u.elems = s.elems :=
  completes_of_issued h (show execGenMarkQuery die ticket s = _ from rfl) (by simp [isMark, hcode, hfl])
    (by simp [markOk, hfl, htgt, harg]) (u := (taken s die ticket).mapGen (c.opd % 2 ^ 32) (c.opd / 2 ^ 32) id)
    ((State.genMark_resident (s := taken s die ticket) hl hr rfl id).trans (by rw [if_neg (by simp)]; rfl))
    ⟨State.mapGen_find (s := taken s die ticket) hr _, rfl⟩

theorem genMarkRelease_completes (hfl : c.fl = 1) (hheld : r.holds ≠ 0) :
    Completes (.genMarkRelease die ticket) s die ticket c (r.holds - 1) fun u => u.elems = s.elems ∧
      (2 ≤ r.holds ∨ (∀ q ∈ s.store, q.name = r.name → q.gen ≤ r.gen) →
        u.store.find? (isGeneration (c.opd % 2 ^ 32) (c.opd / 2 ^ 32)) = some { r with holds := r.holds - 1 }) ∧
      (r.holds = 1 → s.store.filter (isGeneration (c.opd % 2 ^ 32) (c.opd / 2 ^ 32)) = [r] →
        (∃ q ∈ s.store, q.name = r.name ∧ r.gen < q.gen) →
          u.store.find? (isGeneration (c.opd % 2 ^ 32) (c.opd / 2 ^ 32)) = none) := by
  refine completes_of_issued h (show execGenMarkRelease die ticket s = _ from rfl) (by simp [isMark, hcode, hfl])
    (by simp [markOk, hfl, htgt, harg]) (u := ((taken s die ticket).mapGen (c.opd % 2 ^ 32) (c.opd / 2 ^ 32) (· - 1)).unloadOld)
    ((State.genMark_resident (s := taken s die ticket) hl hr (by simpa using hheld) (· - 1)).trans (by rw [if_pos (by omega)]))
    ⟨rfl, fun hkept => ?_, fun hone honly hnewer => ?_⟩
  · refine State.unloadOld_find_kept (State.mapGen_find (s := taken s die ticket) hr _)
      (hkept.imp ?_ fun hnewest q hq hname => ?_)
    · intro htwo
      show r.holds - 1 ≠ 0
      omega
    · obtain ⟨p, hp, hpname, hpgen⟩ := State.mem_mapGen hq
      exact hpgen ▸ hnewest p hp (hpname.symm.trans hname)
  · refine State.unloadOld_find_none fun q hq hgen => ?_
    obtain ⟨p, hp, hpgen, rfl⟩ := State.mem_mapGen_generation hq hgen
    obtain rfl : p = r := List.mem_singleton.1 (honly ▸ List.mem_filter.2 ⟨hp, hpgen⟩)
    obtain ⟨n, hn, hname, hgt⟩ := hnewer
    obtain ⟨n', hn', hname', hgen'⟩ := State.mapGen_mem (s := taken s die ticket) (index := c.opd % 2 ^ 32)
      (gen := c.opd / 2 ^ 32) (f := (· - 1)) hn
    exact ⟨show p.holds - 1 = 0 by omega, n', hn', hname'.trans hname, hgen' ▸ hgt⟩

end

/-! ## XLATE.ROOT (14 R398) -/

/-- A memory actor of a die on which the root of a colour is set: the colour's translations are gone, and a walk for it ends. -/
def rerooted (colour : Nat) (m : MemActor) : MemActor :=
  { m with tlb := m.tlb.filter fun t => t.colour ≠ colour, walking := if m.colour = colour then none else m.walking }

theorem State.setRoot_ma (s : State) (d colour : Nat) (root : Option Nat) (n : Nat) (hn : n < 64) :
    (s.setRoot d colour root).ma (maKey d n) = rerooted colour (s.ma (maKey d n)) := by
  have hdie : maKey d n / 64 = d := by unfold maKey; omega
  have hget := tabGet_map (g := fun k m => if k / 64 = d then rerooted colour m else m)
    (f := fun x => if x.1 / 64 = d then (x.1, rerooted colour x.2) else x) (fun x => by split <;> rfl) s.mas (maKey d n)
  have hma : (s.setRoot d colour root).ma (maKey d n) =
      ((tabGet s.mas (maKey d n)).map (rerooted colour)).getD MemActor.reset := by
    simp only [hdie, if_true] at hget
    exact congrArg (Option.getD · MemActor.reset) hget
  rw [hma, State.ma]
  cases tabGet s.mas (maKey d n) with
  | none =>
    show MemActor.reset = rerooted colour MemActor.reset
    unfold rerooted
    split <;> rfl
  | some m => rfl

theorem xlateRoot_performs {s : State} {die ticket d : Nat} {c : Cmd} (h : Issued s die ticket c d) (hcode : c.code = 0x19)
    (htgt : c.tgt = 0) (harg : c.arg = 0) (hpage : c.opd % 2 ^ 16 = 0) (hopd : c.opd < 2 ^ 52) (hfl : c.fl < 2)
    (hspace : paSpace c.opd = 0) (hexists : s.paExists c.opd = true) :
    Performs (.xlateRoot die ticket) s die ticket 0 [] fun u =>
      tabGet u.roots (d * 16 + c.colour) = some (if c.fl = 0 then none else some c.opd) ∧
        (∀ n, n < 64 → ∀ x ∈ (u.ma (maKey d n)).tlb, x.colour ≠ c.colour) ∧ u.phys = s.phys ∧ u.elems = s.elems := by
  have hexists' : (taken s die ticket).paExists c.opd = true := hexists
  refine performs_of_issued h (show execXlateRoot die ticket s = _ from rfl) (by simp [hcode])
    (by simp [hfl, htgt, harg]; omega) (u := (taken s die ticket).setRoot d c.colour (if c.fl = 0 then none else some c.opd))
    (if_neg (by simp [hspace, hexists']))
    ⟨tabGet_tabSet_same _ _ _, fun n hn x hx => ?_, rfl, rfl⟩
  rw [State.setRoot_ma _ _ _ _ n hn] at hx
  simpa using (List.mem_filter.1 hx).2

/-! ## PLOT.CLOCK (14 R396) -/

/-- A PLOT.CLOCK of a point that each plot named reaches is performed on those plots; its completion follows. -/
theorem exec_plotClock {s : State} {die ticket d : Nat} {c : Cmd} (h : Issued s die ticket c d) {ps : List Nat}
    (hcode : c.code = 0x17) (hfl : c.fl = 0) (harg : c.arg = 0) (hopd : c.opd < 2 ^ 26) (hrsv : c.opd / 2 ^ 11 % 32 = 0)
    (hps : s.clockTargets d c = .places ps) (hslow : 400 ≤ clockMhz c) (hfast : clockMhz c ≤ 1400) (hlow : 550 ≤ clockMv c)
    (hhigh : clockMv c ≤ 850)
    (hbin : ∀ p ∈ ps, clockMhz c ≤ (s.plot (d * 400 + p)).binned ∧
      Config.binMillivolts (d * 400 + p) (clockMhz c) ≤ clockMv c) :
    exec (.plotClock die ticket) s = .next ((taken s die ticket).setPhase die ticket (.performed (clockMhz c) ps)) := by
  have hps' : (taken s die ticket).clockTargets d c = .places ps := hps
  have hreached : (ps.any fun p => ((taken s die ticket).plot (d * 400 + p)).binned < clockMhz c ||
      clockMv c < Config.binMillivolts (d * 400 + p) (clockMhz c)) = false := by
    refine List.any_eq_false.2 fun p hp => ?_
    obtain ⟨hmhz, hmv⟩ := hbin p hp
    have hmhz' : clockMhz c ≤ ((taken s die ticket).plot (d * 400 + p)).binned := hmhz
    simpa using ⟨hmhz', hmv⟩
  refine exec_of_issued h (show execPlotClock die ticket s = _ from rfl) (r := .later (clockMhz c) ps (taken s die ticket))
    (by simp [hcode]) (by simp [hfl, harg]; omega) ?_ nofun
  simp only [hps', hreached]
  rw [if_neg (by simp; omega)]
  rfl

/-- Settles O52: each command by the effect that it comes to once it may be performed; a WEIR by the fold over the headgates,
a release by the generations that stay. -/
theorem colourAndRootCommands : Obligations.ColourAndRootCommands := by
  intro s die ticket c d h
  refine ⟨fun hcode hfl harg hopd htgt hmoves => weir_completes h hcode hfl harg hopd htgt hmoves,
    fun hcode hfl htgt harg hopd => exec_colourRead h hcode hfl htgt harg hopd,
    fun hcode harg htgt hopd hrsv hplot hidle => ⟨fun hfl hsize hend hfree => ?_, fun hfl => ?_⟩,
    fun r hcode htgt harg hl hr => ⟨fun hfl => genMarkHold_completes h hcode htgt harg hl hr hfl,
      fun hfl hheld => genMarkRelease_completes h hcode htgt harg hl hr hfl hheld,
      fun hfl => genMarkQuery_completes h hcode htgt harg hl hr hfl⟩,
    fun hcode htgt harg hpage hopd hfl hspace hexists => xlateRoot_performs h hcode htgt harg hpage hopd hfl hspace hexists,
    fun ps hcode hfl harg hopd hrsv hps hslow hfast hlow hhigh hbin =>
      exec_plotClock h hcode hfl harg hopd hrsv hps hslow hfast hlow hhigh hbin⟩
  · exact sluiceSet_completes h hcode hfl (by simp [sluiceOk, hfl, harg]; omega) htgt hplot hidle hsize hend hfree
  · exact sluiceClear_completes h hcode hfl (by simp [sluiceOk, hfl, harg]; omega) htgt hplot hidle

end Sys2Proof.Machine
end

section
/-! A frame that its session takes, and the journal (16 R433 to R439, R445): what is read after it is as before it. -/

namespace Sys2Proof.Machine

open Sys2Proof.Statements

/-! ## What a frame changes before its request is performed -/

/-- A state differs in the sessions and in the frames that leave, and in nothing else. -/
def SessionsOnly (s t : State) : Prop :=
  ∃ xs fs, t = { s with hw := { s.hw with sessions := xs, outbox := fs } }

theorem SessionsOnly.refl (s : State) : SessionsOnly s s := ⟨_, _, rfl⟩

theorem SessionsOnly.trans {s t u : State} (h : SessionsOnly s t) (h' : SessionsOnly t u) : SessionsOnly s u := by
  obtain ⟨xs, fs, rfl⟩ := h
  obtain ⟨ys, gs, rfl⟩ := h'
  exact ⟨ys, gs, rfl⟩

section
variable (s : State)

theorem State.mapSession_sessionsOnly (num : Nat) (g : Session → Session) : SessionsOnly s (s.mapSession num g) := ⟨_, _, rfl⟩

theorem State.pump_sessionsOnly (num : Nat) : SessionsOnly s (s.pump num) := by
  unfold State.pump
  split
  · exact .refl s
  · exact ⟨_, _, rfl⟩

theorem State.sendAck_sessionsOnly (num : Nat) : SessionsOnly s (s.sendAck num) := by
  unfold State.sendAck
  split
  · exact .refl s
  · exact ⟨_, _, rfl⟩

theorem State.keepImage_sessionsOnly (num len : Nat) (b : List Byte) : SessionsOnly s (s.keepImage num len b) :=
  s.mapSession_sessionsOnly num _

/-- The state in which the request of a frame is performed: its acknowledgement taken, and itself acknowledged. -/
def State.acked (f : Frame) (x : Session) : State :=
  ((s.takeAck x.num f).mapSession x.num (tookFrame f)).sendAck x.num

theorem State.acked_sessionsOnly (f : Frame) (x : Session) : SessionsOnly s (s.acked f x) :=
  (s.mapSession_sessionsOnly x.num (ackedBy f)).trans <| (State.pump_sessionsOnly _ x.num).trans <|
    (State.mapSession_sessionsOnly _ x.num (tookFrame f)).trans (State.sendAck_sessionsOnly _ x.num)

end

section
variable {s t : State}

/-- What does not depend on the sessions and the frames that leave reads the same. -/
theorem SessionsOnly.reads {α : Type} (h : SessionsOnly s t) (F : State → α)
    (hF : ∀ xs fs, F { s with hw := { s.hw with sessions := xs, outbox := fs } } = F s) : F t = F s := by
  obtain ⟨xs, fs, rfl⟩ := h
  exact hF xs fs

theorem SessionsOnly.repeated (h : SessionsOnly s t) (f : Frame) : t.repeated f = s.repeated f :=
  h.reads (·.repeated f) fun _ _ => rfl

theorem SessionsOnly.walkFrom (h : SessionsOnly s t) (va : Nat) (k : Access) (fuel lvl root : Nat) :
    t.walkFrom va k fuel lvl root = s.walkFrom va k fuel lvl root := by
  obtain ⟨xs, fs, rfl⟩ := h
  induction fuel generalizing lvl root with
  | zero => rfl
  | succ fuel ih =>
    unfold State.walkFrom
    simp only [ih]
    rfl

theorem SessionsOnly.granule (h : SessionsOnly s t) (colour a : Nat) (k : Access) :
    t.granule colour a k = s.granule colour a k := by
  have hwalk := h.walkFrom (a % vaMask) k
  obtain ⟨xs, fs, rfl⟩ := h
  simp only [State.granule, State.walk, hwalk]
  rfl

theorem SessionsOnly.granules (h : SessionsOnly s t) (colour a : Nat) (k : Access) (n : Nat) :
    t.granules colour a k n = s.granules colour a k n := by
  induction n generalizing a with
  | zero => rfl
  | succ n ih => rw [State.granules, State.granules, ih, h.granule]

theorem SessionsOnly.hostRead (h : SessionsOnly s t) (pa : Nat) : t.hostRead pa = s.hostRead pa :=
  h.reads (·.hostRead pa) fun _ _ => rfl

theorem SessionsOnly.hostReadAll (h : SessionsOnly s t) (l : List Nat) : t.hostReadAll l = s.hostReadAll l := by
  induction l with
  | nil => rfl
  | cons pa l ih => rw [State.hostReadAll, State.hostReadAll, ih, h.hostRead]

theorem SessionsOnly.jseq (h : SessionsOnly s t) : t.hw.jseq = s.hw.jseq := h.reads (·.hw.jseq) fun _ _ => rfl

theorem SessionsOnly.journal (h : SessionsOnly s t) : t.hw.journal = s.hw.journal := h.reads (·.hw.journal) fun _ _ => rfl

theorem SessionsOnly.store (h : SessionsOnly s t) : t.store = s.store := h.reads (·.store) fun _ _ => rfl

theorem SessionsOnly.phys (h : SessionsOnly s t) : t.phys = s.phys := h.reads (·.phys) fun _ _ => rfl

theorem SessionsOnly.launches (h : SessionsOnly s t) : t.launches = s.launches := h.reads (·.launches) fun _ _ => rfl

theorem SessionsOnly.elems (h : SessionsOnly s t) : t.elems = s.elems := h.reads (·.elems) fun _ _ => rfl

theorem SessionsOnly.head (h : SessionsOnly s t) (k : Nat) : t.head k = s.head k := h.reads (·.head k) fun _ _ => rfl

theorem SessionsOnly.dieOf (h : SessionsOnly s t) (l : Nat) : t.dieOf l = s.dieOf l := h.reads (·.dieOf l) fun _ _ => rfl

theorem SessionsOnly.streamKey (h : SessionsOnly s t) (colour key : Nat) : t.streamKey colour key = s.streamKey colour key :=
  h.reads (·.streamKey colour key) fun _ _ => rfl

theorem SessionsOnly.streamOpen (h : SessionsOnly s t) (colour : Nat) (lid : Word) (key : Nat) :
    t.streamOpen colour lid key = s.streamOpen colour lid key :=
  h.reads (·.streamOpen colour lid key) fun _ _ => rfl

theorem SessionsOnly.imageIndex (h : SessionsOnly s t) (name : List Byte) : t.imageIndex name = s.imageIndex name :=
  h.reads (·.imageIndex name) fun _ _ => rfl

theorem SessionsOnly.checkImage (h : SessionsOnly s t) (b : List Byte) : t.checkImage b = s.checkImage b :=
  h.reads (·.checkImage b) fun _ _ => rfl

end

/-! ## The session of a frame -/

section
variable {s : State} {num : Nat}

/-- A change of a session that keeps its number is seen when it is looked up. -/
theorem State.mapSession_session {g : Session → Session} (hg : ∀ x, (g x).num = x.num) :
    (s.mapSession num g).session num = (s.session num).map g := by
  have hsame : ((fun x : Session => decide (x.num = num)) ∘ fun x => if x.num = num then g x else x) =
      fun x => decide (x.num = num) := by
    funext x
    rw [Function.comp_apply]
    split <;> simp [hg]
  rw [State.session, State.mapSession, List.find?_map, hsame]
  unfold State.session
  cases hx : s.hw.sessions.find? fun x => decide (x.num = num) with
  | none => rfl
  | some x =>
    have hnum : x.num = num := by simpa using List.find?_some hx
    rw [Option.map_some, if_pos hnum]
    rfl

theorem ackedBy_num (f : Frame) (x : Session) : (ackedBy f x).num = x.num := by
  unfold ackedBy
  dsimp only
  split <;> rfl

theorem State.pump_session_isSome (h : (s.session num).isSome) : ((s.pump num).session num).isSome := by
  unfold State.pump
  split
  · exact h
  · next x _ =>
    have hsent := State.mapSession_session (s := s) (num := num)
      (g := fun y => { y with sent := y.sent + (sendable x).length }) fun _ => rfl
    exact (congrArg Option.isSome hsent).trans (by rwa [Option.isSome_map])

theorem State.sendAck_session (s : State) (num n : Nat) : (s.sendAck num).session n = s.session n := by
  unfold State.sendAck
  split <;> rfl

/-- A session that takes a frame stays open. -/
theorem State.acked_session_isSome {f : Frame} {x : Session} (h : (s.session x.num).isSome) :
    ((s.acked f x).session x.num).isSome := by
  rw [State.acked, State.sendAck_session, State.mapSession_session (g := tookFrame f) fun _ => rfl, Option.isSome_map]
  exact State.pump_session_isSome (by rw [State.mapSession_session (ackedBy_num f), Option.isSome_map]; exact h)

end

/-! ## The journal (16 R445) -/

theorem natToBytes_length (n v : Nat) : (natToBytes v n).length = n := by
  induction n generalizing v with
  | zero => rfl
  | succ n ih => rw [natToBytes, List.length_cons, ih]

theorem summaryOf_length (b : List Byte) : (summaryOf b).length = 32 := by
  simp [summaryOf]

/-- An entry takes 64 bytes (Table 16-4). -/
theorem entryBytes_length {e : JEntry} (h : e.summary.length = 32) : (entryBytes e).length = 64 := by
  simp [entryBytes, wordBytes, bodyBytes, natToBytes_length, h]

/-- The entry that a request takes. -/
def State.journalEntry (s : State) (session : Nat) (seq : Word) (code status : Nat) (rid : DWord) (b : List Byte) : JEntry :=
  { jseq := s.hw.jseq, boot := s.hw.boot, session := session, seq := seq, code := code, status := status, rid := rid,
    summary := summaryOf b }

/-- The newest element is among the last of a list. -/
theorem getLast?_lastOf {α : Type} {n : Nat} (hn : 0 < n) (l : List α) (a : α) : (lastOf n (l ++ [a])).getLast? = some a := by
  rw [lastOf, List.getLast?_drop, if_neg (by simp; omega), List.getLast?_append]
  rfl

section
variable (s : State) (session : Nat) (seq : Word) (code status : Nat) (rid : DWord) (b : List Byte)

theorem State.journal_ring : (s.journal session seq code status rid b).hw.journal =
    lastOf journalSize (s.hw.journal ++ [s.journalEntry session seq code status rid b]) := by
  rw [State.journal]
  dsimp only [State.physWrite, State.journalEntry]

theorem State.journal_phys : (s.journal session seq code status rid b).phys =
    Memory.writeBytes s.phys (mirrorAt s.hw.jseq) (entryBytes (s.journalEntry session seq code status rid b)) := by
  rw [State.journal]
  dsimp only [State.physWrite, State.journalEntry]

theorem State.journal_getLast? : (s.journal session seq code status rid b).hw.journal.getLast? =
    some (s.journalEntry session seq code status rid b) := by
  rw [State.journal_ring, getLast?_lastOf (show 0 < journalSize by decide)]

@[simp] theorem State.journal_launches : (s.journal session seq code status rid b).launches = s.launches := rfl
@[simp] theorem State.journal_elems : (s.journal session seq code status rid b).elems = s.elems := rfl
@[simp] theorem State.journal_store : (s.journal session seq code status rid b).store = s.store := rfl

theorem inMirror_of_jseq {t : State} (h : t.hw.jseq = s.hw.jseq) (a : Nat) : InMirror t a = InMirror s a := by
  rw [InMirror, InMirror, h]

end

/-- Journalling writes no byte of physical memory outside the mirror of its entry. -/
theorem State.journal_get {s : State} {a : Nat} (h : InMirror s a = false) (session : Nat) (seq : Word) (code status : Nat)
    (rid : DWord) (b : List Byte) :
    Memory.get (s.journal session seq code status rid b).phys a = Memory.get s.phys a := by
  simp only [InMirror, Bool.and_eq_false_iff, decide_eq_false_iff_not, not_le, not_lt] at h
  rw [State.journal_phys, Memory.get_writeBytes_other]
  rwa [entryBytes_length (summaryOf_length b)]

section
variable {s : State} {f : Frame} {x : Session}

/-- The session of a frame is open. -/
theorem session_of_taken (h : Taken s f x) : s.session x.num = some x := by
  obtain ⟨hx, -⟩ := h
  unfold State.frameSession at hx
  split at hx
  · cases hx
  · unfold State.session at hx
    have hnum : x.num = f.session.toNat := by simpa using List.find?_some hx
    rw [State.session, hnum]
    exact hx

/-- What a session keeps of an image once it has taken a frame. -/
theorem keepImage_session_of_taken (h : Taken s f x) (len : Nat) (b : List Byte) :
    ∃ y, ((s.acked f x).keepImage x.num len b).session x.num = some y ∧ y.img = b ∧ y.imgLen = len := by
  obtain ⟨y, hy⟩ := Option.isSome_iff_exists.1 (State.acked_session_isSome (f := f) (by rw [session_of_taken h]; rfl))
  have hkept := State.mapSession_session (s := s.acked f x) (num := x.num) (g := fun y => { y with imgLen := len, img := b })
    fun _ => rfl
  exact ⟨{ y with imgLen := len, img := b }, hkept.trans (by rw [hy]; rfl), rfl, rfl⟩

/-! ## Requests (16 R437 to R439) -/

variable {mine ok : Frame → Bool} {colour : Frame → Option Nat}

theorem isRequest_of (h : f.type.toNat = 0) {code : Nat} (hc : f.code.toNat = code) : isRequest code f = true := by
  simp [isRequest, tRequest, h, hc]

/-- The checks of a request that names a colour of its session. -/
theorem checkFails_may (hok : ok f = true) {c : Nat} (hcol : colour f = some c) (hmay : x.may c = true) :
    checkFails ok colour f x = none := by
  simp [checkFails, hok, hcol, hmay]

/-- The checks of a request that names no colour. -/
theorem checkFails_uncoloured (hok : ok f = true) (hcol : colour f = none) : checkFails ok colour f x = none := by
  simp [checkFails, hok, hcol]

theorem onFrame_of_taken (h : Taken s f x) (hm : mine f = true) (act : Session → State → State) :
    onFrame mine f s act = .next (act x (s.acked f x)) := onFrame_taken mine f s act x hm h.1 h.2

theorem plainRequest_of_taken (h : Taken s f x) (hm : mine f = true) (hc : checkFails ok colour f x = none)
    {act : Session → State → Answer} {status : Nat} {data : List Byte} {u : State}
    (ha : act x (s.acked f x) = { status := status, data := data, st := u }) :
    plainRequest mine ok colour f s act = .next (u.reply x.num f false status data) := by
  simp only [plainRequest, onFrame_of_taken h hm, hc, ha]

/-- A request that no entry answers is performed, journalled and answered. -/
theorem journalled_of_perform {i : Instr} {t u : State} {summary : Answer → List Byte} {act : State → Answer} {status : Nat}
    {data : List Byte} {P : State → Prop} (ht : SessionsOnly s t) (hrep : s.repeated f = none)
    (hi : exec i s = .next (t.perform x.num f summary act)) (ha : act t = { status := status, data := data, st := u })
    (hjseq : u.hw.jseq = s.hw.jseq) (hP : ∀ b, P (u.journal x.num f.seq f.code.toNat status f.rid b)) :
    Journalled i s f x status data P := by
  refine ⟨u.journal x.num f.seq f.code.toNat status f.rid (summary (act t)), _, ?_,
    State.journal_getLast? _ _ _ _ _ _ _, hjseq, rfl, rfl, rfl, rfl, rfl, hP _⟩
  rw [hi, State.perform, ht.repeated, hrep]
  simp only [ha]

theorem journalledRequest_of_taken (h : Taken s f x) (hm : mine f = true) (hc : checkFails ok colour f x = none)
    (summary : Frame → List Byte) (act : Session → State → Answer) : journalledRequest mine ok colour summary f s act =
      .next ((s.acked f x).perform x.num f (fun _ => summary f) (act x)) := by
  simp only [journalledRequest, onFrame_of_taken h hm, hc]

end

end Sys2Proof.Machine
end

section
/-! Data that the host writes and reads, images and streams (16 R440, R441, R443; 12 R322, R324). -/

namespace Sys2Proof.Machine

open Sys2Proof.Statements

/-! ## Granules written (16 R440) -/

section
variable (s : State)

/-- A granule written for the host changes physical memory, its bad granules and the retirement list alone. -/
theorem State.hostWrite_rest (pa v : Nat) :
    ∃ p g x, s.hostWrite pa v = { s with phys := p, bad := g, hw := { s.hw with retire := x } } := by
  unfold State.hostWrite
  split
  · exact ⟨s.phys, s.bad, _, rfl⟩
  · exact ⟨_, _, s.hw.retire, rfl⟩

theorem State.hostWriteAll_rest (l : List Nat) (b : List Byte) :
    ∃ p g x, s.hostWriteAll l b = { s with phys := p, bad := g, hw := { s.hw with retire := x } } := by
  induction l generalizing s b with
  | nil => exact ⟨s.phys, s.bad, s.hw.retire, rfl⟩
  | cons pa l ih =>
    obtain ⟨p, g, x, h⟩ := s.hostWrite_rest pa (leAt b 0 8)
    rw [State.hostWriteAll, h]
    exact ih _ _

/-- A granule written for the host changes its own bytes. -/
theorem State.hostWrite_get_other {pa a : Nat} (h : a < pa ∨ pa + 8 ≤ a) (v : Nat) :
    Memory.get (s.hostWrite pa v).phys a = Memory.get s.phys a := by
  unfold State.hostWrite
  split
  · rw [State.setRetired_phys]
  · exact Memory.get_write_other _ _ _ _ _ h

theorem State.hostWriteAll_get_other {l : List Nat} {a : Nat} (h : ∀ pa ∈ l, a < pa ∨ pa + 8 ≤ a) (b : List Byte) :
    Memory.get (s.hostWriteAll l b).phys a = Memory.get s.phys a := by
  induction l generalizing s b with
  | nil => rfl
  | cons pa l ih =>
    obtain ⟨hpa, hl⟩ := List.forall_mem_cons.1 h
    rw [State.hostWriteAll, ih _ hl, State.hostWrite_get_other _ hpa]

end

theorem Memory.read_congr (n : Nat) {m m' : Mem} {a : Nat} (h : ∀ i, i < n → Memory.get m (a + i) = Memory.get m' (a + i)) :
    Memory.read m a n = Memory.read m' a n := by
  induction n generalizing a with
  | zero => rfl
  | succ n ih =>
    rw [Memory.read, Memory.read, ih fun i hi => ?_, ← Nat.add_zero a, h 0 (Nat.succ_pos n)]
    rw [Nat.add_assoc, Nat.add_comm 1 i]
    exact h (i + 1) (Nat.succ_lt_succ hi)

theorem bytesToNat_lt (b : List Byte) : bytesToNat b < 256 ^ b.length := by
  induction b with
  | nil => simp [bytesToNat]
  | cons x b ih =>
    have := x.isLt
    rw [bytesToNat, List.length_cons, Nat.pow_succ]
    omega

theorem leAt_lt (b : List Byte) (off n : Nat) : leAt b off n < 256 ^ n :=
  (bytesToNat_lt _).trans_le (Nat.pow_le_pow_right (by decide) (List.length_take_le n _))

/-- A field of the bytes from an offset on. -/
theorem leAt_drop (b : List Byte) (k off n : Nat) : leAt (b.drop k) off n = leAt b (k + off) n := by
  rw [leAt, leAt, List.drop_drop]

/-- A granule written for the host outside the retirement list reads as the number written. -/
theorem State.read_hostWrite {s : State} {pa v : Nat} (hretire : inRetire pa = false) (hwf : Memory.wf s.phys = true)
    (hv : v < 256 ^ 8) : Memory.read (s.hostWrite pa v).phys pa 8 = v := by
  rw [State.hostWrite, hretire]
  exact (Memory.read_write_same 8 _ _ _ hwf).trans (Nat.mod_eq_of_lt hv)

section
variable {s : State} {f : Frame} {x : Session}

/-- WRITE: its granules are written, and no other byte but the mirror of its entry. -/
theorem eoloWrite_journalled (h : Taken s f x) (htype : f.type.toNat = 0) {l : List Nat} (hcode : f.code.toNat = 3)
    (hlen : 24 ≤ f.body.length) (hcol : bodyWord f 0 < 16) (haddr : bodyWord f 1 % 8 = 0) (hmay : x.may (bodyWord f 0) = true)
    (hrep : s.repeated f = none)
    (hl : s.granules (bodyWord f 0) (bodyWord f 1) .write (f.body.length / 8 - 2) = .inl l) :
    Journalled (.eoloWrite f) s f x 0 [] fun u => u.launches = s.launches ∧ u.elems = s.elems ∧
      (∀ a, InMirror s a = false → (∀ pa ∈ l, a < pa ∨ pa + 8 ≤ a) → Memory.get u.phys a = Memory.get s.phys a) ∧
      ∀ pa, l = [pa] → inRetire pa = false → Memory.wf s.phys = true → (∀ i, i < 8 → InMirror s (pa + i) = false) →
        Memory.read u.phys pa 8 = bodyWord f 2 := by
  have hacked := s.acked_sessionsOnly f x
  have hc : checkFails (fun f => 24 ≤ f.body.length && bodyWord f 0 < 16 && bodyWord f 1 % 8 = 0) (colourOf 0) f x = none :=
    checkFails_may (by simp [hlen, hcol, haddr]) rfl (by rwa [Nat.mod_eq_of_lt hcol])
  obtain ⟨p, g, y, hrest⟩ := (s.acked f x).hostWriteAll_rest l (f.body.drop 16)
  have hjseq : ((s.acked f x).hostWriteAll l (f.body.drop 16)).hw.jseq = s.hw.jseq := by rw [hrest, ← hacked.jseq]
  have hmirror := inMirror_of_jseq s hjseq
  refine journalled_of_perform hacked hrep
    (show execEoloWrite f s = _ from journalledRequest_of_taken h (isRequest_of htype hcode) hc _ _)
    (u := (s.acked f x).hostWriteAll l (f.body.drop 16)) ?_ hjseq
    fun b => ⟨?_, ?_, fun a ha hout => ?_, fun pa hpa hretire hwf hin => ?_⟩
  · simp only [hacked.granules, hl]
    rfl
  · rw [State.journal_launches, hrest, ← hacked.launches]
  · rw [State.journal_elems, hrest, ← hacked.elems]
  · rw [State.journal_get ((hmirror a).trans ha), State.hostWriteAll_get_other _ hout, hacked.phys]
  · subst hpa
    have hbody : leAt (f.body.drop 16) 0 8 = bodyWord f 2 := leAt_drop _ _ _ _
    rw [Memory.read_congr 8 fun i hi => State.journal_get ((hmirror _).trans (hin i hi)) _ _ _ _ _ _, State.hostWriteAll,
      State.hostWriteAll, hbody]
    exact State.read_hostWrite hretire (hacked.phys ▸ hwf) (leAt_lt _ _ _)

/-- READ: the granules are answered as they stand. -/
theorem eoloRead_answered (h : Taken s f x) (htype : f.type.toNat = 0) {l : List Nat} {b : List Byte} (hcode : f.code.toNat = 4)
    (hlen : f.body.length = 24) (hcol : bodyWord f 0 < 16) (haddr : bodyWord f 1 % 8 = 0) (hwhole : bodyWord f 2 % 8 = 0)
    (hsome : 8 ≤ bodyWord f 2) (hfits : bodyWord f 2 ≤ 8184) (hmay : x.may (bodyWord f 0) = true)
    (hl : s.granules (bodyWord f 0) (bodyWord f 1) .read (bodyWord f 2 / 8) = .inl l) (hb : s.hostReadAll l = some b) :
    Answered (.eoloRead f) s f x 0 b fun u => u.phys = s.phys ∧ u.launches = s.launches := by
  have hacked := s.acked_sessionsOnly f x
  refine ⟨s.acked f x, show execEoloRead f s = _ from plainRequest_of_taken h (isRequest_of htype hcode)
    (checkFails_may ?_ rfl (by rwa [Nat.mod_eq_of_lt hcol])) ?_, hacked.journal, hacked.phys, hacked.launches⟩
  · simp [hlen, hcol, haddr, hwhole, hsome, hfits]
  · simp only [hacked.granules, hl, hacked.hostReadAll, hb]

/-! ## Images (16 R441, 12 R322, R324) -/

/-- The store as an image is accepted, before old generations leave: one that is resident already stays as it is. -/
def State.storeWith (s : State) (b : List Byte) : List Resident :=
  if s.store.any fun r => r.name = graphName b && r.gen = imgGen b then s.store
  else s.store ++ [{ index := s.imageIndex (graphName b), name := graphName b, gen := imgGen b, holds := 0, bytes := b,
                     marks := debugMarks b }]

theorem State.acceptImage_store (s : State) (b : List Byte) : (s.acceptImage b).store =
    (s.storeWith b).filter fun r => r.holds ≠ 0 || !((s.storeWith b).any fun q => q.name = r.name && r.gen < q.gen) := rfl

/-- The image's generation is in the store. -/
theorem State.storeWith_holds (s : State) (b : List Byte) : ∃ r ∈ s.storeWith b, r.name = graphName b ∧ r.gen = imgGen b := by
  unfold State.storeWith
  split
  · next hheld => simpa using hheld
  · exact ⟨_, List.mem_append_right _ List.mem_cons_self, rfl, rfl⟩

/-- It is the newest of its name where no resident one exceeds it. -/
theorem State.storeWith_newest {b : List Byte} (hnew : ∀ r ∈ s.store, r.name = graphName b → r.gen ≤ imgGen b) :
    ∀ r ∈ s.storeWith b, r.name = graphName b → r.gen ≤ imgGen b := by
  unfold State.storeWith
  split
  · exact hnew
  · exact List.forall_mem_append.2 ⟨hnew, List.forall_mem_singleton.2 fun _ => le_rfl⟩

/-- An accepted image whose generation no resident one of its name exceeds is resident. -/
theorem State.acceptImage_resident {b : List Byte} (hnew : ∀ r ∈ s.store, r.name = graphName b → r.gen ≤ imgGen b) :
    ∃ r ∈ (s.acceptImage b).store, r.name = graphName b ∧ r.gen = imgGen b := by
  obtain ⟨r, hr, hname, hgen⟩ := s.storeWith_holds b
  have hnewest : ∀ q ∈ s.storeWith b, q.name = r.name → q.gen ≤ r.gen := fun q hq hq' =>
    hgen ▸ State.storeWith_newest hnew q hq (hq'.trans hname)
  rw [State.acceptImage_store]
  exact ⟨r, List.mem_filter.2 ⟨hr, by simpa using .inr hnewest⟩, hname, hgen⟩

/-- The answer to a whole image that the loader accepts, and to one that it refuses. -/
theorem State.performImage_accepted {b : List Byte} (hb : s.checkImage b = none) : s.performImage b =
    { status := 0, data := wordBytes (s.imageIndex (graphName b) + imgGen b * 2 ^ 32), st := s.acceptImage b } := by
  simp only [State.performImage, hb]

theorem State.performImage_refused {b : List Byte} {r : Refused} (hb : s.checkImage b = some r) : s.performImage b =
    { status := 6, data := wordBytes (s.imageIndex (graphName b) + imgGen b * 2 ^ 32) ++ (refuses r s).data, st := s } := by
  simp only [State.performImage, hb]

/-- The summary of an image's journal entry: index, generation and digest. -/
def State.imageSummary (s : State) (b : List Byte) : List Byte :=
  bodyBytes 4 (s.imageIndex (graphName b)) ++ bodyBytes 4 (imgGen b) ++ (imgDigest b).take 16

section
variable (h : Taken s f x) (htype : f.type.toNat = 0) (hcode : f.code.toNat = 5) (hlen : 24 ≤ f.body.length)
  (htotal : bodyWord f 0 < 2 ^ 32)
include h htype hcode hlen htotal

/-- A frame of an image at an offset that is not the next drops what the session has kept of it. -/
theorem exec_image_astray (hoff : bodyWord f 1 ≠ x.img.length) :
    exec (.image f) s = .next (((s.acked f x).keepImage x.num 0 []).reply x.num f false 3 []) := by
  show execImage f s = _
  rw [execImage, onFrame_of_taken h (isRequest_of htype hcode)]
  dsimp only
  rw [if_neg (by simp; omega), if_pos (by simp [hoff])]

variable (hoff : bodyWord f 1 = x.img.length) (hsame : x.img = [] ∨ bodyWord f 0 = x.imgLen)
include hoff hsame

/-- An image that is not whole yet is kept. -/
theorem exec_image_partial (hmore : (x.img ++ f.body.drop 16).length < bodyWord f 0) :
    exec (.image f) s = .next ((s.acked f x).keepImage x.num (bodyWord f 0) (x.img ++ f.body.drop 16)) := by
  show execImage f s = _
  rw [execImage, onFrame_of_taken h (isRequest_of htype hcode)]
  dsimp only
  rw [if_neg (by simp; omega), if_neg (by simpa [hoff] using hsame.resolve_left), if_pos hmore]

/-- A whole image is performed. -/
theorem exec_image_whole (hwhole : bodyWord f 0 ≤ (x.img ++ f.body.drop 16).length)
    (hpad : (x.img ++ f.body.drop 16).length < bodyWord f 0 + 8) : exec (.image f) s =
      .next (((s.acked f x).keepImage x.num 0 []).perform x.num f
        (fun _ => (s.acked f x).imageSummary ((x.img ++ f.body.drop 16).take (bodyWord f 0)))
        fun u => u.performImage ((x.img ++ f.body.drop 16).take (bodyWord f 0))) := by
  show execImage f s = _
  rw [execImage, onFrame_of_taken h (isRequest_of htype hcode)]
  dsimp only
  rw [if_neg (by simp; omega), if_neg (by simpa [hoff] using hsame.resolve_left), if_neg (Nat.not_lt.2 hwhole),
    if_neg (Nat.not_le.2 hpad)]
  rfl

/-- An accepted image is journalled as performed, and is resident. -/
theorem image_accepted (hwhole : bodyWord f 0 ≤ (x.img ++ f.body.drop 16).length)
    (hpad : (x.img ++ f.body.drop 16).length < bodyWord f 0 + 8) (hrep : s.repeated f = none) {b : List Byte}
    (hb : b = (x.img ++ f.body.drop 16).take (bodyWord f 0)) (hgood : s.checkImage b = none)
    (hnew : ∀ r ∈ s.store, r.name = graphName b → r.gen ≤ imgGen b) :
    Journalled (.image f) s f x 0 (wordBytes (s.imageIndex (graphName b) + imgGen b * 2 ^ 32)) fun u =>
      ∃ r ∈ u.store, r.name = graphName b ∧ r.gen = imgGen b := by
  have hkept := (s.acked_sessionsOnly f x).trans ((s.acked f x).keepImage_sessionsOnly x.num 0 [])
  have hact := State.performImage_accepted ((hkept.checkImage b).trans hgood)
  rw [hkept.imageIndex] at hact
  refine journalled_of_perform hkept hrep (hb ▸ exec_image_whole h htype hcode hlen htotal hoff hsame hwhole hpad) hact ?_
    fun _ => ?_
  · exact hkept.jseq
  · rw [State.journal_store]
    exact State.acceptImage_resident (by rw [hkept.store]; exact hnew)

/-- A refused image is journalled with its refusal, and the store is as before. -/
theorem image_refused (hwhole : bodyWord f 0 ≤ (x.img ++ f.body.drop 16).length)
    (hpad : (x.img ++ f.body.drop 16).length < bodyWord f 0 + 8) (hrep : s.repeated f = none) {b : List Byte}
    (hb : b = (x.img ++ f.body.drop 16).take (bodyWord f 0)) {r : Refused} (hbad : s.checkImage b = some r) :
    Journalled (.image f) s f x 6 (wordBytes (s.imageIndex (graphName b) + imgGen b * 2 ^ 32) ++ (refuses r s).data) fun u =>
      u.store = s.store := by
  have hkept := (s.acked_sessionsOnly f x).trans ((s.acked f x).keepImage_sessionsOnly x.num 0 [])
  have hact := State.performImage_refused ((hkept.checkImage b).trans hbad)
  rw [hkept.imageIndex] at hact
  refine journalled_of_perform hkept hrep (hb ▸ exec_image_whole h htype hcode hlen htotal hoff hsame hwhole hpad) hact
    hkept.jseq fun _ => ?_
  rw [State.journal_store, hkept.store]

end

/-! ## UNLOAD (16 R441, 12 R324) -/

section
variable (h : Taken s f x) (htype : f.type.toNat = 0) {r : Resident} (hcode : f.code.toNat = 6) (hlen : f.body.length = 8)
  (hrep : s.repeated f = none)
  (hr : (s.store.find? fun q => q.index = bodyWord f 0 % 2 ^ 32 && q.gen = bodyWord f 0 / 2 ^ 32) = some r)
include h htype hcode hlen hrep hr

/-- An unused generation leaves the store. -/
theorem unload_unused (hunused : r.holds = 0) : Journalled (.unload f) s f x 0 [] fun u =>
    (∀ q ∈ u.store, ¬(q.index = bodyWord f 0 % 2 ^ 32 ∧ q.gen = bodyWord f 0 / 2 ^ 32)) ∧ u.launches = s.launches := by
  have hacked := s.acked_sessionsOnly f x
  refine journalled_of_perform hacked hrep (show execUnload f s = _ from
    journalledRequest_of_taken h (isRequest_of htype hcode) (checkFails_uncoloured (by simp [hlen]) rfl) _ _)
    (u := { s.acked f x with store := (s.acked f x).store.filter fun q =>
      !(q.index = bodyWord f 0 % 2 ^ 32 && q.gen = bodyWord f 0 / 2 ^ 32) }) ?_ hacked.jseq fun b => ⟨fun q hq => ?_, ?_⟩
  · rw [← hacked.store] at hr
    simp only [hr, hunused]
    rfl
  · rintro ⟨hindex, hgen⟩
    simpa [hindex, hgen] using (List.mem_filter.1 hq).2
  · rw [State.journal_launches]
    exact hacked.launches

/-- A generation in use stays, and the request is refused. -/
theorem unload_used (hused : r.holds ≠ 0) : ∃ data, Journalled (.unload f) s f x 6 data fun u => u.store = s.store := by
  have hacked := s.acked_sessionsOnly f x
  refine ⟨(refuses { code := lBusy, kind := oImage, index := 0, second := 0 } (s.acked f x)).data,
    journalled_of_perform hacked hrep (show execUnload f s = _ from
      journalledRequest_of_taken h (isRequest_of htype hcode) (checkFails_uncoloured (by simp [hlen]) rfl) _ _)
      (u := s.acked f x) ?_ hacked.jseq fun b => ?_⟩
  · rw [← hacked.store] at hr
    simp only [hr, if_pos hused]
    rfl
  · rw [State.journal_store, hacked.store]

end

/-! ## Streams (16 R443) -/

/-- The tokens of a STREAM wait at its headgate, and the answer with them. -/
theorem exec_stream (h : Taken s f x) (htype : f.type.toNat = 0) (hcode : f.code.toNat = 8) (hlen : 8 ≤ f.body.length)
    (hwhole : f.body.length % 16 = 8) (hfits : f.body.length ≤ 8184) (hw : bodyWord f 0 < 2 ^ 46)
    (hmay : x.may (bodyWord f 0 / 2 ^ 32 % 16) = true) {d : Nat} (hd : s.dieOf (bodyWord f 0 / 2 ^ 40 % 64) = some d)
    {ts : List Token} {key k : Nat} (hkey : key = d * 16 + bodyWord f 0 / 2 ^ 36 % 16)
    (hk : k = s.streamKey (bodyWord f 0 / 2 ^ 32 % 16) key)
    (hopen : s.streamOpen (bodyWord f 0 / 2 ^ 32 % 16) (BitVec.ofNat 32 (bodyWord f 0)) key = true)
    (hts : streamTokens f (bodyWord f 0 / 2 ^ 32 % 16) = some ts) (hfree : (s.head k).answer = none) (hsome : ts ≠ []) :
    exec (.stream f) s = .next ((s.acked f x).setHead k
      { s.head k with fresh := ts, answer := some (x.num, f.rid), eosSeen := ts.any fun t => t.kind = .eos }) := by
  subst hkey hk
  have hacked := s.acked_sessionsOnly f x
  show execStream f s = _
  rw [execStream, onFrame_of_taken h (isRequest_of htype hcode)]
  dsimp only
  rw [if_neg (by simp; omega), if_neg (by rw [hmay]; decide), hacked.dieOf, hd]
  simp only [State.takeStream, hacked.streamOpen, hopen, hts, hacked.streamKey, hacked.head, hfree]
  rw [if_neg (by decide), if_neg (by decide), if_neg hsome]

end

/-- Settles O56: each request by what its act comes to on the state that its frame leaves, which differs from the one before in
sessions and frames alone. -/
theorem hostDataRequests : Obligations.HostDataRequests := by
  intro s f x h htype
  refine ⟨?_, ?_, ?_, ?_, ?_, ?_⟩
  · exact fun l hcode hlen hcol haddr hmay hrep hl => eoloWrite_journalled h htype hcode hlen hcol haddr hmay hrep hl
  · exact fun l b hcode hlen hcol haddr hwhole hsome hfits hmay hl hb =>
      eoloRead_answered h htype hcode hlen hcol haddr hwhole hsome hfits hmay hl hb
  · refine fun hcode hlen htotal hoff hsame =>
      ⟨fun hmore => ?_, fun hwhole hpad hrep => ⟨fun hgood hnew => ?_, fun r hbad => ?_⟩⟩
    · obtain ⟨y, hy, himg, hlen'⟩ := keepImage_session_of_taken h (bodyWord f 0) (x.img ++ f.body.drop 16)
      exact ⟨_, y, exec_image_partial h htype hcode hlen htotal hoff hsame hmore, hy, himg, hlen',
        (s.acked_sessionsOnly f x).store⟩
    · exact image_accepted h htype hcode hlen htotal hoff hsame hwhole hpad hrep rfl hgood hnew
    · exact image_refused h htype hcode hlen htotal hoff hsame hwhole hpad hrep rfl hbad
  · intro hcode hlen htotal hoff
    have hkept := (s.acked_sessionsOnly f x).trans ((s.acked f x).keepImage_sessionsOnly x.num 0 [])
    obtain ⟨y, hy, himg, -⟩ := keepImage_session_of_taken h 0 []
    exact ⟨_, exec_image_astray h htype hcode hlen htotal hoff, hkept.journal, hkept.store, hkept.launches,
      by rw [hy, ← himg]; rfl⟩
  · exact fun r hcode hlen hrep hr => ⟨unload_unused h htype hcode hlen hrep hr, unload_used h htype hcode hlen hrep hr⟩
  · intro d ts w colour key k hcode hlen hwhole hfits hw hmay hd hopen hts hfree hsome
    exact ⟨_, exec_stream h htype hcode (by omega) hwhole hfits hw hmay hd rfl rfl hopen hts hfree hsome,
      (s.acked_sessionsOnly f x).journal, State.head_setHead_same _ _ _⟩

end Sys2Proof.Machine
end

section
/-! Events to the host (16 R444, R445, R448; 14 R360, R366): a completion, a fault, a halt and a message, each told once. -/

namespace Sys2Proof.Machine

open Sys2Proof.Statements

/-- A message changes sessions and the frames that leave, and nothing else. -/
theorem State.sendMessage_sessionsOnly (s : State) (num type code : Nat) (rid : DWord) (dup : Bool) (body : List Byte) :
    SessionsOnly s (s.sendMessage num type code rid dup body) := by
  unfold State.sendMessage
  split
  · exact .refl s
  · exact (s.mapSession_sessionsOnly num _).trans (State.pump_sessionsOnly _ num)

theorem recBytes_length (r : Rec) : (recBytes r).length = 32 := by
  simp [recBytes, wordBytes, natToBytes_length]

/-- 32 bytes are their own summary. -/
theorem summaryOf_of_length {b : List Byte} (h : b.length = 32) : summaryOf b = b := by
  rw [summaryOf, List.take_append_of_le_length h.ge, List.take_of_length_le h.le]

/-- The completion of an ended launch is journalled, whatever session it then goes to. -/
theorem State.sendCompletion_journalled (s : State) (l : Launch) : ∃ seq, SessionsOnly
    (s.journal 0 seq 0x80 0 0 (recBytes (completionBody l))) (s.sendCompletion l) := by
  unfold State.sendCompletion
  dsimp only
  split
  · exact ⟨_, State.sendMessage_sessionsOnly _ _ _ _ _ _ _⟩
  · exact ⟨_, .refl _⟩

/-- COMPLETION: the launch is forgotten, and its body is the summary of the newest entry. -/
theorem exec_completion {s : State} {i : Nat} {l : Launch} (hl : s.launches[i]? = some l) (hst : l.st = .ended)
    (hout : (s.out (completionOutfall l)).message ≠ some (completionBody l)) :
    ∃ (u : State) (e : JEntry), exec (.completion i) s = .next u ∧ u.launches = dropNth s.launches i ∧
      u.hw.journal.getLast? = some e ∧ e.code = 0x80 ∧ e.summary = recBytes (completionBody l) ∧ e.jseq = s.hw.jseq ∧
      u.elems = s.elems := by
  obtain ⟨seq, hsent⟩ := ({ s with launches := dropNth s.launches i } : State).sendCompletion_journalled l
  refine ⟨_, _, ?_, hsent.launches, by rw [hsent.journal, State.journal_getLast?], rfl,
    summaryOf_of_length (recBytes_length _), rfl, hsent.elems⟩
  show execCompletion i s = _
  simp only [execCompletion, hl, hst, hout, decide_true, ne_eq, not_false_eq_true, Bool.and_self, if_true]

/-- FAULT: the one fault that the host has not heard of is told, and kept unless its launch has ended. -/
theorem exec_eoloFault {s : State} {die : Nat} {f : OpenFault} {n : Nat} (hopen : s.hw.faultsOpen = [f]) (hdie : f.die = die)
    (htold : f.told = false) (hchannel : f.channel = false) (hruns : s.firmwareRuns die = true)
    (hn : s.eventSession ((s.launch f.colour).map Launch.session) f.colour = some n) :
    exec (.eoloFault die) s = .next (({ s with hw := { s.hw with
      faultsOpen := if f.past then [] else [{ f with told := true }] } } : State).tellFault n f.record) := by
  have hfirst : s.hw.faultsOpen.findIdx? (fun x => x.die = die && !x.told && !x.channel) = some 0 := by
    simp [hopen, List.findIdx?_cons, hdie, htold, hchannel]
  have hf : s.hw.faultsOpen[0]? = some f := by rw [hopen]; rfl
  show execEoloFault die s = _
  simp only [execEoloFault, hruns, hfirst, hf, hn, Bool.not_true]
  rw [if_neg (by decide), hopen]
  rfl

/-- Settles O59: each event by what it journals or sends, and what it marks as told. -/
theorem hostEvents : Obligations.HostEvents := by
  refine ⟨fun s i l => exec_completion, ?_, ?_, ?_⟩
  · intro s die f n hopen hdie htold hchannel hruns hn
    exact ⟨_, exec_eoloFault hopen hdie htold hchannel hruns hn, rfl⟩
  · intro s die h n hhalted hn htold
    refine ⟨s.setCtrl die { s.ctrl die with halted := some { h with told := true } }, ?_, by rw [State.ctrl_setCtrl_same], rfl⟩
    show execHalt die s = _
    simp only [execHalt, hhalted, hn, htold]
    rfl
  · intro s die n r rest hn hdie hbox
    refine ⟨s.setBox die 2 rest, ?_, s.box_setBox die 2 rest, rfl⟩
    show execMessage die s = _
    simp only [execMessage, hn, hbox]
    rw [if_neg (Nat.ne_of_lt hdie)]

end Sys2Proof.Machine
end

section
/-! What tokens, loads and cuts leave alone: one relation for what moves tokens, one for what writes, discards or saves a load. -/

namespace Sys2Proof.Machine

/-- The module without what moving tokens changes: channels, packets, gates, and the bytes of HBM behind the spillways. -/
def State.outsideTraffic (s : State) : State :=
  { s with binds := [], chans := [], depths := [], packets := [], heads := [], outs := [], phys := [], bad := [] }

/-- The module without what loads, cuts and saves change besides: elements, memory actors, nodes, plots, pools, stagings. -/
def State.outsideLoads (s : State) : State :=
  { s.outsideTraffic with
    elems := [], mas := [], nodes := [], plots := [], pools := [], notices := [], stagings := [], grants := [] }

/-- What every step of a fold leaves alone, the fold leaves alone. -/
theorem foldl_leaves {α β : Type} {F : State → β} {f : State → α → State} (hf : ∀ t a, F (f t a) = F t) (l : List α)
    (s : State) : F (l.foldl f s) = F s := by
  induction l generalizing s with
  | nil => rfl
  | cons a l ih => rw [List.foldl_cons, ih, hf]

section
variable {s t : State}

/-- Moving tokens is less than what loads may change. -/
theorem outsideLoads_of_traffic (h : t.outsideTraffic = s.outsideTraffic) : t.outsideLoads = s.outsideLoads :=
  congrArg (fun u : State => { u with
    elems := [], mas := [], nodes := [], plots := [], pools := [], notices := [], stagings := [], grants := [] }) h

theorem launches_of_loads (h : t.outsideLoads = s.outsideLoads) : t.launches = s.launches :=
  (congrArg State.launches h :)

theorem hw_of_loads (h : t.outsideLoads = s.outsideLoads) : t.hw = s.hw := (congrArg State.hw h :)

theorem ctrls_of_loads (h : t.outsideLoads = s.outsideLoads) : t.ctrls = s.ctrls := (congrArg State.ctrls h :)

theorem arrivals_of_loads (h : t.outsideLoads = s.outsideLoads) : t.arrivals = s.arrivals := (congrArg State.arrivals h :)

end

theorem foldl_outsideLoads {α : Type} {f : State → α → State} (hf : ∀ t a, (f t a).outsideLoads = t.outsideLoads) (l : List α)
    (s : State) : (l.foldl f s).outsideLoads = s.outsideLoads := foldl_leaves hf l s

theorem ite_outsideLoads {c : Prop} [Decidable c] {t u s : State} (ht : t.outsideLoads = s.outsideLoads)
    (hu : u.outsideLoads = s.outsideLoads) : (if c then t else u).outsideLoads = s.outsideLoads := by
  split <;> assumption

theorem SluiceOnly.outsideLoads {s t : State} (h : SluiceOnly s t) : t.outsideLoads = s.outsideLoads := by
  rw [h.rest]
  rfl

/-! ## Loads that are discarded (13 R337; 14 R382) -/

section
variable (s : State)

@[simp] theorem State.mapElems_outsideLoads (die : Nat) (f : Element → Element) (ps : List Nat) :
    (s.mapElems die f ps).outsideLoads = s.outsideLoads := by
  unfold State.mapElems
  exact foldl_outsideLoads (by intros; rfl) ps s

@[simp] theorem State.mapMas_outsideLoads (die : Nat) (f : MemActor → MemActor) (ns : List Nat) :
    (s.mapMas die f ns).outsideLoads = s.outsideLoads := by
  unfold State.mapMas
  exact foldl_outsideLoads (by intros; rfl) ns s

@[simp] theorem State.mapNodes_outsideLoads (die : Nat) (f : Node → Node) (ns : List Nat) :
    (s.mapNodes die f ns).outsideLoads = s.outsideLoads := by
  unfold State.mapNodes
  exact foldl_outsideLoads (by intros; rfl) ns s

@[simp] theorem State.dropEnds_outsideLoads (die colour : Nat) (load : Option Nat) :
    (s.dropEnds die colour load).outsideLoads = s.outsideLoads := rfl

@[simp] theorem State.setStaging_outsideLoads (die colour : Nat) (g : Staging) :
    (s.setStaging die colour g).outsideLoads = s.outsideLoads := rfl

@[simp] theorem State.dropStaging_outsideLoads (die colour load : Nat) :
    (s.dropStaging die colour load).outsideLoads = s.outsideLoads := by
  rw [State.dropStaging]
  dsimp only
  rw [State.setStaging_outsideLoads]
  exact ite_outsideLoads (by simp) (by simp)

@[simp] theorem State.stopElement_outsideLoads (k : Nat) : (s.stopElement k).outsideLoads = s.outsideLoads :=
  (s.undo_sluiceOnly k).outsideLoads

@[simp] theorem State.dropHeld_outsideLoads (die colour : Nat) : (s.dropHeld die colour).outsideLoads = s.outsideLoads := rfl

@[simp] theorem State.abortLoad_outsideLoads (die colour load : Nat) :
    (s.abortLoad die colour load).outsideLoads = s.outsideLoads := by
  rw [State.abortLoad]
  dsimp only
  have hstop (t : State) (p : Nat) : (t.stopElement (elemKey die p)).outsideLoads = t.outsideLoads :=
    t.stopElement_outsideLoads _
  have hma (t : State) (i : Nat) : (t.stopMa die i).outsideLoads = t.outsideLoads := rfl
  rw [State.dropEnds_outsideLoads, State.dropEnds_outsideLoads, State.dropHeld_outsideLoads, foldl_outsideLoads hma,
    State.mapNodes_outsideLoads, foldl_outsideLoads hstop]
  exact ite_outsideLoads (s.dropStaging_outsideLoads _ _ _) rfl

@[simp] theorem State.idleGates_outsideLoads (colour : Nat) : (s.idleGates colour).outsideLoads = s.outsideLoads := rfl

@[simp] theorem State.abortLoads_outsideLoads (l : Launch) : (s.abortLoads l).outsideLoads = s.outsideLoads := by
  rw [State.abortLoads, State.idleGates_outsideLoads, foldl_outsideLoads]
  intro t d
  rw [State.abortLoad_outsideLoads, State.abortLoad_outsideLoads]
  exact ite_outsideLoads (t.dropStaging_outsideLoads _ _ _) rfl

end

end Sys2Proof.Machine
end

section
/-! LAUNCH and REGION (16 R442; 13 R326 to R328): a descriptor that opens a launch, one that joins it, and an abort. -/

namespace Sys2Proof.Machine

open Sys2Proof.Statements

/-! ## What a request reads in the state that its frame leaves -/

section
variable {s t : State}

theorem SessionsOnly.launch (h : SessionsOnly s t) (colour : Nat) : t.launch colour = s.launch colour :=
  h.reads (·.launch colour) fun _ _ => rfl

theorem SessionsOnly.newest (h : SessionsOnly s t) (image : Nat) : t.newest image = s.newest image :=
  h.reads (·.newest image) fun _ _ => rfl

theorem SessionsOnly.imageOf (h : SessionsOnly s t) (colour : Nat) : t.imageOf colour = s.imageOf colour :=
  h.reads (·.imageOf colour) fun _ _ => rfl

theorem SessionsOnly.gateBusy (h : SessionsOnly s t) (key colour : Nat) : t.gateBusy key colour = s.gateBusy key colour :=
  h.reads (·.gateBusy key colour) fun _ _ => rfl

theorem SessionsOnly.descs (h : SessionsOnly s t) : t.hw.descs = s.hw.descs := h.reads (·.hw.descs) fun _ _ => rfl

theorem SessionsOnly.arrivals (h : SessionsOnly s t) : t.arrivals = s.arrivals := h.reads (·.arrivals) fun _ _ => rfl

theorem SessionsOnly.openedLaunch (h : SessionsOnly s t) (d : Descriptor) (r : Resident) (die session : Nat) :
    openedLaunch t d r die session = openedLaunch s d r die session :=
  h.reads (Machine.openedLaunch · d r die session) fun _ _ => rfl

end

@[simp] theorem State.journal_descs (s : State) (session : Nat) (seq : Word) (code status : Nat) (rid : DWord) (b : List Byte) :
    (s.journal session seq code status rid b).hw.descs = s.hw.descs := by
  have hhw : (s.journal session seq code status rid b).hw = { s.hw with
      journal := lastOf journalSize (s.hw.journal ++ [s.journalEntry session seq code status rid b])
      jseq := s.hw.jseq + 1 } := rfl
  rw [hhw]

@[simp] theorem State.journal_arrivals (s : State) (session : Nat) (seq : Word) (code status : Nat) (rid : DWord)
    (b : List Byte) : (s.journal session seq code status rid b).arrivals = s.arrivals := rfl

/-! ## What opening a launch and sending a descriptor change -/

section
variable (s : State) (d : Descriptor) (r : Resident) (die num key : Nat) (stream : Bool)

@[simp] theorem State.openLaunch_launches : (s.openLaunch d r die num).launches = s.launches ++ [openedLaunch s d r die num] := rfl
@[simp] theorem State.openLaunch_arrivals : (s.openLaunch d r die num).arrivals = s.arrivals + 1 := rfl
@[simp] theorem State.openLaunch_hw : (s.openLaunch d r die num).hw = s.hw := rfl

@[simp] theorem State.sendDesc_launches : (s.sendDesc stream key d).launches = s.launches := by cases stream <;> rfl
@[simp] theorem State.sendDesc_arrivals : (s.sendDesc stream key d).arrivals = s.arrivals := by cases stream <;> rfl
@[simp] theorem State.sendDesc_jseq : (s.sendDesc stream key d).hw.jseq = s.hw.jseq := by cases stream <;> rfl
@[simp] theorem State.sendDesc_descs : (s.sendDesc stream key d).hw.descs =
    if stream then s.hw.descs ++ [{ gate := key, colour := d.colour, lid := d.lid }] else s.hw.descs := by
  cases stream <;> rfl

end

/-! ## What a descriptor comes to (13 R326, R328) -/

section
variable {s : State} {d : Descriptor} {die num : Nat} {stream : Bool} (hdie : s.dieOf d.ldie = some die)
include hdie

/-- The first descriptor of a colour opens its launch on the newest generation. -/
theorem State.takeDescriptor_opens {r : Resident} (hl : s.launch d.colour = none) (hr : s.newest d.image = some r)
    (hload : d.load < imgLoads r.bytes)
    (hgate : (stream && (s.gateBusy (die * 16 + d.gate) d.colour || (d.gate = 15 && hasFaultChannel r.bytes d.load))) = false) :
    s.takeDescriptor d stream num = gives 0 ((s.openLaunch d r die num).sendDesc stream (die * 16 + d.gate) d) := by
  simp only [State.takeDescriptor, hdie, hl, State.beginLaunch, hr, hgate]
  rw [if_neg (Nat.not_le.2 hload), if_neg (by decide)]

/-- A descriptor of another launch than the colour's is refused. -/
theorem State.takeDescriptor_refused {l : Launch} (hl : s.launch d.colour = some l) (hlid : l.lid ≠ d.lid) :
    s.takeDescriptor d stream num = gives 3 s := by
  simp only [State.takeDescriptor, hdie, hl]
  rw [if_neg hlid]

/-- A descriptor brings a stream to a launch that is granted its die. -/
theorem State.takeDescriptor_joins {l : Launch} (hl : s.launch d.colour = some l) (hlid : l.lid = d.lid)
    (hr : (s.newest d.image).isNone = false) (hload : d.load < imgLoads (s.imageOf l.colour))
    (hbusy : s.gateBusy (die * 16 + d.gate) d.colour = false) (hgate : d.gate ≠ 15) (hgranted : l.dies ≠ [])
    (hmem : die ∈ l.dies) : s.takeDescriptor d true num = gives 0 (s.sendDesc true (die * 16 + d.gate) d) := by
  simp only [State.takeDescriptor, hdie, hl, State.joinLaunch, hr, hbusy]
  rw [if_pos hlid, if_neg (by decide), if_neg (Nat.not_le.2 hload), if_neg (by simp [hgate]), if_neg (by decide),
    if_neg hgranted, if_pos (by simpa using hmem)]

end

/-- An open launch stands under its colour, and has not ended. -/
theorem State.launch_spec {s : State} {colour : Nat} {l : Launch} (h : s.launch colour = some l) :
    l ∈ s.launches ∧ l.colour = colour ∧ l.st ≠ .ended := by
  have hp := List.find?_some h
  simp only [Bool.and_eq_true, decide_eq_true_eq] at hp
  exact ⟨List.mem_of_find?_eq_some h, hp⟩

/-- Aborting a launch changes the launches by finishing it, and nothing of the headworks. -/
theorem State.abortLaunch_rest {s : State} {colour : Nat} {l : Launch} (h : s.launch colour = some l) (detail : DWord × DWord) :
    (s.abortLaunch colour detail).hw = s.hw ∧ finishing 2 detail l ∈ (s.abortLaunch colour detail).launches := by
  obtain ⟨hmem, hcol, hst⟩ := s.launch_spec h
  have hlaunches := launches_of_loads (s.abortLoads_outsideLoads l)
  have hhw := hw_of_loads (s.abortLoads_outsideLoads l)
  simp only [State.abortLaunch, h, State.mapLaunch, hlaunches, hhw, true_and]
  exact List.mem_map.2 ⟨l, hmem, if_pos (by simp [hcol, hst])⟩

/-! ## The requests (16 R442) -/

section
variable {s : State} {f : Frame} {x : Session} {mine ok : Frame → Bool} {colour : Frame → Option Nat}

/-- A request that fails its checks is answered, and performs nothing. -/
theorem journalledRequest_refused (h : Taken s f x) (hm : mine f = true) {n : Nat} (hc : checkFails ok colour f x = some n)
    (summary : Frame → List Byte) (act : Session → State → Answer) :
    journalledRequest mine ok colour summary f s act = .next ((s.acked f x).reply x.num f false n []) := by
  simp only [journalledRequest, onFrame_of_taken h hm, hc]

/-- No session may act for colour 0 as a launch's. -/
theorem checkFails_colour_zero {n : Nat} (hok : ok f = true) (hcol : (descriptorOf n f).colour = 0) :
    checkFails ok (launchColour n) f x = some 2 := by
  have hmay : x.may 16 = false := BitVec.getLsbD_of_ge _ _ le_rfl
  simp [checkFails, hok, launchColour, hcol, hmay]

theorem checkFails_launch {n : Nat} (hok : ok f = true) (hcol : (descriptorOf n f).colour ≠ 0)
    (hmay : x.may (descriptorOf n f).colour = true) : checkFails ok (launchColour n) f x = none :=
  checkFails_may hok (by rw [launchColour, if_neg hcol]) hmay

variable (h : Taken s f x)
include h

/-- A journalled request performs its act on the state that its frame leaves. -/
theorem journalled_of_taken {i : Instr} {u : State} {summary : Frame → List Byte} {act : Session → State → Answer}
    {status : Nat} {data : List Byte} {P : State → Prop} (hi : exec i s = journalledRequest mine ok colour summary f s act)
    (hm : mine f = true) (hc : checkFails ok colour f x = none) (hrep : s.repeated f = none)
    (ha : act x (s.acked f x) = { status := status, data := data, st := u }) (hjseq : u.hw.jseq = s.hw.jseq)
    (hP : ∀ b, P (u.journal x.num f.seq f.code.toNat status f.rid b)) : Journalled i s f x status data P :=
  journalled_of_perform (s.acked_sessionsOnly f x) hrep (hi.trans (journalledRequest_of_taken h hm hc summary act)) ha hjseq hP

variable (htype : f.type.toNat = 0)
include htype

section
variable (hcode : f.code.toNat = 7) (hlen : f.body.length = 24) (hok : s.descriptorOk 0 f = true)
  (hcol : (descriptorOf 0 f).colour ≠ 0) (hmay : x.may (descriptorOf 0 f).colour = true) (hrep : s.repeated f = none)
include hcode hlen hok hcol hmay hrep

/-- LAUNCH: what taking its descriptor comes to. -/
theorem launch_journalled {u : State} {status : Nat} {P : State → Prop}
    (ha : (s.acked f x).takeDescriptor (descriptorOf 0 f) true x.num = gives status u) (hjseq : u.hw.jseq = s.hw.jseq)
    (hP : ∀ b, P (u.journal x.num f.seq f.code.toNat status f.rid b)) : Journalled (.launch f) s f x status [] P :=
  journalled_of_taken h (show execLaunch f s = _ from rfl) (isRequest_of htype hcode)
    (checkFails_launch (by simp [hlen, hok]) hcol hmay) hrep ha hjseq hP

end

section
variable (hcode : f.code.toNat = 0x0A) (hlen : f.body.length = 32) (hkind : bodyWord f 0 < 256)
  (hok : s.descriptorOk 1 f = true) (hcol : (descriptorOf 1 f).colour ≠ 0) (hmay : x.may (descriptorOf 1 f).colour = true)
  (hrep : s.repeated f = none)
include hcode hlen hkind hok hcol hmay hrep

/-- REGION with kind 0: what taking its descriptor comes to. -/
theorem regionOpen_journalled {u : State} {status : Nat} {P : State → Prop} (hzero : kindByte f = 0)
    (ha : (s.acked f x).takeDescriptor (descriptorOf 1 f) false x.num = gives status u) (hjseq : u.hw.jseq = s.hw.jseq)
    (hP : ∀ b, P (u.journal x.num f.seq f.code.toNat status f.rid b)) : Journalled (.regionOpen f) s f x status [] P :=
  journalled_of_taken h (show execRegionOpen f s = _ from rfl) (by simp [isRegion, isRequest_of htype hcode, hzero])
    (checkFails_launch (by simp [State.regionOk, hlen, hkind, hok]) hcol hmay) hrep ha hjseq hP

/-- REGION with kind 1 that need not wait for L0: what its abort comes to. -/
theorem regionAbort_journalled {u : State} {status : Nat} {P : State → Prop} (hone : kindByte f = 1)
    (hgo : s.abortWaits f = false) (ha : (s.acked f x).abortNamed (descriptorOf 1 f) = gives status u)
    (hjseq : u.hw.jseq = s.hw.jseq) (hP : ∀ b, P (u.journal x.num f.seq f.code.toNat status f.rid b)) :
    Journalled (.regionAbort f) s f x status [] P := by
  have hi : exec (.regionAbort f) s = journalledRequest (isRegion 1) s.regionOk (launchColour 1) (fun f => f.body.drop 8) f s
      fun _ t => t.abortNamed (descriptorOf 1 f) := by
    show execRegionAbort f s = _
    rw [execRegionAbort, if_neg (by simp [hgo])]
  exact journalled_of_taken h hi (by simp [isRegion, isRequest_of htype hcode, hone])
    (checkFails_launch (by simp [State.regionOk, hlen, hkind, hok]) hcol hmay) hrep ha hjseq hP

end

end

/-- Settles O57: each request by what its descriptor comes to in the state that its frame leaves. -/
theorem launchRequests : Obligations.LaunchRequests := by
  intro s f x h htype
  have hkept := s.acked_sessionsOnly f x
  refine ⟨?_, ?_⟩
  · intro die d key hcode hlen hok hdie
    have hdie' : (s.acked f x).dieOf d.ldie = some die := (hkept.dieOf _).trans hdie
    refine ⟨fun hcol => ?_, fun hcol hmay hrep => ⟨?_, ?_, ?_⟩⟩
    · exact ⟨_, show execLaunch f s = _ from journalledRequest_refused h (isRequest_of htype hcode)
        (checkFails_colour_zero (by simp [hlen, hok]) hcol) _ _, hkept.journal, hkept.launches⟩
    · intro r hl hr hload hbusy hfault
      have hgate : (true && ((s.acked f x).gateBusy key d.colour || (d.gate = 15 && hasFaultChannel r.bytes d.load))) = false := by
        rw [hkept.gateBusy, hbusy]
        simpa using hfault
      refine launch_journalled h htype hcode hlen hok hcol hmay hrep (State.takeDescriptor_opens hdie'
        ((hkept.launch _).trans hl) ((hkept.newest _).trans hr) hload hgate) ?_ fun b => ⟨?_, ?_, ?_⟩
      · simp [hkept.jseq]
      · simp [hkept.launches, hkept.openedLaunch]
      · simp [hkept.descs, d, key]
      · simp [hkept.arrivals]
    · intro l hl hlid
      refine launch_journalled h htype hcode hlen hok hcol hmay hrep
        (State.takeDescriptor_refused hdie' ((hkept.launch _).trans hl) hlid) hkept.jseq fun b => ⟨?_, ?_⟩
      · rw [State.journal_launches, hkept.launches]
      · rw [State.journal_descs, hkept.descs]
    · intro l r hl hlid hr hload hbusy hgate hgranted hmem
      refine launch_journalled h htype hcode hlen hok hcol hmay hrep (State.takeDescriptor_joins hdie'
        ((hkept.launch _).trans hl) hlid (by rw [hkept.newest, hr]; rfl) (by rwa [hkept.imageOf]) (by rwa [hkept.gateBusy])
        hgate hgranted hmem) ?_ fun b => ⟨?_, ?_⟩
      · simp [hkept.jseq]
      · simp [hkept.launches]
      · simp [hkept.descs, d, key]
  · intro d hcode hlen hkind hok hcol hmay hrep
    refine ⟨?_, ?_, ?_⟩
    · intro r die hzero hdie hl hr hload
      refine regionOpen_journalled h htype hcode hlen hkind hok hcol hmay hrep hzero (State.takeDescriptor_opens
        ((hkept.dieOf _).trans hdie) ((hkept.launch _).trans hl) ((hkept.newest _).trans hr) hload (Bool.false_and _))
        ?_ fun b => ⟨?_, ?_⟩
      · simp [hkept.jseq]
      · simp [hkept.launches, hkept.openedLaunch, d]
      · simp [hkept.descs]
    · intro l hone hl hlid hst hruns
      obtain ⟨hhw, hmem⟩ := State.abortLaunch_rest ((hkept.launch _).trans hl) (0, 0)
      refine regionAbort_journalled h htype hcode hlen hkind hok hcol hmay hrep hone (by simp [State.abortWaits, hruns])
        (u := (s.acked f x).abortLaunch d.colour (0, 0)) ?_ (by rw [hhw, hkept.jseq])
        fun b => ⟨finishing 2 (0, 0) l, ?_, (State.launch_spec hl).2.1, rfl, rfl, rfl⟩
      · have hl' : (s.acked f x).launch (descriptorOf 1 f).colour = some l := (hkept.launch _).trans hl
        rw [State.abortNamed, hl']
        dsimp only
        rw [if_neg (not_not_intro hlid)]
        rcases hst with hst | hst <;> rw [hst]
      · rw [State.journal_launches]
        exact hmem
    · intro hone hl
      have hl' : s.launch (descriptorOf 1 f).colour = none := hl
      refine regionAbort_journalled h htype hcode hlen hkind hok hcol hmay hrep hone (by simp [State.abortWaits, hl'])
        (u := s.acked f x) ?_ hkept.jseq fun b => ?_
      · rw [State.abortNamed, hkept.launch, hl']
      · rw [State.journal_launches, hkept.launches]

end Sys2Proof.Machine
end

section
/-! Headgates, and how a token leaves a source (13 R326 to R328, R350; 16 R443). -/

namespace Sys2Proof.Machine

open Sys2Proof.Statements

/-! ## The open launch of a colour -/

/-- A map that fixes what a search passes over finds the image of what the search found. -/
theorem find?_map_of_fixed {α : Type} {p : α → Bool} {g : α → α} (hg : ∀ x, p x = false → g x = x) {l : List α} {a : α}
    (h : l.find? p = some a) (ha : p (g a) = true) : (l.map g).find? p = some (g a) := by
  induction l with
  | nil => cases h
  | cons x l ih =>
    cases hx : p x with
    | true =>
      obtain rfl : x = a := by simpa [hx] using h
      rw [List.map_cons, List.find?_cons_of_pos ha]
    | false =>
      rw [List.find?_cons_of_neg (by simp [hx])] at h
      rw [List.map_cons, hg x hx, List.find?_cons_of_neg (by simp [hx])]
      exact ih h

theorem State.launch_congr {s t : State} (h : t.launches = s.launches) (colour : Nat) : t.launch colour = s.launch colour := by
  rw [State.launch, State.launch, h]

/-- A change of a launch that keeps it open under its colour is seen when it is looked up. -/
theorem State.launch_mapLaunch {s : State} {colour : Nat} {l : Launch} {f : Launch → Launch} (h : s.launch colour = some l)
    (hcol : (f l).colour = l.colour) (hst : (f l).st ≠ .ended) : (s.mapLaunch colour f).launch colour = some (f l) := by
  have hl := List.find?_some h
  have hfixed : ∀ x : Launch, (decide (x.colour = colour) && decide (x.st ≠ .ended)) = false →
      (if (decide (x.colour = colour) && decide (x.st ≠ .ended)) = true then f x else x) = x := fun x hx => by rw [hx]; rfl
  have hnew := find?_map_of_fixed hfixed h (by
    rw [hl]
    simp only [Bool.and_eq_true, decide_eq_true_eq] at hl
    simp [hcol, hl.1, hst])
  rw [hl] at hnew
  exact hnew

/-! ## A token that leaves (02 R29; 13 R350) -/

section
variable {s : State} {src : Source} {load : Nat} {b : Bind} {t : Token}

/-- One packet leaves for each consumer that a token with credit goes to. -/
theorem State.tryEmit_sends (hb : s.srcBind src t.colour load = some b) (hstray : strayStop b t = false)
    (hcredit : s.credit b t = true) : ∃ bs, s.tryEmit src load t =
      some { s with binds := bs, packets := s.packets ++ (pickDests b t).map (s.packet b t) } :=
  ⟨_, by rw [s.tryEmit_eq hb hcredit, s.emit_bound src load b t hb hstray]; rfl⟩

/-- A stop for a channel that is not ordered goes no further (log 69). -/
theorem State.tryEmit_stray (hb : s.srcBind src t.colour load = some b) (hstray : strayStop b t = true) :
    s.tryEmit src load t = some s := by
  simp [State.tryEmit, State.emit, hb, hstray]

end

/-! ## Headgates -/

section
variable {s : State} {key colour : Nat} {t : Token} {b : Bind}

/-- A headgate's token enters its channel: one packet for each consumer, and the stream ends behind EOS. -/
theorem State.gateEmit_sends (hb : s.srcBind (headSource key) t.colour (s.sourceLoad (headSource key) colour) = some b)
    (hstray : strayStop b t = false) (hcredit : s.credit b t = true) : ∃ bs, s.gateEmit key colour t =
      some ({ s with binds := bs, packets := s.packets ++ (pickDests b t).map (s.packet b t) }.setHead key
        (endStream t (s.head key))) := by
  obtain ⟨bs, hsent⟩ := State.tryEmit_sends hb hstray hcredit
  exact ⟨bs, by rw [State.gateEmit, hsent]; rfl⟩

theorem State.gateEmit_stray (hb : s.srcBind (headSource key) t.colour (s.sourceLoad (headSource key) colour) = some b)
    (hstray : strayStop b t = true) : s.gateEmit key colour t = some (s.setHead key (endStream t (s.head key))) := by
  rw [State.gateEmit, State.tryEmit_stray hb hstray]
  rfl

/-- The headgate once a token of the host has been taken: the answer is due no more when it was the last. -/
theorem State.takeFresh_head (s : State) (key : Nat) (rest : List Token) : (s.takeFresh key rest).head key =
    { s.head key with fresh := rest, answer := if rest = [] then none else (s.head key).answer } := by
  have hset := s.head_setHead_same key { s.head key with fresh := rest }
  rw [State.takeFresh, State.answerStream, hset]
  cases rest with
  | cons t rest => exact hset
  | nil =>
    cases ha : (s.head key).answer with
    | none => simp [ha]
    | some a =>
      exact ((State.sendMessage_sessionsOnly _ _ _ _ _ _ _).head key).trans (State.head_setHead_same _ _ _)

theorem State.takeFresh_packets (s : State) (key : Nat) (rest : List Token) : (s.takeFresh key rest).packets = s.packets := by
  rw [State.takeFresh, State.answerStream]
  dsimp only
  split
  · exact (State.sendMessage_sessionsOnly _ _ _ _ _ _ _).reads State.packets fun _ _ => rfl
  · rfl

theorem endStream_held (t : Token) (h : Headgate) : (endStream t h).held = h.held := by
  unfold endStream
  split <;> rfl

theorem endStream_st (t : Token) (h : Headgate) : (endStream t h).st = if t.kind = .eos then .idle else h.st := by
  unfold endStream
  split <;> rfl

/-- A stop is no EOS. -/
theorem strayStop_kind (h : strayStop b t = true) : t.kind ≠ .eos := by
  intro hkind
  simp [strayStop, hkind] at h

end

/-- A descriptor of an open launch takes an idle headgate. -/
theorem exec_headgateDescriptor {s : State} {i : Nat} {d : Desc} {l : Launch} (hd : s.hw.descs[i]? = some d)
    (hl : s.launch d.colour = some l) (hlid : l.lid = d.lid) (hst : l.st ≠ .finishing) (hidle : (s.head d.gate).st = .idle) :
    ∃ u, exec (.headgateDescriptor i) s = .next u ∧ u.hw.descs = s.hw.descs.eraseIdx i ∧
      (u.head d.gate).colour = some d.colour ∧ (u.head d.gate).lid = d.lid ∧
      (u.head d.gate).st = if s.resident l d.gate then .streaming else .holding := by
  let h : Headgate := { s.head d.gate with
    st := if s.resident l d.gate then .streaming else .holding, colour := some d.colour, lid := d.lid
    eosSeen := (s.head d.gate).fresh.any fun x => x.kind = .eos }
  let t : State := { s with hw := { s.hw with descs := dropNth s.hw.descs i } }
  have hhead (f : Launch → Launch) : ((t.setHead d.gate h).mapLaunch d.colour f).head d.gate = h := t.head_setHead_same d.gate h
  refine ⟨(t.setHead d.gate h).mapLaunch d.colour fun x =>
    if h.st = .holding && x.woke.isNone then { x with woke := some (d.gate / 16) } else x, ?_, dropNth_eq_eraseIdx _ _, ?_, ?_, ?_⟩
  · show execHeadgateDescriptor i s = _
    simp only [execHeadgateDescriptor, hd, hl]
    rw [if_neg (by simp [hlid, hst]), if_neg (not_not_intro hidle)]
  all_goals rw [hhead]

section
variable {s : State} {die gate : Nat} {t : Token} {rest : List Token}

/-- The next token that the host has sent is held by a holding headgate with room. -/
theorem headgateToken_held (hfresh : (s.head (die * 16 + gate)).fresh = t :: rest)
    (hst : (s.head (die * 16 + gate)).st = .holding) (hroom : (s.head (die * 16 + gate)).held.length < 64) :
    ∃ u, exec (.headgateToken die gate) s = .next u ∧
      (u.head (die * 16 + gate)).held = (s.head (die * 16 + gate)).held ++ [t] ∧ (u.head (die * 16 + gate)).fresh = rest := by
  let h := { s.head (die * 16 + gate) with held := (s.head (die * 16 + gate)).held ++ [t] }
  have hhead := ((s.setHead (die * 16 + gate) h).takeFresh_head (die * 16 + gate) rest)
  rw [State.head_setHead_same] at hhead
  refine ⟨(s.setHead (die * 16 + gate) h).takeFresh (die * 16 + gate) rest, ?_, by rw [hhead], by rw [hhead]⟩
  show execHeadgateToken die gate s = _
  simp only [execHeadgateToken, h, hfresh, hst]
  rw [if_pos (show _ < maxHeld from hroom)]

section
variable {b : Bind} (hfresh : (s.head (die * 16 + gate)).fresh = t :: rest) (hst : (s.head (die * 16 + gate)).st = .streaming)
  (hcol : (s.head (die * 16 + gate)).colour = some t.colour) (hheld : (s.head (die * 16 + gate)).held = [])
include hfresh hst hcol hheld

/-- What a streaming headgate that holds nothing does with the next token of the host. -/
theorem headgateToken_streams {u : State} (hu : s.gateEmit (die * 16 + gate) t.colour t = some u) :
    exec (.headgateToken die gate) s = .next (u.takeFresh (die * 16 + gate) rest) := by
  show execHeadgateToken die gate s = _
  simp only [execHeadgateToken, hfresh, hst, hcol, hheld, hu]
  rw [if_neg (by simp)]

variable (hb : s.srcBind (headSource (die * 16 + gate)) t.colour (s.sourceLoad (headSource (die * 16 + gate)) t.colour) = some b)
include hb

theorem headgateToken_sends (hstray : strayStop b t = false) (hcredit : s.credit b t = true) :
    ∃ u, exec (.headgateToken die gate) s = .next u ∧ (u.head (die * 16 + gate)).fresh = rest ∧
      u.packets = s.packets ++ (pickDests b t).map (s.packet b t) ∧
      (u.head (die * 16 + gate)).st = if t.kind = .eos then .idle else .streaming := by
  obtain ⟨bs, hu⟩ := State.gateEmit_sends hb hstray hcredit
  refine ⟨_, headgateToken_streams hfresh hst hcol hheld hu, by rw [State.takeFresh_head], by rw [State.takeFresh_packets]; rfl, ?_⟩
  rw [State.takeFresh_head, State.head_setHead_same, ← hst]
  exact endStream_st t _

theorem headgateToken_drops (hstray : strayStop b t = true) :
    ∃ u, exec (.headgateToken die gate) s = .next u ∧ (u.head (die * 16 + gate)).fresh = rest ∧ u.packets = s.packets ∧
      (u.head (die * 16 + gate)).st = .streaming := by
  refine ⟨_, headgateToken_streams hfresh hst hcol hheld (State.gateEmit_stray hb hstray), by rw [State.takeFresh_head],
    by rw [State.takeFresh_packets]; rfl, ?_⟩
  rw [State.takeFresh_head, State.head_setHead_same, ← hst]
  exact (endStream_st t _).trans (if_neg (strayStop_kind hstray))

end

/-- The oldest held token of a streaming headgate enters its channel. -/
theorem heldTokenRelease_sends {l : Launch} {b : Bind} (hl : s.gateLaunch (die * 16 + gate) = some l)
    (hst : (s.head (die * 16 + gate)).st = .streaming) (hheld : (s.head (die * 16 + gate)).held = t :: rest)
    (hcol : t.colour = l.colour)
    (hb : s.srcBind (headSource (die * 16 + gate)) l.colour (s.sourceLoad (headSource (die * 16 + gate)) l.colour) = some b)
    (hstray : strayStop b t = false) (hcredit : s.credit b t = true) :
    ∃ u, exec (.heldTokenRelease die gate) s = .next u ∧ (u.head (die * 16 + gate)).held = rest ∧
      u.packets = s.packets ++ (pickDests b t).map (s.packet b t) := by
  obtain ⟨bs, hu⟩ := State.gateEmit_sends (hcol ▸ hb) hstray hcredit
  rw [hcol] at hu
  have hexec : exec (.heldTokenRelease die gate) s = .next (s.releaseHeld (die * 16 + gate) l.colour) := by
    show execHeldTokenRelease die gate s = _
    simp only [execHeldTokenRelease, hl, hst]
  simp only [State.releaseHeld, hheld, hu] at hexec
  exact ⟨_, hexec, congrArg Headgate.held (State.head_setHead_same _ _ _), rfl⟩

end

end Sys2Proof.Machine
end

section
/-! The region scheduler and the loader (13 R330 to R332, R335, R337; 14 R384): a region granted, a launch written, a load staged. -/

namespace Sys2Proof.Machine

open Sys2Proof.Statements

/-- What one step of a fold establishes and every step keeps holds after the fold. -/
theorem foldl_establishes {α : Type} {f : State → α → State} {P : State → Prop} (hkeep : ∀ t a, P t → P (f t a)) {a : α}
    (hest : ∀ t, P (f t a)) {l : List α} (ha : a ∈ l) (s : State) : P (l.foldl f s) := by
  have hkept : ∀ (l : List α) (t : State), P t → P (l.foldl f t) := by
    intro l
    induction l with
    | nil => exact fun _ h => h
    | cons b l ih => exact fun t h => ih _ (hkeep t b h)
  obtain ⟨l₁, l₂, rfl⟩ := List.append_of_mem ha
  rw [List.foldl_append, List.foldl_cons]
  exact hkept l₂ _ (hest _)

/-! ## Granting a region (13 R332) -/

section
variable (s : State)

theorem State.grantPlots_elems (die colour : Nat) (r : Rect) : (s.grantPlots die colour r).elems = s.elems := by
  unfold State.grantPlots
  exact foldl_leaves (F := State.elems) (by intros; rfl) _ _

theorem State.grantPlots_launches (die colour : Nat) (r : Rect) : (s.grantPlots die colour r).launches = s.launches := by
  unfold State.grantPlots
  exact foldl_leaves (F := State.launches) (by intros; rfl) _ _

/-- A plot set to a colour does not lose it to the same colour's grant. -/
theorem State.plot_colour_setPlot {colour k : Nat} (h : (s.plot k).colour = some colour) (j : Nat) :
    ((s.setPlot j { s.plot j with colour := some colour }).plot k).colour = some colour := by
  by_cases hk : k = j
  · rw [hk, State.plot_setPlot_same]
  · rw [State.plot_setPlot_other s _ hk, h]

theorem State.grantPlots_keeps {colour k : Nat} (h : (s.plot k).colour = some colour) (die : Nat) (r : Rect) :
    ((s.grantPlots die colour r).plot k).colour = some colour := by
  unfold State.grantPlots
  refine List.foldlRecOn (motive := fun t : State => (t.plot k).colour = some colour) _ _ h fun t ht p _ => ?_
  exact t.plot_colour_setPlot ht _

theorem State.grantPlots_plot {die colour p : Nat} {r : Rect} (hp : p < 400) (hr : rectHolds r die p = true) :
    ((s.grantPlots die colour r).plot (die * 400 + p)).colour = some colour := by
  unfold State.grantPlots
  refine foldl_establishes (P := fun t : State => (t.plot (die * 400 + p)).colour = some colour)
    (fun t q h => t.plot_colour_setPlot h _) (fun t => ?_) (List.mem_filter.2 ⟨List.mem_range.2 hp, hr⟩) _
  rw [State.plot_setPlot_same]

variable (l : Launch) (r : Rect) (dies : List Nat)

/-- The state in which a region's plots and gates are its colour's. -/
def State.held : State :=
  let b := s.imageOf l.colour
  let s := dies.foldl (fun t d => t.grantPlots d l.colour r) s
  let s := (imageGates b dies).foldl (fun t k => t.setHead k { t.head k with colour := some l.colour }) s
  (imageOutfalls b dies).foldl (fun t k => t.setOut k { t.out k with colour := some l.colour }) s

theorem State.grant_eq : s.grant l r dies = (s.held l r dies).mapLaunch l.colour fun x => { x with rect := some r, dies := dies } :=
  rfl

/-- Beyond the plots, granting a region changes gates alone. -/
theorem State.held_leaves {β : Type} {F : State → β} (hhead : ∀ (t : State) k h, F (t.setHead k h) = F t)
    (hout : ∀ (t : State) k o, F (t.setOut k o) = F t) :
    F (s.held l r dies) = F (dies.foldl (fun t d => t.grantPlots d l.colour r) s) :=
  (foldl_leaves (fun t k => hout t k _) _ _).trans (foldl_leaves (fun t k => hhead t k _) _ _)

theorem State.grant_elems : (s.grant l r dies).elems = s.elems :=
  (s.held_leaves l r dies (F := State.elems) (fun _ _ _ => rfl) fun _ _ _ => rfl).trans
    (foldl_leaves (fun t d => t.grantPlots_elems d _ _) dies s)

theorem State.held_launches : (s.held l r dies).launches = s.launches :=
  (s.held_leaves l r dies (F := State.launches) (fun _ _ _ => rfl) fun _ _ _ => rfl).trans
    (foldl_leaves (fun t d => t.grantPlots_launches d _ _) dies s)

/-- Every plot of the rectangle on its dies is the colour's. -/
theorem State.grant_plot {d p : Nat} (hd : d ∈ dies) (hp : p < 400) (hr : rectHolds r d p = true) :
    ((s.grant l r dies).plot (d * 400 + p)).colour = some l.colour := by
  refine (congrArg Plot.colour (s.held_leaves l r dies (F := fun t => t.plot (d * 400 + p)) (fun _ _ _ => rfl)
    fun _ _ _ => rfl)).trans ?_
  exact foldl_establishes (P := fun t : State => (t.plot (d * 400 + p)).colour = some l.colour)
    (fun t e h => t.grantPlots_keeps h e r) (fun t => t.grantPlots_plot hp hr) hd s

variable {s l}

theorem State.grant_launch (hl : s.launch l.colour = some l) :
    (s.grant l r dies).launch l.colour = some { l with rect := some r, dies := dies } := by
  obtain ⟨-, -, hst⟩ := State.launch_spec hl
  rw [State.grant_eq]
  exact State.launch_mapLaunch ((State.launch_congr (s.held_launches l r dies) _).trans hl) rfl hst

end

/-! ## Writing a launch (13 R335) -/

section
variable (s : State)

theorem State.bindChan_outsideTraffic (x : Source) (load : Option Nat) (colour chan : Nat) (kind : ChanKind) (d : Dest) :
    (s.bindChan x load colour chan kind d).outsideTraffic = s.outsideTraffic := by
  have hheld : (s.holdGates colour x d).outsideTraffic = s.outsideTraffic := by
    unfold State.holdGates
    dsimp only
    split <;> split <;> rfl
  refine Eq.trans ?_ hheld
  unfold State.bindChan
  dsimp only
  split <;> split <;> rfl

theorem State.setDepths_outsideTraffic (b : List Byte) (colour : Nat) (load : Option Nat) (die off : Nat) (cs : List Nat) :
    (s.setDepths b colour load die off cs).outsideTraffic = s.outsideTraffic := by
  induction cs generalizing s off with
  | nil => rfl
  | cons c cs ih => exact (ih _ _).trans rfl

theorem State.bindLoad_outsideTraffic (b : List Byte) (colour : Nat) (load : Option Nat) (dies : List Nat) (p : Plan)
    (cs : List Nat) : (s.bindLoad b colour load dies p cs).outsideTraffic = s.outsideTraffic := by
  unfold State.bindLoad
  exact foldl_leaves (fun _ _ => foldl_leaves (fun _ _ => foldl_leaves (fun v _ => v.bindChan_outsideTraffic _ _ _ _ _ _) _ _) _ _)
    _ _

theorem State.writeChans_outsideTraffic (b : List Byte) (colour load : Nat) (bank : Option Nat) (dies : List Nat) (p : Plan) :
    (s.writeChans b colour load bank dies p).outsideTraffic = s.outsideTraffic :=
  (foldl_leaves (fun t _ => t.setDepths_outsideTraffic _ _ _ _ _ _) _ _).trans (s.bindLoad_outsideTraffic _ _ _ _ _ _)

theorem State.writeElems_outsideLoads (b : List Byte) (colour load : Nat) (dies : List Nat) (p : Plan) :
    (s.writeElems b colour load dies p).outsideLoads = s.outsideLoads := by
  unfold State.writeElems
  exact foldl_outsideLoads (fun t d => foldl_outsideLoads (by intros; rfl) _ _) _ _

theorem State.writeNodes_outsideLoads (b : List Byte) (colour : Nat) (p : Plan) :
    (s.writeNodes b colour p).outsideLoads = s.outsideLoads := by
  unfold State.writeNodes
  exact foldl_outsideLoads (by intros; rfl) _ _

theorem State.writeMas_outsideLoads (b : List Byte) (colour : Nat) (staged : Bool) (p : Plan) :
    (s.writeMas b colour staged p).outsideLoads = s.outsideLoads := by
  unfold State.writeMas
  exact foldl_outsideLoads (by intros; rfl) _ _

theorem State.writePools_outsideLoads (b : List Byte) (colour : Nat) (dies : List Nat) :
    (s.writePools b colour dies).outsideLoads = s.outsideLoads := by
  unfold State.writePools
  refine foldl_outsideLoads (fun t x => ?_) _ _
  split <;> rfl

theorem State.commitLoad_outsideLoads (die colour load : Nat) (ps : List Nat) (one : Bool) :
    (s.commitLoad die colour load ps one).outsideLoads = s.outsideLoads :=
  (State.mapMas_outsideLoads _ _ _ _).trans <| (State.mapNodes_outsideLoads _ _ _ _).trans <| s.mapElems_outsideLoads _ _ _

/-- What a launch writes before it is active. -/
def State.written (l : Launch) (b : List Byte) (p : Plan) : State :=
  let s := ((s.writeElems b l.colour l.load l.dies p).writeNodes b l.colour p).writeMas b l.colour false p
  let s := (s.writePools b l.colour l.dies).writeChans b l.colour l.load none l.dies p
  let s := l.dies.foldl (fun t d => t.commitLoad d l.colour l.load (t.regionElems d l.colour) false) s
  p.mas.foldl (fun t m => t.runMa m.die m.slot) s

theorem State.writeLaunch_eq (l : Launch) (b : List Byte) (p : Plan) : s.writeLaunch l b p =
    (s.written l b p).mapLaunch l.colour fun l => { l with st := .active, plan := p, absent := false } := rfl

theorem State.written_outsideLoads (l : Launch) (b : List Byte) (p : Plan) :
    (s.written l b p).outsideLoads = s.outsideLoads :=
  (foldl_outsideLoads (by intros; rfl) _ _).trans <| (foldl_outsideLoads (fun t d => t.commitLoad_outsideLoads _ _ _ _ _) _ _).trans <|
    (outsideLoads_of_traffic (State.writeChans_outsideTraffic _ _ _ _ _ _ _)).trans <|
    (State.writePools_outsideLoads _ _ _ _).trans <| (State.writeMas_outsideLoads _ _ _ _ _).trans <|
    (State.writeNodes_outsideLoads _ _ _ _).trans <| s.writeElems_outsideLoads _ _ _ _ _

variable {s} {l : Launch}

/-- A launch that is written is active under its plan. -/
theorem State.writeLaunch_launch (hl : s.launch l.colour = some l) (b : List Byte) (p : Plan) :
    (s.writeLaunch l b p).launch l.colour = some { l with st := .active, plan := p, absent := false } := by
  rw [State.writeLaunch_eq]
  exact State.launch_mapLaunch ((State.launch_congr (launches_of_loads (s.written_outsideLoads l b p)) _).trans hl) rfl nofun

/-! ## Staging a load (13 R337) -/

/-- A load staged is closed on every die of the region. -/
theorem State.stageLoad_closed (hgood : s.imageBad l = false) (b : List Byte) (load : Nat) (p : Plan) {d : Nat} (hd : d ∈ l.dies) :
    ((s.stageLoad l b load p).staging d l.colour).isOpen = false ∧
      ((s.stageLoad l b load p).staging d l.colour).closed = true := by
  have hset (t : State) (e : Nat) (g : Staging) (k : Nat) : (t.setStaging e l.colour g).staging k l.colour =
      if k * 16 + l.colour = e * 16 + l.colour then g else t.staging k l.colour := by
    split
    · next h => simp [State.staging, State.setStaging, h, tabGet_tabSet_same]
    · next h => simp [State.staging, State.setStaging, tabGet_tabSet_other _ _ h]
  rw [State.stageLoad, if_neg (by simp [hgood])]
  refine foldl_establishes (P := fun t : State => (t.staging d l.colour).isOpen = false ∧ (t.staging d l.colour).closed = true)
    (fun t e h => ?_) (fun t => ?_) hd _
  · rw [hset]
    split
    · exact ⟨rfl, rfl⟩
    · exact h
  · rw [hset, if_pos rfl]
    exact ⟨rfl, rfl⟩

end

/-! ## The events -/

section
variable {s : State} {colour : Nat} {l : Launch} {plan : Plan}

/-- A waiting launch that may be granted a rectangle is granted it. -/
theorem exec_regionSchedule {rect : Rect} (hl : s.launch colour = some l) (hwaits : waits l = true) (hst : l.st = .waiting)
    (hsuits : s.rectSuits l rect = true) (hchosen : s.rectChosen l rect = true) (hgrant : s.grantable l rect = true)
    (hahead : s.behind l rect = false)
    (hplan : s.planGood (s.imageOf colour) colour (l.load % 64) rect (s.rectDies rect l.die0) plan = true)
    (hroom : s.spillRoom (s.imageOf colour) (l.load % 64) (s.rectDies rect l.die0) plan = true) (hruns : s.loaderRuns = true) :
    exec (.regionSchedule colour rect plan) s = .next (s.grant l rect (s.rectDies rect l.die0)) := by
  have hplan' : s.planGood (s.imageOf colour) colour (loadNumber l.load) rect (s.rectDies rect l.die0) plan = true := hplan
  have hroom' : s.spillRoom (s.imageOf colour) (loadNumber l.load) (s.rectDies rect l.die0) plan = true := hroom
  show execRegionSchedule colour rect plan s = _
  simp only [execRegionSchedule, hl, hruns, hwaits, hsuits, hchosen, hgrant, hahead, hplan', hroom', hst]
  rfl

/-- A granted launch whose plan fits in a quiet region is written. -/
theorem exec_loaderWake_writes {rect : Rect} (hl : s.launch colour = some l) (hst : l.st = .waiting) (hrect : l.rect = some rect)
    (hfit : s.fit l (s.imageOf colour) (l.load % 64) plan = .good) (hquiet : s.regionQuiet l = true)
    (hstill : s.regionStill l = true) (hpools : s.poolsRoom (s.imageOf colour) l.dies = true) (hgood : s.imageBad l = false)
    (hruns : s.loaderRuns = true) :
    exec (.loaderWake colour plan) s = .next (s.writeLaunch l (s.imageOf colour) plan) := by
  have hfit' : s.fit l (s.imageOf colour) (loadNumber l.load) plan = .good := hfit
  show execLoaderWake colour plan s = _
  simp only [execLoaderWake, hl, hruns, hst, State.wakeWaiting, hrect, hfit', hquiet, hstill, hpools, hgood]
  rfl

/-- The load that follows an active one is staged. -/
theorem exec_loaderWake_stages {n : Nat} (hl : s.launch colour = some l) (hst : l.st = .active)
    (harmed : ∀ d ∈ l.dies, s.armedAt d colour = false)
    (hnext : nextLoad l (imgLoads (s.imageOf colour)) = some (some n)) (hstaged : s.stagedAll l (nextKey l n) = false)
    (hswitch : s.switching l (nextKey l n) = false) (hfit : s.fit l (s.imageOf colour) n plan = .good)
    (hruns : s.loaderRuns = true) :
    exec (.loaderWake colour plan) s = .next (s.stageLoad l (s.imageOf colour) n plan) := by
  obtain ⟨-, hcol, -⟩ := State.launch_spec hl
  have hnone : (l.dies.any fun d => s.armedAt d l.colour) = false := by
    rw [hcol]
    simpa using harmed
  show execLoaderWake colour plan s = _
  simp only [execLoaderWake, hl, hruns, hst, State.wakeActive, hnone, hnext, hstaged, hswitch, hfit]
  rfl

end

/-- Settles O44: headgates by what the tokens they take come to; the scheduler and the loader by the region, launch and staging
that they leave. -/
theorem headgatesAndScheduler : Obligations.HeadgatesAndScheduler := by
  refine ⟨⟨?_, ?_, ?_⟩, ?_, ?_, ?_⟩
  · exact fun s i d l => exec_headgateDescriptor
  · intro s die gate t rest key hfresh
    refine ⟨headgateToken_held hfresh, fun b hst hcol hheld hb => ⟨?_, ?_⟩⟩
    · exact headgateToken_sends hfresh hst hcol hheld hb
    · exact headgateToken_drops hfresh hst hcol hheld hb
  · exact fun s die gate t rest l b => heldTokenRelease_sends
  · intro s colour rect plan l hl hwaits hst hsuits hchosen hgrant hahead dies hplan hroom hruns
    obtain ⟨-, rfl, -⟩ := State.launch_spec hl
    exact ⟨_, exec_regionSchedule hl hwaits hst hsuits hchosen hgrant hahead hplan hroom hruns, State.grant_launch rect dies hl,
      s.grant_elems l rect dies, fun d hd p hp => s.grant_plot l rect dies hd hp⟩
  · intro s colour plan l rect hl hst hrect b hfit hquiet hstill hpools hgood hruns
    obtain ⟨-, rfl, -⟩ := State.launch_spec hl
    exact ⟨_, exec_loaderWake_writes hl hst hrect hfit hquiet hstill hpools hgood hruns, rfl, State.writeLaunch_launch hl b plan⟩
  · intro s colour plan l n hl hst harmed b hnext hstaged hswitch hfit hgood hruns
    obtain ⟨-, rfl, -⟩ := State.launch_spec hl
    exact ⟨_, exec_loaderWake_stages hl hst harmed hnext hstaged hswitch hfit hruns, rfl,
      fun d => State.stageLoad_closed hgood b n plan⟩

end Sys2Proof.Machine
end

section
/-! From one load to the next (13 R336 to R341): selection, switch tokens, the switch of elements. -/

namespace Sys2Proof.Machine

open Sys2Proof.Statements

/-! ## What changes channels and packets alone -/

/-- A state differs in channels and packets, and in nothing else. -/
def ChannelsOnly (s t : State) : Prop :=
  ∃ bs cs ds ps, t = { s with binds := bs, chans := cs, depths := ds, packets := ps }

namespace ChannelsOnly
variable {s t u : State}

theorem refl (s : State) : ChannelsOnly s s := ⟨_, _, _, _, rfl⟩

theorem trans (h : ChannelsOnly s t) (h' : ChannelsOnly t u) : ChannelsOnly s u := by
  obtain ⟨bs, cs, ds, ps, rfl⟩ := h
  obtain ⟨bs', cs', ds', ps', rfl⟩ := h'
  exact ⟨bs', cs', ds', ps', rfl⟩

theorem foldl {α : Type} {f : State → α → State} (hf : ∀ t a, ChannelsOnly t (f t a)) (l : List α) (s : State) :
    ChannelsOnly s (l.foldl f s) := by
  induction l generalizing s with
  | nil => exact refl s
  | cons a l ih => exact (hf s a).trans (ih _)

/-- What does not depend on channels and packets reads the same. -/
theorem reads {α : Type} (h : ChannelsOnly s t) (F : State → α)
    (hF : ∀ bs cs ds ps, F { s with binds := bs, chans := cs, depths := ds, packets := ps } = F s) : F t = F s := by
  obtain ⟨bs, cs, ds, ps, rfl⟩ := h
  exact hF bs cs ds ps

theorem elem (h : ChannelsOnly s t) (k : Nat) : t.elem k = s.elem k := h.reads (·.elem k) fun _ _ _ _ => rfl
theorem phys (h : ChannelsOnly s t) : t.phys = s.phys := h.reads (·.phys) fun _ _ _ _ => rfl
theorem out (h : ChannelsOnly s t) (k : Nat) : t.out k = s.out k := h.reads (·.out k) fun _ _ _ _ => rfl
theorem launch (h : ChannelsOnly s t) (colour : Nat) : t.launch colour = s.launch colour :=
  h.reads (·.launch colour) fun _ _ _ _ => rfl

end ChannelsOnly

section
variable (s : State)

theorem State.mapChan_channelsOnly (d : Dest) (colour : Nat) (load : Option Nat) (f : Chan → Chan) :
    ChannelsOnly s (s.mapChan d colour load f) := ⟨_, _, _, _, rfl⟩

theorem State.askSpilled_channelsOnly (d : Dest) (colour : Nat) (load : Option Nat) :
    ChannelsOnly s (s.askSpilled d colour load) := by
  unfold State.askSpilled
  split
  · exact .refl s
  · split
    · exact .refl s
    · exact ⟨_, _, _, _, rfl⟩

theorem State.takeOut_channelsOnly (c : Chan) (t : Token) : ChannelsOnly s (s.takeOut c t) :=
  (s.mapChan_channelsOnly _ _ _ _).trans (State.askSpilled_channelsOnly _ _ _ _)

theorem State.tryEmit_channelsOnly {src : Source} {load : Nat} {t : Token} {u : State} (h : s.tryEmit src load t = some u) :
    ChannelsOnly s u := by
  obtain ⟨bs, ps, rfl⟩ := State.tryEmit_rest h
  exact ⟨_, _, _, _, rfl⟩

theorem State.sendSwitch_channelsOnly (src : Source) (load colour : Nat) :
    ChannelsOnly s ((s.sendSwitch src load colour).getD s) := by
  cases hu : s.sendSwitch src load colour with
  | none => exact .refl s
  | some u =>
    unfold State.sendSwitch at hu
    split at hu
    · split at hu
      · exact s.tryEmit_channelsOnly hu
      · cases hu
    · cases hu

theorem State.dropChans_channelsOnly (colour load : Nat) (p : Dest → Bool) : ChannelsOnly s (s.dropChans colour load p) :=
  ⟨_, _, _, _, rfl⟩

/-- The endpoints that are dropped are gone. -/
theorem State.mem_dropChans {colour load : Nat} {p : Dest → Bool} {c : Chan} (h : c ∈ (s.dropChans colour load p).chans) :
    (c.colour = colour && c.load = some load && p c.dest) = false := by
  simpa only [Bool.not_eq_true'] using (List.mem_filter.1 h).2

theorem State.retireEnds_channelsOnly (colour load : Nat) : ChannelsOnly s (s.retireEnds colour load) := by
  unfold State.retireEnds
  dsimp only
  split
  · exact ⟨_, _, _, _, rfl⟩
  · exact .refl s

/-- Retiring a load's channels adds no endpoint. -/
theorem State.mem_retireEnds {colour load : Nat} {c : Chan} (h : c ∈ (s.retireEnds colour load).chans) : c ∈ s.chans := by
  unfold State.retireEnds at h
  dsimp only at h
  split at h
  · exact List.mem_of_mem_filter h
  · exact h

end

/-! ## Selection (R336) -/

/-- The first data token of the control channel selects the load that follows. -/
theorem exec_loadSelect {s : State} {colour : Nat} {c : Chan} {t : Token} {rest : List Token}
    (hc : (s.chans.find? fun x => x.colour = colour && x.load = some (s.activeLoad colour) && s.isControl x && x.queue ≠ []) = some c)
    (hqueue : c.queue = t :: rest) (hstuck : c.stuck = false) (hkind : t.kind = .data)
    (hsel : (s.out (c.dest.die * 16 + c.dest.pos)).selected = none) (hl : s.launch colour ≠ none) :
    ∃ u, exec (.loadSelect colour) s = .next u ∧
      (u.out (c.dest.die * 16 + c.dest.pos)).selected = some (t.payload.toNat % 65536) ∧
      (u.launch colour).map Launch.select = some (selectOf (imgLoads (s.imageOf colour)) (t.payload.toNat % 65536)) := by
  obtain ⟨l, hl⟩ := Option.ne_none_iff_exists'.1 hl
  obtain ⟨-, -, hst⟩ := State.launch_spec hl
  have hhead : c.head = some t := by rw [Chan.head, hstuck, hqueue]; rfl
  have htaken := s.takeOut_channelsOnly c t
  have hout := htaken.out (c.dest.die * 16 + c.dest.pos)
  have hexec : exec (.loadSelect colour) s = .next (((s.takeOut c t).setOut (c.dest.die * 16 + c.dest.pos)
      { s.out (c.dest.die * 16 + c.dest.pos) with selected := some (t.payload.toNat % 65536) }).mapLaunch colour fun l =>
        { l with select := selectOf (imgLoads (s.imageOf colour)) (t.payload.toNat % 65536) }) := by
    show execLoadSelect colour s = _
    simp only [execLoadSelect, hc, hhead, hout]
    rw [if_neg (by simp [hkind, hsel])]
  refine ⟨_, hexec, congrArg Outfall.selected (State.out_setOut_same _ _ _), ?_⟩
  have hopen : ((s.takeOut c t).setOut (c.dest.die * 16 + c.dest.pos) { s.out (c.dest.die * 16 + c.dest.pos) with
      selected := some (t.payload.toNat % 65536) }).launch colour = some l := (htaken.launch colour).trans hl
  exact congrArg (Option.map Launch.select) (State.launch_mapLaunch hopen rfl hst)

/-! ## Switch tokens (R338) -/

section
variable {s : State} {src : Source} {load colour : Nat} {b : Bind}

/-- A binding that has sent a switch token has switched. -/
theorem State.emit_switched (hb : s.srcBind src colour load = some b) :
    ((s.emit src load (markerToken .switch colour)).srcBind src colour load).map Bind.switched = some true := by
  rw [s.emit_bound src load b (markerToken .switch colour) hb (by simp [strayStop, markerToken])]
  have hsame : (fun x : Bind => decide (x.source = src) && decide (x.colour = colour) && decide (x.load = some load)) ∘
      (fun x => if numberedWith b x then { x with seq := b.seq + 1 } else x) =
        fun x => decide (x.source = src) && decide (x.colour = colour) && decide (x.load = some load) := by
    funext x
    rw [Function.comp_apply]
    split <;> rfl
  have hsent := find?_map_of_fixed
    (p := fun x : Bind => decide (x.source = src) && decide (x.colour = colour) && decide (x.load = some load))
    (g := fun x => if x.source = src && x.colour = colour && x.load = some load then sentOn x (markerToken .switch colour) else x)
    (fun x hx => by rw [hx]; rfl) hb (by
      have hp := List.find?_some hb
      rw [hp]
      exact hp)
  rw [List.find?_some hb] at hsent
  show (List.find? _ (List.map _ (List.map _ s.binds))).map Bind.switched = some true
  rw [List.find?_map, hsame]
  refine (congrArg (fun x => (Option.map _ x).map Bind.switched) hsent).trans ?_
  rw [if_pos rfl, Option.map_some, Option.map_some]
  split <;> simp [sentOn, markerToken]

/-- An element sends the switch token of an output before it switches where its actors have all ended and the output feeds it. -/
theorem exec_switchToken_element (hkind : src.kind = .element) (hlate : s.lateSwitch src colour = none) :
    exec (.switchToken src colour) s =
      if ((s.elem (elemKey src.die src.pos)).colour = colour && (s.elem (elemKey src.die src.pos)).cut = .open &&
          bankEnded (s.elem (elemKey src.die src.pos)) && s.feedsItself (elemKey src.die src.pos) src.out) = true then
        .next ((s.sendSwitch src (s.elem (elemKey src.die src.pos)).load colour).getD s)
      else .next s := by
  show execSwitchToken src colour s = _
  simp only [execSwitchToken, hkind, hlate]

theorem bankEnded_of {e : Element} (hconf : e.configured = true) (hfir : e.fir.status = .idle)
    (hends : ∀ n, n < 8 → n ∈ validSlots e.active → nth e.ends.toList n .active = .ended) : bankEnded e = true := by
  simp only [bankEnded, hconf, hfir, decide_true, Bool.and_self, Bool.true_and, List.all_eq_true, decide_eq_true_eq]
  exact fun n hn => hends n (List.mem_range.1 (List.mem_of_mem_filter hn)) hn

theorem State.sendSwitch_sends (hb : s.srcBind src colour load = some b) (hclosed : b.closed = true) (hswitched : b.switched = false)
    (hweired : b.weired = false) (harmed : (s.staging src.die colour).armed = true)
    (hcredit : s.credit b (markerToken .switch colour) = true) :
    s.sendSwitch src load colour = some (s.emit src load (markerToken .switch colour)) := by
  simp only [State.sendSwitch, hb, owesSwitch, hclosed, hswitched, hweired, State.armedAt, harmed]
  exact s.tryEmit_eq hb hcredit

end

/-! ## The switch of an element (R339) -/

/-- The element that has taken its staged bank. -/
structure Switched (e e' : Element) (colour load : Nat) : Prop where
  configured : e'.configured = true
  active : e'.active = e.staged
  colour : e'.colour = colour
  load : e'.load = load

section
variable {s : State} {k : Nat}

/-- With no granule of HBM unreadable, an element takes its staged bank. -/
theorem State.takeStaged_switched (hbad : s.bad = []) (hstaged : validSlots (s.elem k).staged ≠ []) (load : Nat) :
    ∃ e', s.takeStaged k load = s.setElem k e' ∧ Switched (s.elem k) e' (s.switchColour k) load := by
  have hgood (d off n : Nat) : s.copyBad d off n = false := by simp [State.copyBad, hbad]
  have hcopy (e : Element) : (s.copyStaged k e).2 = false := by
    simp only [State.copyStaged, hgood]
    cases e.imgDesc <;> cases e.constDesc <;> rfl
  simp only [State.takeStaged, hcopy]
  rw [if_neg (by decide), if_neg hstaged]
  exact ⟨_, rfl, rfl, rfl, rfl, rfl⟩

variable {die pos : Nat}

theorem elemKey_div (h : pos < 6400) : elemKey die pos / 6400 = die := by unfold elemKey; omega
theorem elemKey_mod (h : pos < 6400) : elemKey die pos % 6400 = pos := by unfold elemKey; omega

/-- An element without an active bank takes its staged one. -/
theorem elementSwitch_idle {colour : Nat} (hpos : pos < 6400) (harmed : (s.elem (elemKey die pos)).armed = true)
    (hconf : (s.elem (elemKey die pos)).configured = false) (hcut : (s.elem (elemKey die pos)).cut = .open)
    (hquiet : unitsQuiet (s.elem (elemKey die pos)) = true) (hcol : (s.plot (die * 400 + pos / 16)).colour = some colour)
    (hdie : (s.staging die colour).armed = true) (hstaged : validSlots (s.elem (elemKey die pos)).staged ≠ [])
    (hbad : s.bad = []) : ∃ u, exec (.elementSwitch die pos) s = .next u ∧
      Switched (s.elem (elemKey die pos)) (u.elem (elemKey die pos)) colour (s.staging die colour).load ∧ u.phys = s.phys := by
  have hcolour : s.switchColour (elemKey die pos) = colour := by
    simp only [State.switchColour, hconf, elemKey_div hpos, elemKey_mod hpos, hcol]
    rfl
  have hmay : s.mayElementSwitch (elemKey die pos) = true := by
    simp [State.mayElementSwitch, State.armedAt, harmed, hconf, hcut, hquiet, hcolour, elemKey_div hpos, hdie]
  obtain ⟨e', htaken, hswitched⟩ := State.takeStaged_switched hbad hstaged (s.staging die colour).load
  rw [hcolour] at hswitched
  obtain ⟨h₁, h₂, h₃, h₄⟩ := hswitched
  refine ⟨(s.setElem (elemKey die pos) e').setElem (elemKey die pos) { e' with
    cut := if ((s.setElem (elemKey die pos) e').staging die e'.colour).weir then .closed else .open }, ?_, ?_, rfl⟩
  · show execElementSwitch die pos s = _
    simp only [execElementSwitch, hmay, hcolour, htaken, hconf, State.elem_setElem_same]
    rfl
  · rw [State.elem_setElem_same]
    exact ⟨h₁, h₂, h₃, h₄⟩

/-- The switch tokens of an element, on each output that owes one. -/
def State.sendSwitches (s : State) (k load colour : Nat) : State :=
  (List.range 16).foldl (fun t o => (t.sendSwitch (elemSource k o) load colour).getD t) s

/-- An element leaves a load: switch tokens on its outputs, and its endpoints of the load gone. -/
def State.leaveLoad (s : State) (die pos load colour : Nat) : State :=
  ((s.sendSwitches (elemKey die pos) load colour).dropChans colour load fun x =>
    x.die = die && x.kind = .element && x.pos = pos).retireEnds colour load

theorem State.sendSwitches_channelsOnly (s : State) (k load colour : Nat) : ChannelsOnly s (s.sendSwitches k load colour) := by
  unfold State.sendSwitches
  exact ChannelsOnly.foldl (fun t o => t.sendSwitch_channelsOnly _ _ _) _ _

theorem State.leaveLoad_channelsOnly (s : State) (die pos load colour : Nat) :
    ChannelsOnly s (s.leaveLoad die pos load colour) := by
  unfold State.leaveLoad
  exact (s.sendSwitches_channelsOnly _ _ _).trans <|
    (State.dropChans_channelsOnly _ _ _ _).trans (State.retireEnds_channelsOnly _ _ _)

theorem State.leaveLoad_gone {load colour : Nat} {c : Chan} (hc : c ∈ (s.leaveLoad die pos load colour).chans) :
    ¬(c.colour = colour ∧ c.load = some load ∧ c.dest.kind = .element ∧ c.dest.die = die ∧ c.dest.pos = pos) := by
  unfold State.leaveLoad at hc
  have hleft := State.mem_dropChans _ (State.mem_retireEnds _ hc)
  rintro ⟨hcol, hload, hkind, hdie, hpos⟩
  simp [hcol, hload, hkind, hdie, hpos] at hleft

/-- An element that may switch takes its staged bank, and leaves its old load. -/
theorem elementSwitch_next (hconf : (s.elem (elemKey die pos)).configured = true)
    (hmay : s.mayElementSwitch (elemKey die pos) = true) (hstaged : validSlots (s.elem (elemKey die pos)).staged ≠ [])
    (hbad : s.bad = []) : ∃ e', Switched (s.elem (elemKey die pos)) e' (s.elem (elemKey die pos)).colour
        (s.staging die (s.elem (elemKey die pos)).colour).load ∧
      exec (.elementSwitch die pos) s = .next ((s.setElem (elemKey die pos) e').leaveLoad die pos
        (s.elem (elemKey die pos)).load (s.elem (elemKey die pos)).colour) := by
  have hcolour : s.switchColour (elemKey die pos) = (s.elem (elemKey die pos)).colour := by rw [State.switchColour, if_pos hconf]
  obtain ⟨e', htaken, hswitched⟩ :=
    State.takeStaged_switched hbad hstaged (s.staging die (s.elem (elemKey die pos)).colour).load
  rw [hcolour] at hswitched
  refine ⟨e', hswitched, ?_⟩
  show execElementSwitch die pos s = _
  simp only [execElementSwitch, hmay, hcolour, htaken, hconf]
  rfl

end

end Sys2Proof.Machine
end

section
/-! Drained notices, and the end of a load and of a launch (13 R340 to R342). -/

namespace Sys2Proof.Machine

open Sys2Proof.Statements

/-! ## Drained notices (R340) -/

theorem mem_insertNat (l : List Nat) (a : Nat) : a ∈ insertNat l a := by
  induction l with
  | nil => simp [insertNat]
  | cons k l ih =>
    unfold insertNat
    split
    · exact List.mem_cons_self
    · split
      · next h => exact h ▸ List.mem_cons_self
      · exact List.mem_cons_of_mem _ ih

section
variable {s : State} {die colour n : Nat} {l : Launch} (hl : s.launch colour = some l) (hn : s.noticeLoad die colour = some n)
include hl hn

/-- Once the old load has drained, outside a cut, its notice leaves on class 0. -/
theorem drainedNotice_leaves (hnone : s.packets.find? (isNotice die colour) = none) (hdrained : s.drainedAll l n = true)
    (hcalm : ∀ d ∈ l.dies, (s.staging d colour).weir = false)
    (hwaits : n ∉ (s.staging die colour).drained ∨ s.waitingSlots die colour ≠ [])
    (hruns : s.firmwareRuns (l.dies.headD l.die0) = true) : exec (.drainedNotice die colour) s =
      .next (s.manage 0 (.drained die colour) (s.attach (l.dies.headD l.die0)) (s.attach die)) := by
  have hweir : (l.dies.any fun d => (s.staging d colour).weir) = false := by simpa using hcalm
  show execDrainedNotice die colour s = _
  simp only [execDrainedNotice, hl, hn, hnone, hdrained, hweir, hruns]
  rw [if_pos (by simpa using hwaits)]

/-- A notice that has arrived takes effect. -/
theorem drainedNotice_arrives {q : Packet} (hq : s.packets.find? (isNotice die colour) = some q) (hat : q.atTarget = true) :
    exec (.drainedNotice die colour) s = .next (s.takeNotice die colour n) := by
  show execDrainedNotice die colour s = _
  simp only [execDrainedNotice, hl, hn, hq, hat, if_true]

end

/-- A notice raises event 7 and is recorded. -/
theorem State.takeNotice_recorded (s : State) (die colour n : Nat) :
    ((s.takeNotice die colour n).ctrl die).latched.getLsbD 7 = true ∧
      n ∈ ((s.takeNotice die colour n).staging die colour).drained := by
  refine ⟨State.latch_latched _ (by decide), ?_⟩
  simp [State.takeNotice, State.latch, State.staging, tabGet_tabSet_same, mem_insertNat]

/-! ## The end of a load (R341) -/

section
variable {s : State} {l : Launch} (hl : s.launch l.colour = some l)
include hl

/-- A launch goes on to the load whose switch has begun. -/
theorem State.goOn_launch (habsent : l.absent = false) (n : Nat) :
    (s.goOn l n).launch l.colour = some { l with load := n, select := .default, plan := l.nextPlan } := by
  obtain ⟨-, -, hst⟩ := State.launch_spec hl
  refine (State.launch_mapLaunch (s := s.setOut _ _) hl rfl hst).trans ?_
  rw [← habsent]

theorem State.finishing_launch (status : Nat) (detail : DWord × DWord) :
    (s.mapLaunch l.colour (finishing status detail)).launch l.colour =
      some { l with st := .finishing, status := status, detail := detail } := State.launch_mapLaunch hl rfl nofun

variable (hst : l.st = .active) (hruns : s.loaderRuns = true) (habsent : l.absent = false)
  (hfault : s.faultChannel l.colour l.load = none) (hdone : s.loadDone l = true)
include hst hruns habsent hfault hdone

/-- A complete load ends. -/
theorem exec_loadComplete : exec (.loadComplete l.colour) s = .next (s.endLoad l) := by
  have hnone : s.closeFaultChannel l = none := by simp only [State.closeFaultChannel, hfault]
  show execLoadComplete l.colour s = _
  simp only [execLoadComplete, hl, hst, hruns, habsent, hnone, hdone]
  rfl

/-- A complete load goes on to the load whose switch has begun. -/
theorem loadComplete_goesOn {n : Nat} (hnext : nextLoad l (imgLoads (s.imageOf l.colour)) = some (some n))
    (hswitch : s.switching l (nextKey l n) = true) : ∃ u, exec (.loadComplete l.colour) s = .next u ∧
      u.launch l.colour = some { l with load := nextKey l n, select := .default, plan := l.nextPlan } ∧ u.elems = s.elems := by
  refine ⟨s.goOn l (nextKey l n), ?_, State.goOn_launch hl habsent _, rfl⟩
  rw [exec_loadComplete hl hst hruns habsent hfault hdone]
  simp only [State.endLoad, hnext, hswitch, if_true]

/-- With no load to follow, or with a bad selection, the launch finishes, unless a fault in force holds it. -/
theorem loadComplete_finishes {n : Option (Option Nat)} (hnext : nextLoad l (imgLoads (s.imageOf l.colour)) = n)
    (hn : n = none ∨ n = some none) :
    (s.faultInForce l.colour = false → ∃ u, exec (.loadComplete l.colour) s = .next u ∧ u.launch l.colour =
      some { l with st := .finishing, status := if n = none then 3 else 0, detail := (0, 0) } ∧ u.elems = s.elems) ∧
    (s.faultInForce l.colour = true → exec (.loadComplete l.colour) s = .next s) := by
  rw [exec_loadComplete hl hst hruns habsent hfault hdone]
  obtain rfl | rfl := hn <;> refine ⟨fun hforce => ⟨_, rfl, ?_, ?_⟩, fun hforce => ?_⟩ <;>
    simp only [State.endLoad, hnext, hforce, if_true, Bool.false_eq_true, if_false]
  · exact State.finishing_launch hl 3 (0, 0)
  · rfl
  · exact State.finishing_launch hl 0 (0, 0)
  · rfl

end

/-! ## The end of a launch (R342) -/

/-- A colour whose launches have all ended has none open. -/
theorem State.launch_mapLaunch_ended (s : State) (colour : Nat) :
    (s.mapLaunch colour fun l => { l with st := .ended }).launch colour = none := by
  rw [State.launch, State.mapLaunch, List.find?_eq_none]
  intro x hx
  obtain ⟨l, -, rfl⟩ := List.mem_map.1 hx
  split
  · simp
  · assumption

/-- The last acts of a launch that closes: its message, then its faults, channels and hold given up. -/
theorem State.closeLaunch_ends (s : State) (l : Launch) : ∃ t : State, s.closeLaunch l =
    ((((t.setOut (completionOutfall l) { t.out (completionOutfall l) with message := some (completionBody l) }).endFaults
      l.colour).dropColour l.colour).dropHold l).mapLaunch l.colour fun l => { l with st := .ended } := ⟨_, rfl⟩

/-- A launch that closes leaves its completion message at its outfall, and is open no more. -/
theorem State.closeLaunch_message (s : State) (l : Launch) :
    ((s.closeLaunch l).out (completionOutfall l)).message = some (completionBody l) ∧ (s.closeLaunch l).launch l.colour = none := by
  obtain ⟨t, ht⟩ := s.closeLaunch_ends l
  rw [ht]
  exact ⟨congrArg Outfall.message (t.out_setOut_same _ _), State.launch_mapLaunch_ended _ _⟩

theorem exec_completionMessage {s : State} {l : Launch} (hl : s.launch l.colour = some l) (hst : l.st = .finishing)
    (hstatus : l.status ≠ 2) (hempty : s.outfallsEmpty l.colour = true)
    (hfree : (s.out (completionOutfall l)).message = none) : exec (.completionMessage l.colour) s = .next (s.closeLaunch l) := by
  show execCompletionMessage l.colour s = _
  simp only [execCompletionMessage, hl, hst, hstatus, hempty, hfree]
  rfl

/-- Settles O45: each event by its law above. -/
theorem loadEvents : Obligations.LoadEvents := by
  refine ⟨?_, ?_, ?_, ?_, ?_, ?_, ?_⟩
  · exact fun s colour c t rest hc hqueue hstuck hkind hsel hl => exec_loadSelect hc hqueue hstuck hkind hsel hl
  · intro s die pos o colour b e src t hcol hcut hconf hfir hlate hends hb hclosed hswitched hweired harmed hcredit
    have hexec := exec_switchToken_element (s := s) (src := src) rfl hlate
    have hended : bankEnded e = true := bankEnded_of hconf hfir hends
    refine ⟨fun hfeeds => ⟨s.emit src e.load t, ?_, ?_, State.emit_switched hb⟩, fun hfeeds => ?_⟩
    · rw [hexec, if_pos (by simp [src, e, hcol, hcut, hended, hfeeds]),
        State.sendSwitch_sends hb hclosed hswitched hweired harmed hcredit]
      rfl
    · rw [s.emit_bound src e.load b t hb rfl]
      rfl
    · rw [hexec, if_neg (by simp [src, hfeeds])]
  · intro s die pos colour k e hpos harmed hconf hcut hquiet hcol hdie hstaged hbad
    obtain ⟨u, hu, ⟨h₁, h₂, h₃, h₄⟩, hphys⟩ := elementSwitch_idle hpos harmed hconf hcut hquiet hcol hdie hstaged hbad
    exact ⟨u, hu, h₁, h₂, h₃, h₄, hphys⟩
  · intro s die pos k e hpos hconf hmay hstaged hbad
    obtain ⟨e', ⟨h₁, h₂, h₃, h₄⟩, hu⟩ := elementSwitch_next hconf hmay hstaged hbad
    have hkept := (s.setElem k e').leaveLoad_channelsOnly die pos e.load e.colour
    have helem := (hkept.elem k).trans (s.elem_setElem_same k e')
    exact ⟨_, hu, by rw [helem, h₁], by rw [helem, h₂], by rw [helem, h₃], by rw [helem, h₄], hkept.phys,
      fun c hc => State.leaveLoad_gone hc⟩
  · intro s die colour l n hl hn
    refine ⟨fun hnone hdrained hcalm hwaits hruns => ⟨_, drainedNotice_leaves hl hn hnone hdrained hcalm hwaits hruns, rfl, rfl, rfl⟩,
      fun q hq hhere hvia => ⟨_, drainedNotice_arrives hl hn hq (q.atTarget_iff.2 ⟨hhere, hvia⟩), ?_⟩⟩
    exact s.takeNotice_recorded die colour n
  · intro s colour l hl hst hruns habsent hfault hdone
    obtain ⟨-, rfl, -⟩ := State.launch_spec hl
    exact ⟨fun n => loadComplete_goesOn hl hst hruns habsent hfault hdone,
      fun n => loadComplete_finishes hl hst hruns habsent hfault hdone⟩
  · intro s colour l hl hst hstatus hempty key hfree
    obtain ⟨-, rfl, -⟩ := State.launch_spec hl
    obtain ⟨hmessage, hclosed⟩ := s.closeLaunch_message l
    exact ⟨_, completionBody l, exec_completionMessage hl hst hstatus hempty hfree, hmessage, hclosed, rfl, rfl,
      BitVec.toNat_ofNat _ _, BitVec.toNat_ofNat _ _⟩

end Sys2Proof.Machine
end

section
/-! Saves (15 R421 to R426): what saving tokens, elements, nodes and memory actors leaves alone, and the weirs that leave. -/

namespace Sys2Proof.Machine

open Sys2Proof.Statements

theorem ChannelsOnly.outsideTraffic {s t : State} (h : ChannelsOnly s t) : t.outsideTraffic = s.outsideTraffic := by
  obtain ⟨bs, cs, ds, ps, rfl⟩ := h
  rfl

/-- The module without what saving a load changes: traffic, elements, memory actors and nodes. -/
def State.outsideSaves (s : State) : State := { s.outsideTraffic with elems := [], mas := [], nodes := [] }

section
variable {s t : State}

/-- Moving tokens is less than what saves may change. -/
theorem outsideSaves_of_traffic (h : t.outsideTraffic = s.outsideTraffic) : t.outsideSaves = s.outsideSaves :=
  congrArg (fun u : State => { u with elems := [], mas := [], nodes := [] }) h

/-- Saves change less than loads. -/
theorem outsideLoads_of_saves (h : t.outsideSaves = s.outsideSaves) : t.outsideLoads = s.outsideLoads :=
  congrArg (fun u : State => { u with plots := [], pools := [], notices := [], stagings := [], grants := [] }) h

theorem stagings_of_saves (h : t.outsideSaves = s.outsideSaves) : t.stagings = s.stagings := (congrArg State.stagings h :)

end

theorem foldl_outsideSaves {α : Type} {f : State → α → State} (hf : ∀ t a, (f t a).outsideSaves = t.outsideSaves) (l : List α)
    (s : State) : (l.foldl f s).outsideSaves = s.outsideSaves := foldl_leaves hf l s

theorem ite_outsideSaves {c : Prop} [Decidable c] {t u s : State} (ht : t.outsideSaves = s.outsideSaves)
    (hu : u.outsideSaves = s.outsideSaves) : (if c then t else u).outsideSaves = s.outsideSaves := by
  split <;> assumption

theorem foldl_outsideTraffic {α : Type} {f : State → α → State} (hf : ∀ t a, (f t a).outsideTraffic = t.outsideTraffic)
    (l : List α) (s : State) : (l.foldl f s).outsideTraffic = s.outsideTraffic := foldl_leaves hf l s

section
variable {s t : State} (h : t.outsideTraffic = s.outsideTraffic) (k : Nat)
include h

theorem elem_of_traffic : t.elem k = s.elem k := by
  have helems : t.elems = s.elems := (congrArg State.elems h :)
  rw [State.elem, helems, State.elem]

theorem ma_of_traffic : t.ma k = s.ma k := by
  have hmas : t.mas = s.mas := (congrArg State.mas h :)
  rw [State.ma, hmas, State.ma]

end

/-! ## Tokens saved (15 R424) -/

section
variable (s : State)

theorem State.mapChan_outsideTraffic (d : Dest) (colour : Nat) (load : Option Nat) (f : Chan → Chan) :
    (s.mapChan d colour load f).outsideTraffic = s.outsideTraffic := rfl

theorem State.mapBind_outsideTraffic (x : Source) (colour load : Nat) (f : Bind → Bind) :
    (s.mapBind x colour load f).outsideTraffic = s.outsideTraffic := rfl

theorem State.setHead_outsideTraffic (k : Nat) (x : Headgate) : (s.setHead k x).outsideTraffic = s.outsideTraffic := rfl

theorem State.spillWrite_outsideTraffic (pa : Nat) (t : Token) : (s.spillWrite pa t).outsideTraffic = s.outsideTraffic := rfl

theorem State.physWrite_outsideTraffic (pa : Nat) (bs : List Byte) : (s.physWrite pa bs).outsideTraffic = s.outsideTraffic := rfl

theorem State.writeArea_outsideTraffic (pa : Nat) (m : Mem) : (s.writeArea pa m).outsideTraffic = s.outsideTraffic :=
  s.physWrite_outsideTraffic _ _

theorem State.saveQueue_outsideTraffic (d : Dest) (colour : Nat) (load : Option Nat) (n : Nat) :
    (s.saveQueue d colour load n).outsideTraffic = s.outsideTraffic := by
  induction n generalizing s with
  | zero => rfl
  | succ n ih =>
    unfold State.saveQueue
    split
    · rfl
    · split
      · rw [ih, State.mapChan_outsideTraffic, State.spillWrite_outsideTraffic]
      · rfl

theorem State.spillAll_outsideTraffic (colour : Nat) (p : Dest → Bool) :
    (s.spillAll colour p).outsideTraffic = s.outsideTraffic := by
  unfold State.spillAll
  exact foldl_outsideTraffic (fun t _ => t.saveQueue_outsideTraffic _ _ _ _) _ _

theorem State.spillDie_outsideTraffic (d colour : Nat) : (s.spillDie d colour).outsideTraffic = s.outsideTraffic := by
  unfold State.spillDie
  split
  · exact s.spillAll_outsideTraffic _ _
  · rfl

theorem State.payWeir_outsideTraffic (d colour n : Nat) : (s.payWeir d colour n).outsideTraffic = s.outsideTraffic := by
  obtain ⟨bs, ps, h⟩ := s.payWeir_rest d colour n
  rw [h]
  rfl

theorem State.saveHeld_outsideTraffic (b : Bind) (t : Token) : (s.saveHeld b t).outsideTraffic = s.outsideTraffic := by
  unfold State.saveHeld
  dsimp only
  rw [State.mapBind_outsideTraffic]
  refine foldl_outsideTraffic (fun u d => ?_) _ _
  split
  · rfl
  · rw [State.mapChan_outsideTraffic, State.spillWrite_outsideTraffic]

theorem State.saveGate_outsideTraffic (colour key : Nat) (l : List Token) :
    (s.saveGate colour key l).outsideTraffic = s.outsideTraffic := by
  induction l generalizing s with
  | nil => rfl
  | cons t l ih =>
    unfold State.saveGate
    split
    · rfl
    · split
      · rw [ih, State.setHead_outsideTraffic]
      · split
        · rw [ih, State.setHead_outsideTraffic, State.saveHeld_outsideTraffic]
        · rfl

theorem State.saveGates_outsideTraffic (d colour : Nat) : (s.saveGates d colour).outsideTraffic = s.outsideTraffic := by
  unfold State.saveGates
  refine foldl_outsideTraffic (fun t n => ?_) _ _
  split
  · rw [State.saveGate_outsideTraffic, State.payWeir_outsideTraffic]
  · rfl

theorem State.keepCounts_outsideTraffic (k : Nat) : (s.keepCounts k).outsideTraffic = s.outsideTraffic := by
  unfold State.keepCounts
  exact foldl_outsideTraffic (by intros; rfl) _ _

/-! ## Elements, nodes and memory actors saved (15 R423, R426) -/

theorem State.setElem_outsideSaves (k : Nat) (e : Element) : (s.setElem k e).outsideSaves = s.outsideSaves := rfl

theorem State.setMa_outsideSaves (k : Nat) (m : MemActor) : (s.setMa k m).outsideSaves = s.outsideSaves := rfl

theorem State.setNode_outsideSaves (k : Nat) (x : Node) : (s.setNode k x).outsideSaves = s.outsideSaves := rfl

theorem State.spillAll_outsideSaves (colour : Nat) (p : Dest → Bool) : (s.spillAll colour p).outsideSaves = s.outsideSaves :=
  outsideSaves_of_traffic (s.spillAll_outsideTraffic colour p)

theorem State.saveNode_outsideSaves (d colour n : Nat) : (s.saveNode d colour n).outsideSaves = s.outsideSaves := by
  unfold State.saveNode
  dsimp only
  rw [State.spillAll_outsideSaves, State.setNode_outsideSaves, State.setNode_outsideSaves]

theorem State.saveElement_outsideSaves (d off pos : Nat) : (s.saveElement d off pos).outsideSaves = s.outsideSaves := by
  unfold State.saveElement
  dsimp only
  rw [State.spillAll_outsideSaves, State.setElem_outsideSaves, State.setElem_outsideSaves,
    outsideSaves_of_traffic (State.keepCounts_outsideTraffic _ _), outsideSaves_of_traffic (State.writeArea_outsideTraffic _ _ _)]
  exact ite_outsideSaves (foldl_outsideSaves (fun t _ => t.saveNode_outsideSaves _ _ _) _ _) rfl

/-- A saved element is unconfigured, and marked as saved. -/
theorem State.saveElement_elem (d off pos : Nat) :
    (s.saveElement d off pos).elem (elemKey d pos) = savedElement (s.elem (elemKey d pos)) := by
  unfold State.saveElement
  dsimp only
  rw [elem_of_traffic (State.spillAll_outsideTraffic _ _ _), State.elem_setElem_same]

theorem State.saveMa_outsideSaves (d off slot : Nat) : (s.saveMa d off slot).outsideSaves = s.outsideSaves := by
  unfold State.saveMa
  dsimp only
  rw [State.spillAll_outsideSaves, State.setMa_outsideSaves, State.setMa_outsideSaves,
    outsideSaves_of_traffic (State.writeArea_outsideTraffic _ _ _)]

/-- A saved memory actor is unconfigured, and marked as saved. -/
theorem State.saveMa_ma (d off slot : Nat) : (s.saveMa d off slot).ma (maKey d slot) =
    { MemActor.reset with colour := (s.ma (maKey d slot)).colour, load := (s.ma (maKey d slot)).load, saved := true } := by
  unfold State.saveMa
  dsimp only
  rw [ma_of_traffic (State.spillAll_outsideTraffic _ _ _), State.ma_setMa_same]

theorem State.saveElemsAt_outsideSaves (d off : Nat) (l : List Nat) : (s.saveElemsAt d off l).outsideSaves = s.outsideSaves := by
  unfold State.saveElemsAt
  exact foldl_outsideSaves (fun t _ => ite_outsideSaves (t.saveElement_outsideSaves _ _ _) rfl) _ _

theorem State.saveMasAt_outsideSaves (d off : Nat) (l : List Nat) : (s.saveMasAt d off l).outsideSaves = s.outsideSaves := by
  unfold State.saveMasAt
  exact foldl_outsideSaves (fun t _ => ite_outsideSaves (t.saveMa_outsideSaves _ _ _) rfl) _ _

theorem State.saveLone_outsideSaves (d colour : Nat) : (s.saveLone d colour).outsideSaves = s.outsideSaves := by
  unfold State.saveLone
  exact foldl_outsideSaves (fun t _ => ite_outsideSaves (t.saveNode_outsideSaves _ _ _) rfl) _ _

/-- The firmware's saves on a die leave launches, controllers and the headworks alone. -/
theorem State.firmwareSave_outsideLoads (colour d : Nat) : (s.firmwareSave colour d).outsideLoads = s.outsideLoads := by
  unfold State.firmwareSave
  dsimp only
  rw [outsideLoads_of_saves (State.saveMasAt_outsideSaves _ _ _ _), outsideLoads_of_saves (State.saveLone_outsideSaves _ _ _),
    outsideLoads_of_saves (State.saveElemsAt_outsideSaves _ _ _ _),
    outsideLoads_of_traffic (State.saveGates_outsideTraffic _ _ _), outsideLoads_of_traffic (State.spillDie_outsideTraffic _ _ _),
    State.setStaging_outsideLoads]

end

/-! ## Weirs that leave together (13 R350; 15 R423) -/

section
variable {s u : State} {t : Token}

/-- Only bindings and packets differ, and the packets added carry a token. -/
def Sends (s u : State) (t : Token) : Prop :=
  ∃ bs l, u = { s with binds := bs, packets := s.packets ++ l } ∧ ∀ x ∈ l, x.cargo = .token t

theorem State.tryEmit_packets {src : Source} {load : Nat} (h : s.tryEmit src load t = some u) : Sends s u t := by
  cases hb : s.srcBind src t.colour load with
  | none => simp [State.tryEmit, hb] at h
  | some b =>
    simp only [State.tryEmit, hb, Option.ite_none_right_eq_some, Option.some.injEq] at h
    obtain ⟨-, rfl⟩ := h
    cases hstray : strayStop b t with
    | true => exact ⟨s.binds, [], by simp [State.emit, hb, hstray], by simp⟩
    | false =>
      refine ⟨_, _, s.emit_bound src load b t hb hstray, fun x hx => ?_⟩
      obtain ⟨d, -, rfl⟩ := List.mem_map.1 hx
      rfl

theorem State.tryEmits_cons (s : State) (t : Token) (x : Source × Nat) (xs : List (Source × Nat)) :
    s.tryEmits t (x :: xs) = (s.tryEmit x.1 x.2 t).bind fun u => u.tryEmits t xs := by
  have hnone : ∀ xs : List (Source × Nat), xs.foldl (fun acc x => acc.bind fun u : State => u.tryEmit x.1 x.2 t) none = none := by
    intro xs
    induction xs with
    | nil => rfl
    | cons x xs ih => exact ih
  cases h : s.tryEmit x.1 x.2 t with
  | none => exact (congrArg (List.foldl _ · xs) h).trans (hnone xs)
  | some u => exact congrArg (List.foldl _ · xs) h

/-- Tokens that leave several sources together add their packets. -/
theorem State.tryEmits_packets {xs : List (Source × Nat)} (h : s.tryEmits t xs = some u) : Sends s u t := by
  induction xs generalizing s with
  | nil =>
    obtain rfl : s = u := Option.some.inj h
    exact ⟨s.binds, [], by simp, by simp⟩
  | cons x xs ih =>
    rw [State.tryEmits_cons, Option.bind_eq_some_iff] at h
    obtain ⟨v, hv, hu⟩ := h
    obtain ⟨bs, l, rfl, hl⟩ := State.tryEmit_packets hv
    obtain ⟨bs', l', rfl, hl'⟩ := ih hu
    exact ⟨bs', l ++ l', by simp, List.forall_mem_append.2 ⟨hl, hl'⟩⟩

end

/-! ## Freezing (15 R421, R423) -/

section
variable {s : State} {die pos slot : Nat}

/-- A closed element between firings freezes as its weirs leave. -/
theorem elementFreeze_freezes (hconf : (s.elem (elemKey die pos)).configured = true)
    (hcut : (s.elem (elemKey die pos)).cut = .closed) (hfir : (s.elem (elemKey die pos)).fir.status = .idle)
    (hsent : s.weirElement (elemKey die pos) ≠ none) : ∃ u l, exec (.elementFreeze die pos) s = .next u ∧
      u.elem (elemKey die pos) = { s.elem (elemKey die pos) with cut := .frozen } ∧ u.packets = s.packets ++ l ∧
      (∀ x ∈ l, x.cargo = .token (markerToken .weir (s.elem (elemKey die pos)).colour)) ∧ u.phys = s.phys := by
  obtain ⟨t, ht⟩ := Option.ne_none_iff_exists'.1 hsent
  have hexec : exec (.elementFreeze die pos) s =
      .next (t.setElem (elemKey die pos) { t.elem (elemKey die pos) with cut := .frozen }) := by
    show execElementFreeze die pos s = _
    simp [execElementFreeze, hconf, hcut, hfir, ht]
  obtain ⟨bs, l, rfl, hl⟩ := State.tryEmits_packets ht
  exact ⟨_, l, hexec, State.elem_setElem_same _ _ _, rfl, hl, rfl⟩

theorem elementFreeze_waits (hsent : s.weirElement (elemKey die pos) = none) :
    exec (.elementFreeze die pos) s = .next s := by
  show execElementFreeze die pos s = _
  simp only [execElementFreeze, hsent, ite_self]

section
variable (hst : (s.ma (maKey die slot)).st ≠ .unconfigured) (hsaved : (s.ma (maKey die slot)).saved = false)
  (hweir : (s.staging die (s.ma (maKey die slot)).colour).weir = true)
include hst hsaved hweir

/-- A memory actor of a colour in a cut stops issuing. -/
theorem memoryActorWeir_stops (hnone : (s.ma (maKey die slot)).weir = .none) : exec (.memoryActorWeir die slot) s =
    .next (s.setMa (maKey die slot) { s.ma (maKey die slot) with weir := .stopping }) := by
  show execMemoryActorWeir die slot s = _
  simp [execMemoryActorWeir, hst, hsaved, hweir, hnone, State.mapMa]

section
variable (hstop : (s.ma (maKey die slot)).weir = .stopping)
include hstop

theorem memoryActorWeir_drains (hdrained : s.maDrained die slot = false) :
    exec (.memoryActorWeir die slot) s = .next s := by
  show execMemoryActorWeir die slot s = _
  simp [execMemoryActorWeir, hst, hsaved, hweir, hstop, hdrained]

theorem memoryActorWeir_waits (hdrained : s.maDrained die slot = true)
    (hsent : s.tryEmits (markerToken .weir (s.ma (maKey die slot)).colour) (s.maWeirOuts die slot) = none) :
    exec (.memoryActorWeir die slot) s = .next s := by
  show execMemoryActorWeir die slot s = _
  simp [execMemoryActorWeir, hst, hsaved, hweir, hstop, hdrained, hsent]

/-- A memory actor that has drained puts its weirs on resp and done. -/
theorem memoryActorWeir_sends (hdrained : s.maDrained die slot = true)
    (hsent : s.tryEmits (markerToken .weir (s.ma (maKey die slot)).colour) (s.maWeirOuts die slot) ≠ none) :
    ∃ u l, exec (.memoryActorWeir die slot) s = .next u ∧ u.ma (maKey die slot) = { s.ma (maKey die slot) with weir := .sent } ∧
      u.packets = s.packets ++ l ∧ (∀ x ∈ l, x.cargo = .token (markerToken .weir (s.ma (maKey die slot)).colour)) ∧
      u.phys = s.phys := by
  obtain ⟨t, ht⟩ := Option.ne_none_iff_exists'.1 hsent
  have hexec : exec (.memoryActorWeir die slot) s =
      .next (t.mapMa die slot fun m => { m with weir := .sent }) := by
    show execMemoryActorWeir die slot s = _
    simp [execMemoryActorWeir, hst, hsaved, hweir, hstop, hdrained, ht]
  obtain ⟨bs, l, rfl, hl⟩ := State.tryEmits_packets ht
  exact ⟨_, l, hexec, State.ma_setMa_same _ _ _, rfl, hl, rfl⟩

end

end

end

end Sys2Proof.Machine
end

section
/-! The end of a cut, and resuming (13 R333; 15 R425, R428, R429). -/

namespace Sys2Proof.Machine

open Sys2Proof.Statements

/-! ## What is given up, kept and freed as a launch is saved (R425) -/

section
variable (s : State)

theorem State.dropUnstaged_outsideLoads (l : Launch) : (s.dropUnstaged l).outsideLoads = s.outsideLoads := by
  unfold State.dropUnstaged
  refine foldl_outsideLoads (fun t d => ?_) _ _
  unfold State.dropOpen
  exact ite_outsideLoads (t.dropStaging_outsideLoads _ _ _) rfl

theorem State.setOut_outsideTraffic (k : Nat) (o : Outfall) : (s.setOut k o).outsideTraffic = s.outsideTraffic := rfl

theorem State.saveHead_outsideTraffic (colour key : Nat) : (s.saveHead colour key).outsideTraffic = s.outsideTraffic := by
  unfold State.saveHead
  split
  · rfl
  · rw [State.setHead_outsideTraffic, State.setHead_outsideTraffic]

theorem State.saveOut_outsideTraffic (colour key : Nat) : (s.saveOut colour key).outsideTraffic = s.outsideTraffic := by
  unfold State.saveOut
  dsimp only
  split
  · rw [State.setOut_outsideTraffic]
  · rfl

theorem State.saveGatesOf_outsideLoads (colour : Nat) (keys : List Nat) :
    (s.saveGatesOf colour keys).outsideLoads = s.outsideLoads := by
  refine outsideLoads_of_traffic ?_
  unfold State.saveGatesOf
  dsimp only
  rw [foldl_outsideTraffic (fun t n => t.saveOut_outsideTraffic colour n),
    foldl_outsideTraffic (fun t n => t.saveHead_outsideTraffic colour n)]

/-- Reporting an outfall's weirs changes outfalls and the events of controllers alone. -/
theorem State.reportWeirs_leaves {β : Type} {F : State → β} (hout : ∀ (t : State) k o, F (t.setOut k o) = F t)
    (hlatch : ∀ (t : State) d n, F (t.latch d n) = F t) (colour : Nat) : F (s.reportWeirs colour) = F s := by
  unfold State.reportWeirs
  refine foldl_leaves (fun t c => ?_) _ _
  dsimp only
  split
  · rw [hlatch, hout]
  · rfl

/-- The plots of a colour on a die, given back. -/
def State.freePlots (die colour : Nat) : State :=
  (s.regionPlots die colour).foldl
    (fun t p => t.setPlot (die * 400 + p) { t.plot (die * 400 + p) with colour := none, lastColour := some colour }) s

/-- The gates of a colour on a die, given back. -/
def State.freeGates (die colour : Nat) : State :=
  (List.range 16).foldl (fun t n =>
    let h := t.head (die * 16 + n)
    let o := t.out (die * 16 + n)
    let t := if h.colour = some colour then t.setHead (die * 16 + n) { h with colour := none } else t
    if o.colour = some colour then
      t.setOut (die * 16 + n) { o with colour := none, peer := none, weired := false, subst := none, selected := none } else t) s

/-- What a colour's region on a die holds, given back. -/
def State.freeUnits (die colour : Nat) : State :=
  let s := s.mapElems die freed (s.regionElems die colour)
  let s := s.mapNodes die (fun _ => Node.reset) (s.regionNodes die colour)
  s.mapMas die (fun _ => MemActor.reset) (s.colourSlots die colour)

/-- A region freed: the units, the gates, the plots, the grant and the staging of its colour on a die. -/
theorem State.freeRegion_eq (die colour : Nat) : ∃ grants staging, s.freeRegion die colour =
    ({ ((s.freeUnits die colour).freeGates die colour).freePlots die colour with grants := grants } : State).setStaging die colour
      staging := by
  unfold State.freeRegion State.freePlots State.freeGates State.freeUnits
  exact ⟨_, _, rfl⟩

theorem State.freeUnits_outsideLoads (die colour : Nat) : (s.freeUnits die colour).outsideLoads = s.outsideLoads := by
  unfold State.freeUnits
  dsimp only
  rw [State.mapMas_outsideLoads, State.mapNodes_outsideLoads, State.mapElems_outsideLoads]

theorem State.freeUnits_plots (die colour : Nat) : (s.freeUnits die colour).plots = s.plots := by
  unfold State.freeUnits State.mapMas State.mapNodes State.mapElems
  dsimp only
  rw [foldl_leaves (F := State.plots) (by intros; rfl), foldl_leaves (F := State.plots) (by intros; rfl),
    foldl_leaves (F := State.plots) (by intros; rfl)]

theorem State.freeGates_leaves {β : Type} {F : State → β} (hhead : ∀ (t : State) k h, F (t.setHead k h) = F t)
    (hout : ∀ (t : State) k o, F (t.setOut k o) = F t) (die colour : Nat) : F (s.freeGates die colour) = F s := by
  unfold State.freeGates
  refine foldl_leaves (fun t n => ?_) _ _
  dsimp only
  split
  · rw [hout]
    split
    · rw [hhead]
    · rfl
  · split
    · rw [hhead]
    · rfl

theorem State.freePlots_outsideLoads (die colour : Nat) : (s.freePlots die colour).outsideLoads = s.outsideLoads := by
  unfold State.freePlots
  exact foldl_outsideLoads (by intros; rfl) _ _

theorem State.freeRegion_outsideLoads (die colour : Nat) : (s.freeRegion die colour).outsideLoads = s.outsideLoads := by
  obtain ⟨grants, staging, heq⟩ := s.freeRegion_eq die colour
  have hgrants (t : State) : ({ t with grants := grants } : State).outsideLoads = t.outsideLoads := rfl
  rw [heq, State.setStaging_outsideLoads, hgrants, State.freePlots_outsideLoads,
    State.freeGates_leaves _ (F := State.outsideLoads) (by intros; rfl) (by intros; rfl), State.freeUnits_outsideLoads]

/-- A plot that is set to no colour has not another's. -/
theorem State.plot_colour_freed {colour k : Nat} (h : (s.plot k).colour ≠ some colour) (j c : Nat) :
    ((s.setPlot j { s.plot j with colour := none, lastColour := some c }).plot k).colour ≠ some colour := by
  by_cases hk : k = j
  · rw [hk, State.plot_setPlot_same]
    simp
  · rwa [State.plot_setPlot_other s _ hk]

theorem State.freePlots_keeps {colour k : Nat} (h : (s.plot k).colour ≠ some colour) (die c : Nat) :
    ((s.freePlots die c).plot k).colour ≠ some colour := by
  unfold State.freePlots
  refine List.foldlRecOn (motive := fun t : State => (t.plot k).colour ≠ some colour) _ _ h fun t ht p _ => ?_
  exact t.plot_colour_freed ht _ _

theorem State.freePlots_plot {die colour p : Nat} (hp : p < 400) :
    ((s.freePlots die colour).plot (die * 400 + p)).colour ≠ some colour := by
  by_cases hcol : (s.plot (die * 400 + p)).colour = some colour
  · unfold State.freePlots
    refine foldl_establishes (P := fun t : State => (t.plot (die * 400 + p)).colour ≠ some colour)
      (fun t q h => t.plot_colour_freed h _ _) (fun t => ?_) (List.mem_filter.2 ⟨List.mem_range.2 hp, by simpa using hcol⟩) _
    rw [State.plot_setPlot_same]
    simp
  · exact s.freePlots_keeps hcol _ _

/-- Freeing a region gives its plots back, and no others change. -/
theorem State.freeRegion_plot (die colour k : Nat) : ∃ t : State, t.plots = s.plots ∧
    (s.freeRegion die colour).plot k = (t.freePlots die colour).plot k := by
  obtain ⟨grants, staging, heq⟩ := s.freeRegion_eq die colour
  refine ⟨(s.freeUnits die colour).freeGates die colour, ?_, ?_⟩
  · rw [State.freeGates_leaves _ (F := State.plots) (by intros; rfl) (by intros; rfl), State.freeUnits_plots]
  · have hrest (t : State) : (({ t with grants := grants } : State).setStaging die colour staging).plot k = t.plot k := rfl
    rw [heq, hrest]

/-- A colour whose region has been freed on a die has no plot there. -/
theorem State.regionPlots_freed {dies : List Nat} {d : Nat} (hd : d ∈ dies) (colour : Nat) :
    (dies.foldl (fun t d => t.freeRegion d colour) s).regionPlots d colour = [] := by
  refine List.filter_eq_nil_iff.2 fun p hp => ?_
  rw [List.mem_range] at hp
  rw [decide_eq_true_iff]
  refine foldl_establishes (P := fun t : State => (t.plot (d * 400 + p)).colour ≠ some colour) (fun t e h => ?_)
    (fun t => ?_) hd s
  · obtain ⟨u, hu, hplot⟩ := t.freeRegion_plot e colour (d * 400 + p)
    rw [hplot]
    refine u.freePlots_keeps ?_ _ _
    rwa [State.plot, hu]
  · obtain ⟨u, -, hplot⟩ := t.freeRegion_plot d colour (d * 400 + p)
    rw [hplot]
    exact u.freePlots_plot hp

end

/-! ## The launch saved (R333) -/

section
variable {s : State} {l : Launch}

/-- The state in which a launch's region is free again. -/
def State.cutFreed (s : State) (l : Launch) : State :=
  l.dies.foldl (fun t d => t.freeRegion d l.colour)
    (((s.dropUnstaged l).reportWeirs l.colour).saveGatesOf l.colour (List.range 1024))

theorem State.cutFreed_launches (s : State) (l : Launch) : (s.cutFreed l).launches = s.launches := by
  unfold State.cutFreed
  rw [launches_of_loads (foldl_outsideLoads (fun t d => t.freeRegion_outsideLoads d l.colour) _ _),
    launches_of_loads (State.saveGatesOf_outsideLoads _ _ _),
    State.reportWeirs_leaves _ (F := State.launches) (by intros; rfl) (by intros; rfl),
    launches_of_loads (s.dropUnstaged_outsideLoads l)]

theorem State.cutFreed_arrivals (s : State) (l : Launch) : (s.cutFreed l).arrivals = s.arrivals := by
  unfold State.cutFreed
  rw [arrivals_of_loads (foldl_outsideLoads (fun t d => t.freeRegion_outsideLoads d l.colour) _ _),
    arrivals_of_loads (State.saveGatesOf_outsideLoads _ _ _),
    State.reportWeirs_leaves _ (F := State.arrivals) (by intros; rfl) (by intros; rfl),
    arrivals_of_loads (s.dropUnstaged_outsideLoads l)]

/-- A launch whose cut is complete waits again from this instant, without a rectangle. -/
theorem State.completeCut_eq (s : State) (l : Launch) : ∃ saves staged armed, s.completeCut l =
    { (s.cutFreed l).mapLaunch l.colour (fun x => { x with
        st := .saved, rect := none, saves := saves, arrival := (s.cutFreed l).arrivals, stagedLoad := staged, armed := armed }) with
      arrivals := (s.cutFreed l).arrivals + 1 } := ⟨_, _, _, rfl⟩

theorem State.completeCut_saved (hl : s.launch l.colour = some l) : ∃ l' ∈ (s.completeCut l).launches,
    l'.colour = l.colour ∧ l'.st = .saved ∧ l'.rect = none ∧ l'.arrival = s.arrivals := by
  obtain ⟨hmem, -, hst⟩ := State.launch_spec hl
  obtain ⟨saves, staged, armed, heq⟩ := s.completeCut_eq l
  rw [heq]
  refine ⟨_, List.mem_map.2 ⟨l, ?_, if_pos (by simp [hst])⟩, rfl, rfl, rfl, s.cutFreed_arrivals l⟩
  rwa [State.cutFreed_launches]

theorem State.completeCut_arrivals (s : State) (l : Launch) : (s.completeCut l).arrivals = s.arrivals + 1 := by
  obtain ⟨saves, staged, armed, heq⟩ := s.completeCut_eq l
  rw [heq]
  exact congrArg (· + 1) (s.cutFreed_arrivals l)

theorem State.completeCut_regionPlots (s : State) (l : Launch) {d : Nat} (hd : d ∈ l.dies) :
    (s.completeCut l).regionPlots d l.colour = [] := by
  obtain ⟨saves, staged, armed, heq⟩ := s.completeCut_eq l
  rw [heq]
  exact State.regionPlots_freed _ hd l.colour

end

/-! ## The events of a cut (R425, R428) -/

section
variable {s : State} {l : Launch}

theorem completesInCut_iff : s.completesInCut l = true ↔ EndsInCut s l := by
  unfold State.completesInCut EndsInCut
  simp only [Bool.and_eq_true, Bool.not_eq_true']
  refine ⟨fun ⟨⟨hdone, hlast⟩, hfault⟩ => ?_, fun ⟨_, _, hdone, hlast, hfault⟩ => ⟨⟨hdone, hlast⟩, hfault⟩⟩
  have hsaved := hdone
  simp only [State.loadDone, Bool.and_eq_true] at hsaved
  obtain ⟨⟨⟨⟨-, helems⟩, hmas⟩, -⟩, -⟩ := hsaved
  exact ⟨helems, hmas, hdone, hlast, hfault⟩

variable (hl : s.launch l.colour = some l) (hst : l.st = .cutting) (hruns : s.loaderRuns = true)
include hl hst hruns

theorem exec_cutCompletionWins (hends : EndsInCut s l) : exec (.cutCompletionWins l.colour) s = .next (s.winCut l) := by
  show execCutCompletionWins l.colour s = _
  simp only [execCutCompletionWins, hl]
  rw [if_pos (by simp [hst, hruns, completesInCut_iff.2 hends])]

theorem exec_cutComplete_wins (hends : EndsInCut s l) : exec (.cutComplete l.colour) s = .next (s.winCut l) := by
  show execCutComplete l.colour s = _
  simp only [execCutComplete, hl]
  rw [if_neg (by simp [State.cutByCommands, hst]), if_neg (by simp [hst, hruns]), if_pos (completesInCut_iff.2 hends)]

/-- What ends in neither state is saved, as far as it is ready, and the launch with it once all of it is. -/
theorem exec_cutComplete_saves (hends : ¬EndsInCut s l)
    (hends' : ¬EndsInCut ((l.dies.filter s.firmwareRuns).foldl (fun t d => t.firmwareSave l.colour d) s) l) :
    exec (.cutComplete l.colour) s =
      let t := (l.dies.filter s.firmwareRuns).foldl (fun t d => t.firmwareSave l.colour d) s
      if t.cutDone l then .next (t.completeCut l) else .next t := by
  show execCutComplete l.colour s = _
  simp only [execCutComplete, hl]
  rw [if_neg (by simp [State.cutByCommands, hst]), if_neg (by simp [hst, hruns]), if_neg (mt completesInCut_iff.1 hends),
    if_neg (mt completesInCut_iff.1 hends')]

end

/-- A saved launch resumes where its region may be granted and its plan keeps every save. -/
theorem exec_launchResume {s : State} {l : Launch} {rect : Rect} {plan : Plan} (hl : s.launch l.colour = some l)
    (hok : (s.loaderRuns && l.st = .saved && waits l && s.rectSuits l rect && s.rectChosen l rect && s.grantable l rect &&
      !s.behind l rect && s.planGood (s.imageOf l.colour) l.colour (loadNumber l.load) rect l.dies plan &&
      s.resumeGood l rect plan && s.stagesAgain l rect plan) = true)
    (hquiet : (s.grant l rect l.dies).regionQuiet l = true) (hstill : (s.grant l rect l.dies).regionStill l = true) :
    exec (.launchResume l.colour rect plan) s = .next ((s.grant l rect l.dies).resume l plan) := by
  show execLaunchResume l.colour rect plan s = _
  simp only [execLaunchResume, hl, hok, hquiet, hstill, Bool.and_self, if_true]

/-- Settles O54: the weirs leave together; a cut goes on by the firmware's saves, which leave the launches alone. -/
theorem cutEvents : Obligations.CutEvents := by
  refine ⟨?_, ?_, ?_, ?_, ?_⟩
  · intro s die pos k hconf hcut hfir
    exact ⟨elementFreeze_freezes hconf hcut hfir, elementFreeze_waits⟩
  · intro s die slot k m hst hsaved hweir
    exact ⟨memoryActorWeir_stops hst hsaved hweir, fun hstop hdrained => ⟨memoryActorWeir_sends hst hsaved hweir hstop hdrained,
      memoryActorWeir_waits hst hsaved hweir hstop hdrained⟩, memoryActorWeir_drains hst hsaved hweir⟩
  · intro s colour l hl hst hends hruns t hends'
    obtain ⟨-, rfl, -⟩ := State.launch_spec hl
    have hkept : t.outsideLoads = s.outsideLoads := foldl_outsideLoads (fun t d => t.firmwareSave_outsideLoads _ d) _ _
    have hexec := exec_cutComplete_saves hl hst hruns hends hends'
    refine ⟨fun hsaved hdue hweired hflight => ?_, fun hbusy => hexec.trans (if_neg ?_)⟩
    · have hlt : t.launch l.colour = some l := (State.launch_congr (launches_of_loads hkept) _).trans hl
      obtain ⟨l', hmem, hcol, hst', hrect, harrival⟩ := State.completeCut_saved hlt
      exact ⟨_, l', hexec.trans (if_pos (by simp [State.cutDone, t, hsaved, hdue, hweired, hflight])), hmem, hcol, hst', hrect,
        harrival, t.completeCut_arrivals l, fun d hd => t.completeCut_regionPlots l hd⟩
    · rcases hbusy with hsaved | hflight
      · simp [State.cutDone, t, hsaved]
      · simp [State.cutDone, t, hflight]
  · intro s colour l hl hst hruns hends
    obtain ⟨-, rfl, -⟩ := State.launch_spec hl
    exact ⟨exec_cutCompletionWins hl hst hruns hends, exec_cutComplete_wins hl hst hruns hends⟩
  · intro s colour rect plan l hl hst hruns hwaits hsuits hchosen hgrantable hbehind hgood hresume hagain hquiet hstill
    obtain ⟨-, rfl, -⟩ := State.launch_spec hl
    exact exec_launchResume hl (by simp [hruns, hst, hwaits, hsuits, hchosen, hgrantable, hbehind, hgood, hresume, hagain])
      hquiet hstill

end Sys2Proof.Machine
end

section
/-! STATE.SAVE and STATE.LOAD (14 R393; 15 R423, R426). -/

namespace Sys2Proof.Machine

open Sys2Proof.Statements

/-! ## STATE.SAVE -/

section
variable (s : State)

theorem State.staging_setStaging_same (d colour : Nat) (g : Staging) : (s.setStaging d colour g).staging d colour = g := by
  rw [State.staging, State.setStaging_stagings, tabGet_tabSet_same]
  rfl

/-- What STATE.SAVE does beyond traffic is to elements, memory actors and nodes. -/
theorem State.saveReady_outsideSaves (d : Nat) (c : Cmd) (l : List Nat) : (s.saveReady d c l).outsideSaves = s.outsideSaves := by
  have hgates : ((s.spillDie d c.colour).saveGates d c.colour).outsideSaves = s.outsideSaves := by
    rw [outsideSaves_of_traffic (State.saveGates_outsideTraffic _ _ _), outsideSaves_of_traffic (State.spillDie_outsideTraffic _ _ _)]
  unfold State.saveReady
  dsimp only
  split
  · rw [State.saveMasAt_outsideSaves, hgates]
  · split
    · rw [State.saveLone_outsideSaves, State.saveElemsAt_outsideSaves, hgates]
    · rw [State.saveElemsAt_outsideSaves, hgates]

variable {s} {d : Nat} {c : Cmd}

/-- A single element that may be saved at once is saved. -/
theorem State.saveReady_elem (hfl : c.fl = 0) (htgt : c.tgt ≠ allTargets)
    (hmay : ((s.spillDie d c.colour).saveGates d c.colour).maySave d c.tgt = true) :
    ((s.saveReady d c [c.tgt]).elem (elemKey d c.tgt)).cut = .saved ∧
      ((s.saveReady d c [c.tgt]).elem (elemKey d c.tgt)).configured = false := by
  have heq : s.saveReady d c [c.tgt] = ((s.spillDie d c.colour).saveGates d c.colour).saveElement d c.opd c.tgt := by
    unfold State.saveReady State.saveElemsAt
    dsimp only
    rw [if_neg (by simp [hfl]), if_neg htgt, List.foldl_cons, List.foldl_nil, if_pos hmay]
  rw [heq, State.saveElement_elem]
  exact ⟨rfl, rfl⟩

/-- A single memory actor that may be saved at once is saved. -/
theorem State.saveReady_ma (hfl : c.fl = 1)
    (hmay : ((s.spillDie d c.colour).saveGates d c.colour).maySaveMa d c.tgt = true) :
    ((s.saveReady d c [c.tgt]).ma (maKey d c.tgt)).saved = true ∧
      ((s.saveReady d c [c.tgt]).ma (maKey d c.tgt)).st = .unconfigured := by
  have heq : s.saveReady d c [c.tgt] = ((s.spillDie d c.colour).saveGates d c.colour).saveMa d c.opd c.tgt := by
    unfold State.saveReady State.saveMasAt
    dsimp only
    rw [if_pos (by simp [hfl]), List.foldl_cons, List.foldl_nil, if_pos hmay]
  rw [heq, State.saveMa_ma]
  exact ⟨rfl, rfl⟩

end

section
variable {s : State} {die ticket d : Nat} {c : Cmd} {l : List Nat} (h : Issued s die ticket c d)
include h

/-- The state in which a save's targets are saved: the areas of the colour stand where the command puts them. -/
def State.saveBegun (s : State) (die ticket d : Nat) (c : Cmd) : State :=
  (taken s die ticket).setStaging d c.colour { s.staging d c.colour with area := c.opd }

theorem stateSave_performs (hcode : c.code = 0x13) (hfl : c.fl < 2) (harg : c.arg = 0) (hopd : c.opd < 2 ^ 36)
    (halign : c.opd % 4096 = 0) (hl : s.saveTargets d c = .places l) {P : State → Prop}
    (hP : P ((s.saveBegun die ticket d c).saveReady d c l)) :
    Performs (.stateSave die ticket) s die ticket (areaSize * l.length) l P := by
  refine performs_of_issued h (show execStateSave die ticket s = _ from rfl) (by simp [hcode])
    (by simp only [hfl, harg, hopd, decide_true, Bool.and_self]) ?_ hP
  have hl' : (taken s die ticket).saveTargets d c = .places l := hl
  simp only [hl']
  rw [if_neg (not_not_intro halign)]
  rfl

end

/-! ## STATE.LOAD -/

section
variable (s : State)

theorem State.loadSeqs_outsideTraffic (k : Nat) (m : Mem) : (s.loadSeqs k m).outsideTraffic = s.outsideTraffic := by
  unfold State.loadSeqs
  dsimp only
  rw [foldl_outsideTraffic (by intros; rfl), foldl_outsideTraffic (by intros; rfl)]

theorem State.loadNode_elems (colour key : Nat) : (s.loadNode colour key).elems = s.elems := by
  unfold State.loadNode
  split <;> rfl

theorem State.loadNode_outsideSaves (colour key : Nat) : (s.loadNode colour key).outsideSaves = s.outsideSaves := by
  unfold State.loadNode
  split <;> rfl

theorem State.loadLone_outsideSaves (d colour : Nat) : (s.loadLone d colour).outsideSaves = s.outsideSaves := by
  unfold State.loadLone
  exact foldl_outsideSaves (fun t k => t.loadNode_outsideSaves _ k) _ _

/-- The nodes that are loaded with the lowest live element of their plot. -/
def State.loadNodes (d pos colour : Nat) : State :=
  if s.lowestOfPlot d pos then
    ((List.range 4).map (4 * (pos / 16) + ·)).foldl (fun t n => t.loadNode colour (nodeKey d n)) s
  else s

theorem State.loadNodes_elems (d pos colour : Nat) : (s.loadNodes d pos colour).elems = s.elems := by
  unfold State.loadNodes
  split
  · exact foldl_leaves (F := State.elems) (fun t n => t.loadNode_elems _ _) _ _
  · rfl

theorem State.loadNodes_outsideSaves (d pos colour : Nat) : (s.loadNodes d pos colour).outsideSaves = s.outsideSaves := by
  unfold State.loadNodes
  exact ite_outsideSaves (foldl_outsideSaves (fun t n => t.loadNode_outsideSaves _ _) _ _) rfl

/-- The element of a key as its area gives it, with the counts of its channels. -/
def State.elemPlaced (d off pos : Nat) (reopen : Bool) : State :=
  let k := elemKey d pos
  let m := s.areaMem d (elemArea off pos)
  let kept := (tabGet s.elems (savedElem (fieldAt m 4 1) k)).getD Element.reset
  ((s.setElem k (loadElement m (s.elem k) kept reopen)).loadSeqs k m).loadCounts k

theorem State.loadElem_eq (d off pos : Nat) (reopen : Bool) : ∃ colour, s.loadElem d off pos reopen =
    ({ s.elemPlaced d off pos reopen with
      elems := tabDel (s.elemPlaced d off pos reopen).elems (savedElem colour (elemKey d pos)) } : State).loadNodes d pos colour := by
  unfold State.loadElem State.elemPlaced State.loadNodes
  exact ⟨_, rfl⟩

theorem State.loadCounts_outsideSaves (k : Nat) : (s.loadCounts k).outsideSaves = s.outsideSaves := rfl

/-- Its counts leave an element's configuration and its cut as they are. -/
theorem State.loadCounts_elem (k : Nat) : ((s.loadCounts k).elem k).configured = (s.elem k).configured ∧
    ((s.loadCounts k).elem k).cut = (s.elem k).cut := by
  unfold State.loadCounts
  dsimp only
  rw [State.elem_setElem_same]
  exact ⟨rfl, rfl⟩

theorem State.elemPlaced_outsideSaves (d off pos : Nat) (reopen : Bool) :
    (s.elemPlaced d off pos reopen).outsideSaves = s.outsideSaves := by
  unfold State.elemPlaced
  dsimp only
  rw [State.loadCounts_outsideSaves, outsideSaves_of_traffic (State.loadSeqs_outsideTraffic _ _ _), State.setElem_outsideSaves]

theorem State.elemPlaced_elem (d off pos : Nat) (reopen : Bool) :
    ((s.elemPlaced d off pos reopen).elem (elemKey d pos)).configured = true ∧
      ((s.elemPlaced d off pos reopen).elem (elemKey d pos)).cut = if reopen then .open else .frozen := by
  unfold State.elemPlaced
  dsimp only
  obtain ⟨hconf, hcut⟩ := State.loadCounts_elem ((s.setElem (elemKey d pos) _).loadSeqs (elemKey d pos) _) (elemKey d pos)
  rw [hconf, hcut, elem_of_traffic (State.loadSeqs_outsideTraffic _ _ _), State.elem_setElem_same]
  exact ⟨rfl, rfl⟩

/-- A loaded element is configured: open where it is reopened, and frozen otherwise (L80). -/
theorem State.loadElem_elem (d off pos : Nat) (reopen : Bool) :
    ((s.loadElem d off pos reopen).elem (elemKey d pos)).configured = true ∧
      ((s.loadElem d off pos reopen).elem (elemKey d pos)).cut = if reopen then .open else .frozen := by
  obtain ⟨colour, heq⟩ := s.loadElem_eq d off pos reopen
  have hkey : elemKey d pos ≠ savedElem colour (elemKey d pos) := by unfold savedElem; omega
  have helem : (s.loadElem d off pos reopen).elem (elemKey d pos) = (s.elemPlaced d off pos reopen).elem (elemKey d pos) := by
    rw [heq, State.elem, State.loadNodes_elems, tabGet_tabDel_other _ hkey, State.elem]
  rw [helem]
  exact s.elemPlaced_elem d off pos reopen

theorem State.loadElem_outsideSaves (d off pos : Nat) (reopen : Bool) :
    (s.loadElem d off pos reopen).outsideSaves = s.outsideSaves := by
  obtain ⟨colour, heq⟩ := s.loadElem_eq d off pos reopen
  have hdel (t : State) (es : Tab Element) : ({ t with elems := es } : State).outsideSaves = t.outsideSaves := rfl
  rw [heq, State.loadNodes_outsideSaves, hdel, State.elemPlaced_outsideSaves]

theorem State.loadMa_outsideSaves (colour d off slot : Nat) : (s.loadMa colour d off slot).outsideSaves = s.outsideSaves := rfl

theorem State.loadMa_eq (colour d off slot : Nat) : ∃ fresh, s.loadMa colour d off slot =
    let t := s.setMa (maKey d slot) { maOfArea (s.areaMem d (maArea off slot))
      ((tabGet s.mas (savedMa colour (maKey d slot))).getD fresh) with saved := false, weir := .none, tlb := [], walking := none }
    { t with mas := tabDel t.mas (savedMa colour (maKey d slot)) } := ⟨_, rfl⟩

/-- A loaded memory actor is what its area makes of what is kept of it. -/
theorem State.loadMa_ma (colour d off slot : Nat) :
    ∃ m, (∀ kept, tabGet s.mas (savedMa colour (maKey d slot)) = some kept → m = kept) ∧
      (s.loadMa colour d off slot).ma (maKey d slot) =
        { maOfArea (s.areaMem d (maArea off slot)) m with saved := false, weir := .none, tlb := [], walking := none } := by
  have hkey : maKey d slot ≠ savedMa colour (maKey d slot) := by unfold savedMa; omega
  obtain ⟨fresh, heq⟩ := s.loadMa_eq colour d off slot
  refine ⟨(tabGet s.mas (savedMa colour (maKey d slot))).getD fresh, fun kept hkept => by rw [hkept]; rfl, ?_⟩
  rw [heq]
  dsimp only
  rw [State.ma, tabGet_tabDel_other _ hkey]
  exact State.ma_setMa_same _ _ _

/-! ## What follows a load (13 R327; 02 Table 2-7) -/

theorem State.restoreGates_outsideTraffic (colour : Nat) : (s.restoreGates colour).outsideTraffic = s.outsideTraffic := by
  have hheads (t : State) (hs : Tab Headgate) : ({ t with heads := hs } : State).outsideTraffic = t.outsideTraffic := rfl
  have houts (t : State) (os : Tab Outfall) : ({ t with outs := os } : State).outsideTraffic = t.outsideTraffic := rfl
  unfold State.restoreGates
  refine foldl_outsideTraffic (fun t n => ?_) _ _
  have hhead : (match tabGet t.heads (savedHead colour n) with
      | none => t
      | some h =>
        let u := if (t.head n).st = .idle then t.setHead n { h with colour := some colour } else t
        { u with heads := tabDel u.heads (savedHead colour n) } : State).outsideTraffic = t.outsideTraffic := by
    split
    · rfl
    · dsimp only
      rw [hheads]
      split
      · rw [State.setHead_outsideTraffic]
      · rfl
  dsimp only
  split
  · exact hhead
  · rw [houts, State.setOut_outsideTraffic]
    exact hhead

theorem State.reopen_eq (d colour : Nat) : ∃ cs bs ns os l g, s.reopen d colour =
    (List.foldl (fun (u : State) (c : Chan) => u.askSpilled c.dest colour c.load)
      { s with chans := cs, binds := bs, nodes := ns, outs := os } l).setStaging d colour g := ⟨_, _, _, _, _, _, rfl⟩

/-- Reopening a colour changes nodes and its staging, beyond traffic. -/
theorem State.reopen_outsideTraffic (d colour : Nat) :
    ∃ ns gs, (s.reopen d colour).outsideTraffic = { s.outsideTraffic with nodes := ns, stagings := gs } := by
  obtain ⟨cs, bs, ns, os, l, g, heq⟩ := s.reopen_eq d colour
  have hstaging (t : State) : ∃ gs, (t.setStaging d colour g).outsideTraffic = { t.outsideTraffic with stagings := gs } := ⟨_, rfl⟩
  obtain ⟨gs, hg⟩ := hstaging (List.foldl (fun (u : State) (c : Chan) => u.askSpilled c.dest colour c.load)
    { s with chans := cs, binds := bs, nodes := ns, outs := os } l)
  rw [heq, hg, foldl_outsideTraffic fun (u : State) (c : Chan) => (u.askSpilled_channelsOnly c.dest colour c.load).outsideTraffic]
  exact ⟨ns, gs, rfl⟩

/-- A launch that is active again is marked so, beyond traffic. -/
theorem State.loadedAgain_outsideTraffic (colour : Nat) :
    ∃ ls, (s.loadedAgain colour).outsideTraffic = { s.outsideTraffic with launches := ls } := by
  unfold State.loadedAgain
  split
  · have hlaunch (t : State) (f : Launch → Launch) : (t.mapLaunch colour f).outsideTraffic =
      { t.outsideTraffic with launches := (t.mapLaunch colour f).launches } := rfl
    rw [hlaunch, State.restoreGates_outsideTraffic]
    exact ⟨_, rfl⟩
  · exact ⟨s.launches, rfl⟩

/-- What follows a load on its die. -/
def State.afterLoad (d colour : Nat) (open' : Bool) : State := (if open' then s.reopen d colour else s).loadedAgain colour

theorem State.afterLoad_outsideTraffic (d colour : Nat) (open' : Bool) : ∃ ns gs ls,
    (s.afterLoad d colour open').outsideTraffic = { s.outsideTraffic with nodes := ns, stagings := gs, launches := ls } := by
  unfold State.afterLoad
  obtain ⟨ls, heq⟩ := (if open' then s.reopen d colour else s).loadedAgain_outsideTraffic colour
  rw [heq]
  split
  · obtain ⟨ns, gs, hopen⟩ := s.reopen_outsideTraffic d colour
    rw [hopen]
    exact ⟨ns, gs, ls, rfl⟩
  · exact ⟨s.nodes, s.stagings, ls, rfl⟩

@[simp] theorem State.afterLoad_phys (d colour : Nat) (open' : Bool) : (s.afterLoad d colour open').phys = s.phys := by
  unfold State.afterLoad
  split <;> simp

theorem State.afterLoad_ctrls (d colour : Nat) (open' : Bool) : (s.afterLoad d colour open').ctrls = s.ctrls := by
  obtain ⟨ns, gs, ls, h⟩ := s.afterLoad_outsideTraffic d colour open'
  exact (congrArg State.ctrls h :)

theorem State.afterLoad_elem (d colour : Nat) (open' : Bool) (k : Nat) : (s.afterLoad d colour open').elem k = s.elem k := by
  obtain ⟨ns, gs, ls, h⟩ := s.afterLoad_outsideTraffic d colour open'
  have helems : (s.afterLoad d colour open').elems = s.elems := (congrArg State.elems h :)
  rw [State.elem, helems, State.elem]

theorem State.afterLoad_ma (d colour : Nat) (open' : Bool) (k : Nat) : (s.afterLoad d colour open').ma k = s.ma k := by
  obtain ⟨ns, gs, ls, h⟩ := s.afterLoad_outsideTraffic d colour open'
  have hmas : (s.afterLoad d colour open').mas = s.mas := (congrArg State.mas h :)
  rw [State.ma, hmas, State.ma]

/-- The targets of a STATE.LOAD, loaded. -/
def State.loadAll (d : Nat) (c : Cmd) (l : List Nat) : State :=
  if c.fl % 2 = 1 then l.foldl (fun t n => t.loadMa c.colour d c.opd n) s
  else
    let u := l.foldl (fun t p => t.loadElem d c.opd p (bitOf c.fl 1)) s
    if c.tgt = allTargets then u.loadLone d c.colour else u

theorem State.loadAll_outsideSaves (d : Nat) (c : Cmd) (l : List Nat) : (s.loadAll d c l).outsideSaves = s.outsideSaves := by
  unfold State.loadAll
  refine ite_outsideSaves (foldl_outsideSaves (fun t n => t.loadMa_outsideSaves _ _ _ n) _ _) ?_
  have helems := foldl_outsideSaves (fun t p => State.loadElem_outsideSaves t d c.opd p (bitOf c.fl 1)) l s
  exact ite_outsideSaves ((State.loadLone_outsideSaves _ _ _).trans helems) helems

@[simp] theorem State.loadAll_phys (d : Nat) (c : Cmd) (l : List Nat) : (s.loadAll d c l).phys = s.phys := by
  unfold State.loadAll
  have helems : (l.foldl (fun t p => t.loadElem d c.opd p (bitOf c.fl 1)) s).phys = s.phys :=
    foldl_leaves (F := State.phys) (by simp) _ _
  split
  · exact foldl_leaves (F := State.phys) (by simp) _ _
  · dsimp only
    split
    · rw [State.loadLone_phys, helems]
    · exact helems

end

section
variable {s : State} {die ticket d : Nat} {c : Cmd} {l : List Nat} (h : Issued s die ticket c d)
include h

/-- A STATE.LOAD of targets whose areas can be read loads them, and what follows a load follows. -/
theorem stateLoad_performs (hcode : c.code = 0x14) (hfl : c.fl < 4) (harg : c.arg = 0) (hopd : c.opd < 2 ^ 36)
    (halign : c.opd % 4096 = 0) (hl : s.loadTargets d c = .places l) (hmay : ∀ p ∈ l, s.mayLoad d c p = true)
    (helems : c.fl % 2 = 0 → ∀ p ∈ l, s.areaBad d (elemArea c.opd p) = false ∧ unitsQuiet (s.elem (elemKey d p)) = true)
    (hmas : c.fl % 2 = 1 → ∀ p ∈ l, s.areaBad d (maArea c.opd p) = false) {P : State → Prop}
    (hP : P (((taken s die ticket).loadAll d c l).afterLoad d c.colour (bitOf c.fl 1))) :
    Performs (.stateLoad die ticket) s die ticket (areaSize * l.length) l P := by
  have hl' : (taken s die ticket).loadTargets d c = .places l := hl
  have hmay' : l.all ((taken s die ticket).mayLoad d c) = true := List.all_eq_true.2 hmay
  have hread :
      l.any (fun p => (taken s die ticket).areaBad d (if c.fl % 2 = 1 then maArea c.opd p else elemArea c.opd p)) = false := by
    refine List.any_eq_false.2 fun p hp => ?_
    rcases Nat.mod_two_eq_zero_or_one c.fl with hz | ho
    · rw [if_neg (by omega)]
      exact Bool.not_eq_true _ ▸ (helems hz p hp).1
    · rw [if_pos ho]
      exact Bool.not_eq_true _ ▸ hmas ho p hp
  have hquiet : (c.fl % 2 = 0 && !l.all (fun p => unitsQuiet ((taken s die ticket).elem (elemKey d p)))) = false := by
    rcases Nat.mod_two_eq_zero_or_one c.fl with hz | ho
    · have hall : l.all (fun p => unitsQuiet ((taken s die ticket).elem (elemKey d p))) = true :=
        List.all_eq_true.2 fun p hp => (helems hz p hp).2
      rw [hall]
      simp
    · simp [ho]
  refine performs_of_issued h (show execStateLoad die ticket s = _ from rfl) (by simp [hcode])
    (by simp only [hfl, harg, hopd, decide_true, Bool.and_self]) ?_ hP
  simp only [hl']
  rw [if_neg (not_not_intro halign), if_neg (by simp [hmay']), if_neg (by simp [hread]), if_neg (by simp [hquiet])]
  rfl

end

end Sys2Proof.Machine
end

section
/-! REBAL.MOVE as it begins (13 R346, R347). -/

namespace Sys2Proof.Machine

open Sys2Proof.Statements

/-- A number read from one memory and written to another is a copy of its bytes. -/
theorem Memory.get_write_read (n : Nat) : ∀ (m m' : Mem) (a b i : Nat), Memory.wf m = true → i < n →
    Memory.get (Memory.write m a (Memory.read m' b n) n) (a + i) = Memory.get m' (b + i) := by
  induction n with
  | zero => intros; omega
  | succ n ih =>
    intro m m' a b i h hi
    have hlow : BitVec.ofNat 8 (Memory.read m' b (n + 1)) = Memory.get m' b := by
      apply BitVec.eq_of_toNat_eq
      rw [Memory.read, BitVec.toNat_ofNat, Nat.add_mul_mod_self_left, Nat.mod_eq_of_lt (Memory.get m' b).isLt]
    have hhigh : Memory.read m' b (n + 1) / 256 = Memory.read m' (b + 1) n := by
      rw [Memory.read, Nat.add_mul_div_left _ _ (by decide), Nat.div_eq_of_lt (Memory.get m' b).isLt, Nat.zero_add]
    rw [Memory.write, hlow, hhigh]
    cases i with
    | zero =>
      simp only [Nat.add_zero]
      rw [Memory.get_write_other _ _ _ _ _ (by omega), Memory.get_set_same _ _ h]
    | succ i =>
      have hnext := ih (Memory.set m a (Memory.get m' b)) m' (a + 1) (b + 1) i (Memory.wf_set _ _ h) (by omega)
      rw [show a + (i + 1) = a + 1 + i by omega, hnext, show b + 1 + i = b + (i + 1) by omega]

/-- Reading a byte is reading its number. -/
theorem Memory.read_one (m : Mem) (a : Nat) : Memory.read m a 1 = (Memory.get m a).toNat := by
  simp [Memory.read]

section
variable {s : State} {colour : Nat} {m : Move}

theorem State.bringDepths_channelsOnly (s : State) (colour : Nat) (m : Move) : ChannelsOnly s (s.bringDepths colour m) := by
  unfold State.bringDepths
  exact ChannelsOnly.foldl (fun t x => ⟨_, _, _, _, rfl⟩) _ _

theorem State.retarget_channelsOnly (s : State) (colour : Nat) (ports : List Nat) (a b : Nat) :
    ChannelsOnly s (s.retarget colour ports a b) := ⟨_, _, _, _, rfl⟩

/-- The block of a move's target as the move begins: the record without its quota, and the input ports without a mode. -/
def begunBlock (e t : Element) (m : Move) : Mem :=
  (slotIns e m.slot).foldl (fun a i => Memory.write a (256 + 4 * i) m.dslot 4)
    (Memory.set (Memory.write t.active (32 * m.dslot) (Memory.read e.active (32 * m.slot) 32) 32) (32 * m.dslot + 24) 0)

/-- The target of a move as the move begins. -/
def begunTarget (s : State) (colour : Nat) (m : Move) : Element :=
  let t := moveTarget (s.elem m.dst) colour (s.elem m.src).load
  { t with active := begunBlock (s.elem m.src) t m }

theorem State.beginMove_eq (s : State) (colour : Nat) (m : Move) : s.beginMove colour m =
    ((s.bringDepths colour m).setElem m.dst (begunTarget s colour m)).retarget colour (slotIns (s.elem m.src) m.slot) m.src m.dst :=
  rfl

theorem State.beginMove_elem_dst (s : State) (colour : Nat) (m : Move) :
    (s.beginMove colour m).elem m.dst = begunTarget s colour m := by
  rw [State.beginMove_eq, (State.retarget_channelsOnly _ _ _ _ _).elem, State.elem_setElem_same]

theorem State.beginMove_elem_other (s : State) (colour : Nat) (m : Move) {k : Nat} (h : k ≠ m.dst) :
    (s.beginMove colour m).elem k = s.elem k := by
  rw [State.beginMove_eq, (State.retarget_channelsOnly _ _ _ _ _).elem, State.elem_setElem_other _ _ h,
    (s.bringDepths_channelsOnly colour m).elem]

theorem moveTarget_configured (t : Element) (colour load : Nat) : (moveTarget t colour load).configured = true := by
  unfold moveTarget
  split
  · assumption
  · rfl

theorem moveTarget_wf {t : Element} (h : Memory.wf t.active = true) (colour load : Nat) :
    Memory.wf (moveTarget t colour load).active = true := by
  unfold moveTarget
  split
  · exact h
  · rfl

/-- The slot record of the target is a copy of the source's, but for the quota, which is 0. -/
theorem begunBlock_get {e t : Element} {i : Nat} (hwf : Memory.wf t.active = true) (hslot : m.dslot < 8) (hi : i < 32) :
    Memory.get (begunBlock e t m) (32 * m.dslot + i) = if i = 24 then 0 else Memory.get e.active (32 * m.slot + i) := by
  have hports (l : List Nat) (a : Mem) : Memory.get (l.foldl (fun a i => Memory.write a (256 + 4 * i) m.dslot 4) a)
      (32 * m.dslot + i) = Memory.get a (32 * m.dslot + i) := by
    induction l generalizing a with
    | nil => rfl
    | cons j l ih => rw [List.foldl_cons, ih, Memory.get_write_other _ _ _ _ _ (by omega)]
  rw [begunBlock, hports]
  split
  · next hquota => rw [hquota, Memory.get_set_same _ _ (Memory.wf_write _ _ _ _ hwf)]
  · rw [Memory.get_set_other _ _ (by omega), Memory.get_write_read _ _ _ _ _ _ hwf hi]

/-- The target has the slot of the source, with an empty quota. -/
theorem State.beginMove_slot (hwf : Memory.wf (s.elem m.dst).active = true) (hslot : m.dslot < 8)
    (hvalid : slotValid (s.elem m.src) m.slot = true) : slotValid ((s.beginMove colour m).elem m.dst) m.dslot = true ∧
      quotaOf ((s.beginMove colour m).elem m.dst) m.dslot = 0 := by
  have hget := fun i => begunBlock_get (e := s.elem m.src) (i := i) (moveTarget_wf hwf colour (s.elem m.src).load) hslot
  rw [State.beginMove_elem_dst]
  unfold slotValid quotaOf slotField at *
  rw [Memory.read_one] at *
  unfold begunTarget
  dsimp only
  rw [Memory.read_one, hget 25 (by omega), hget 24 (by omega), if_neg (by decide), if_pos rfl]
  exact ⟨hvalid, rfl⟩

theorem elemKey_parts (k : Nat) : elemKey (k / 6400) (k % 6400) = k := by unfold elemKey; omega

/-- A destination among the inputs of a moved slot is no longer at its source. -/
theorem moveDest_leaves {ports : List Nat} {a b : Nat} (hne : a ≠ b) {d y : Dest} (hy : y = moveDest ports a b d)
    (hkind : y.kind = .element) (hkey : elemKey y.die y.pos = a) : y.din ∉ ports := by
  subst hy
  unfold moveDest at *
  split at hkey
  · rw [elemKey_parts] at hkey
    exact absurd hkey.symm hne
  · next hnot =>
    rw [if_neg hnot] at hkind ⊢
    intro hmem
    exact hnot (by simp [hkind, hkey, hmem])

/-- Nothing that is sent to the replica goes to where it was. -/
theorem State.beginMove_binds (hne : m.src ≠ m.dst) {b : Bind} (hb : b ∈ (s.beginMove colour m).binds) (hcol : b.colour = colour)
    {y : Dest} (hy : y ∈ b.dests) (hkind : y.kind = .element) (hkey : elemKey y.die y.pos = m.src) :
    y.din ∉ slotIns (s.elem m.src) m.slot := by
  rw [State.beginMove_eq] at hb
  obtain ⟨x, -, rfl⟩ := List.mem_map.1 hb
  split at hy
  · obtain ⟨d, -, hd⟩ := List.mem_map.1 hy
    exact moveDest_leaves hne hd.symm hkind hkey
  · next hcol' =>
    rw [if_neg hcol'] at hcol
    exact absurd hcol hcol'

/-- What a move that may begin finds at its source. -/
theorem State.moveAllowed_spec {l : Launch} (h : s.moveAllowed l m = true) :
    slotValid (s.elem m.src) m.slot = true ∧ m.src ≠ m.dst := by
  unfold State.moveAllowed at h
  dsimp only at h
  split at h
  · cases h
  · simp only [State.moveFits, Bool.and_eq_true, decide_eq_true_eq] at h
    tauto

end

/-- A REBAL.MOVE that may begin begins. -/
theorem rebalMove_performs {s : State} {die ticket d p : Nat} {c : Cmd} {m : Move} {l : Launch} (h : Issued s die ticket c d)
    (hcode : c.code = 0x16) (hfl : c.fl = 0) (harg : c.arg < 8) (hopd : c.opd < 2 ^ 22) (hpos : c.opd % 2 ^ 13 < 6400)
    (htgt : s.elemTargets d c = .places [p]) (hm : s.moveOf c d p = some m) (hl : s.launch c.colour = some l)
    (hallow : s.moveAllowed l m = true) (hquiet : (s.elem m.dst).configured = true ∨ unitsQuiet (s.elem m.dst) = true)
    {P : State → Prop} (hP : P ((taken s die ticket).beginMove c.colour m)) :
    Performs (.rebalMove die ticket) s die ticket 0 [p] P := by
  have htgt' : (taken s die ticket).elemTargets d c = .places [p] := htgt
  have hm' : (taken s die ticket).moveOf c d p = some m := hm
  have hl' : (taken s die ticket).launch c.colour = some l := hl
  have hallow' : (taken s die ticket).moveAllowed l m = true := hallow
  have hquiet' : (!((taken s die ticket).elem m.dst).configured && !unitsQuiet ((taken s die ticket).elem m.dst)) = false := by
    have helem : (taken s die ticket).elem m.dst = s.elem m.dst := rfl
    rw [helem]
    rcases hquiet with hq | hq <;> simp [hq]
  refine performs_of_issued h (show execRebalMove die ticket s = _ from rfl) (by simp [hcode])
    (by simp only [hfl, harg, hopd, decide_true, Bool.and_self]) ?_ hP
  simp only [htgt', hm', hl', hquiet', hallow']
  rw [if_neg (by decide), if_pos (by simpa using hpos)]

end Sys2Proof.Machine
end

section
/-! Completions that follow (14 R373, R376, R396; 13 R346, R347; 18 R471), and what commands that take time come to. -/

namespace Sys2Proof.Machine

open Sys2Proof.Statements

/-! ## Step 3 of a move (13 R347) -/

section
variable {s : State} {colour : Nat} {m : Move}

theorem State.moveWaiters_rest (s : State) (m : Move) : ∃ ps, s.moveWaiters m = { s with pools := ps } := by
  unfold State.moveWaiters
  refine List.foldlRecOn (motive := fun t : State => ∃ ps, t = { s with pools := ps }) _ _ ⟨_, rfl⟩ fun t ht x _ => ?_
  obtain ⟨ps, rfl⟩ := ht
  split
  · exact ⟨_, rfl⟩
  · exact ⟨ps, rfl⟩

/-- A source of a moved slot's outputs becomes the target's. -/
def moveBind (m : Move) (colour load : Nat) (outs : List Source) (b : Bind) : Bind :=
  if outs.contains b.source && b.colour = colour && b.load = some load then
    { b with source := elemSource m.dst b.source.out }
  else b

/-- A move that is finished takes the slot and its outputs from its source, and no packet. -/
theorem State.finishMove_spec {l : Launch} {r : PlacedReplica} (hl : s.launch colour = some l)
    (hr : replicaAt l.plan (m.src / 6400) (m.src % 6400) m.slot = some r) :
    (s.finishMove colour m).elem m.src = movedFrom (s.elem m.src) m ∧ (s.finishMove colour m).packets = s.packets ∧
      (s.finishMove colour m).binds = s.binds.map (moveBind m colour (s.elem m.src).load
        ((slotOuts (s.elem m.src) m.slot).map (elemSource m.src))) := by
  obtain ⟨ps, hw⟩ := s.moveWaiters_rest m
  unfold State.finishMove
  simp only [hl, hr, hw]
  exact ⟨State.elem_setElem_same _ _ _, rfl, rfl⟩

/-- No output of the slot leaves from its source any more. -/
theorem moveBind_leaves (hne : m.src ≠ m.dst) {load : Nat} {b : Bind} {outs : List Nat} {o : Nat} (ho : o ∈ outs)
    (hcol : (moveBind m colour load (outs.map (elemSource m.src)) b).colour = colour)
    (hload : (moveBind m colour load (outs.map (elemSource m.src)) b).load = some load) :
    (moveBind m colour load (outs.map (elemSource m.src)) b).source ≠ elemSource m.src o := by
  unfold moveBind at *
  split
  · intro heq
    have hdie : m.dst / 6400 = m.src / 6400 := congrArg Source.die heq
    have hpos : m.dst % 6400 = m.src % 6400 := congrArg Source.pos heq
    omega
  · next hnot =>
    rw [if_neg hnot] at hcol hload
    intro heq
    refine hnot ?_
    simp only [heq, hcol, hload, decide_true, Bool.and_true, List.contains_iff_mem]
    exact List.mem_map_of_mem ho

/-- A move that is ready to go sends its copy, or finishes as the copy has arrived. -/
theorem State.goMove_ready (h : moveGoes s colour m) : s.goMove colour m =
    match s.packets.find? fun p => isMoved m p.cargo with
    | none => some (s.manage colour (.moved (8 * m.src + m.slot) (8 * m.dst + m.dslot)) (elemLoc m.src) (elemLoc m.dst))
    | some p => if p.atTarget then some ((s.consume (isMoved m)).finishMove colour m) else none := by
  obtain ⟨hfir, hfault, hsrc, hdst, hroom, hnotice, hconf⟩ := h
  have hrun : (!(decide ((s.elem m.src).fir.status ≠ .idle) && decide ((s.elem m.src).fir.slot = m.slot))) = true := by
    rcases hfir with hf | hf <;> simp [hf]
  have hquiet : ((s.elem m.dst).configured || unitsQuiet (s.elem m.dst)) = true := by
    rcases hconf with hc | hc <;> simp [hc]
  unfold State.goMove
  simp only [hrun, hfault, hsrc, hdst, hroom, hnotice, hquiet]
  rfl

theorem State.goMove_sends (h : moveGoes s colour m) (hnone : ∀ q ∈ s.packets, isMoved m q.cargo = false) :
    ∃ q, s.goMove colour m = some { s with packets := s.packets ++ [q] } ∧ q.cls = 0 ∧ isMoved m q.cargo = true := by
  have hfind : (s.packets.find? fun p => isMoved m p.cargo) = none :=
    List.find?_eq_none.2 fun q hq => by simp [hnone q hq]
  rw [State.goMove_ready h, hfind]
  exact ⟨_, rfl, rfl, decide_eq_true rfl⟩

theorem State.goMove_arrives (h : moveGoes s colour m) {q : Packet}
    (hq : (s.packets.find? fun p => isMoved m p.cargo) = some q) (hhere : q.here = q.target) (hvia : q.via = none) :
    s.goMove colour m = some ((s.consume (isMoved m)).finishMove colour m) := by
  rw [State.goMove_ready h, hq]
  exact if_pos (by simp [Packet.atTarget, hhere, hvia])

end

/-! ## What a performed command comes to (14 R373) -/

section
variable {s u : State} {die ticket v d n : Nat} {ps : List Nat} {t : Ticket}

section
variable (ht : s.ticket die ticket = some t) (hphase : t.phase = .performed v ps) (hd : s.dieOf (cmdOf die t).ldie = some d)
include ht hphase hd

theorem streamCommandComplete_done (hc : s.completes (cmdOf die t) d v ps = (some n, u)) :
    exec (.streamCommandComplete die ticket) s = .next (u.finish die ticket (cmdOf die t).code 0 n) := by
  show execStreamCommandComplete die ticket s = _
  simp only [execStreamCommandComplete, ht, hphase, hd, hc]

theorem streamCommandComplete_later (hc : s.completes (cmdOf die t) d v ps = (none, u)) :
    exec (.streamCommandComplete die ticket) s = .next u := by
  show execStreamCommandComplete die ticket s = _
  simp only [execStreamCommandComplete, ht, hphase, hd, hc]

end

variable {c : Cmd}

/-- A command whose work ends with its event completes at once. -/
theorem State.completes_other (hcode : c.code ∉ [0x06, 0x0C, 0x13, 0x16, 0x17]) : s.completes c d v ps = (some v, s) := by
  simp only [List.mem_cons, List.not_mem_nil, or_false, not_or] at hcode
  unfold State.completes
  split
  case h_6 => rfl
  all_goals simp_all

/-- A halt of memory actors completes once they are quiet. -/
theorem State.completes_halt (hcode : c.code = 0x0C) :
    s.completes c d v ps = (if ps.all fun n => quietMa (s.ma (maKey d n)) then some v else none, s) := by
  simp only [State.completes, hcode]

theorem State.completes_switch (hcode : c.code = 0x06) (harmed : (s.staging d c.colour).armed = true) :
    s.completes c d v ps =
      if s.allSwitched d c.colour (s.staging d c.colour).load then
        (some (s.activeElems d c.colour (s.staging d c.colour).load).length,
          s.setStaging d c.colour { Staging.reset with
            weir := (s.staging d c.colour).weir, drained := (s.staging d c.colour).drained, area := (s.staging d c.colour).area })
      else (none, s) := by
  simp only [State.completes, hcode, harmed]
  rfl

theorem State.completes_switched (hcode : c.code = 0x06) (harmed : (s.staging d c.colour).armed = false) :
    s.completes c d v ps = (some (s.elemsOfLoad d c.colour c.arg).length, s) := by
  simp only [State.completes, hcode, harmed]
  rfl

theorem State.completes_move {p : Nat} {m : Move} (hcode : c.code = 0x16) (hm : s.moveOf c d p = some m)
    (hconf : (s.elem m.src).configured = true) (hcol : (s.elem m.src).colour = c.colour) (hgo : s.goMove c.colour m = some u) :
    s.completes c d v [p] = (if s.packets.any fun q => isMoved m q.cargo then some v else none, u) := by
  simp only [State.completes, hcode, hm, hgo]
  rw [if_neg (by simp [hconf, hcol])]

/-- The frequency reached is the point asked for, but where a limit holds the plot lower. -/
theorem State.completes_clock {p : Nat} (hcode : c.code = 0x17) : s.completes c d v [p] =
    (some (clockReached (s.plot (d * 400 + p)) (clockMhz c)), s.setPlot (d * 400 + p) { s.plot (d * 400 + p) with
      mhz := clockReached (s.plot (d * 400 + p)) (clockMhz c), asked := clockMhz c, mv := clockMv c }) := by
  have hle : clockReached (s.plot (d * 400 + p)) (clockMhz c) ≤ clockMhz c := by
    unfold clockReached
    split
    · exact Nat.min_le_left _ _
    · exact le_rfl
  have hmin : Nat.min (clockMhz c) (clockReached (s.plot (d * 400 + p)) (clockMhz c)) =
    clockReached (s.plot (d * 400 + p)) (clockMhz c) := Nat.min_eq_right hle
  simp only [State.completes, hcode, State.setClocks, List.foldl_cons, List.foldl_nil, hmin]

end

section
variable {s : State} {die ticket v d p : Nat} {t : Ticket} {m : Move} (ht : s.ticket die ticket = some t)
  (hphase : t.phase = .performed v [p]) (hd : s.dieOf (cmdOf die t).ldie = some d) (hcode : (cmdOf die t).code = 0x16)
  (hm : s.moveOf (cmdOf die t) d p = some m) (hconf : (s.elem m.src).configured = true)
  (hcol : (s.elem m.src).colour = (cmdOf die t).colour) (hgo : moveGoes s (cmdOf die t).colour m)
include ht hphase hd hcode hm hconf hcol hgo

/-- The copy of a slot that may go leaves on class 0. -/
theorem rebalMove_sends (hnone : ∀ q ∈ s.packets, isMoved m q.cargo = false) :
    ∃ q, exec (.streamCommandComplete die ticket) s = .next { s with packets := s.packets ++ [q] } ∧ q.cls = 0 ∧
      isMoved m q.cargo = true := by
  obtain ⟨q, hsend, hcls, hcargo⟩ := State.goMove_sends hgo hnone
  refine ⟨q, streamCommandComplete_later ht hphase hd ((State.completes_move hcode hm hconf hcol hsend).trans ?_), hcls, hcargo⟩
  rw [if_neg (by simpa using hnone)]

/-- As the copy arrives the slot and its outputs are gone from where they were. -/
theorem rebalMove_arrives {l : Launch} {r : PlacedReplica} {q : Packet} (hl : s.launch (cmdOf die t).colour = some l)
    (hr : replicaAt l.plan (m.src / 6400) (m.src % 6400) m.slot = some r) (hne : m.src ≠ m.dst)
    (hq : (s.packets.find? fun q => isMoved m q.cargo) = some q) (hhere : q.here = q.target) (hvia : q.via = none) :
    Completes (.streamCommandComplete die ticket) s die ticket (cmdOf die t) v fun u => u.phys = s.phys ∧
      (∀ x ∈ (u.elem m.src).store, x.2.slot ≠ m.slot) ∧ (∀ x ∈ u.packets, isMoved m x.cargo = false) ∧
      ∀ b ∈ u.binds, b.colour = (cmdOf die t).colour → b.load = some (s.elem m.src).load →
        ∀ o ∈ slotOuts (s.elem m.src) m.slot, b.source ≠ elemSource m.src o := by
  have harrived := State.goMove_arrives hgo hq hhere hvia
  have hmoved : isMoved m q.cargo = true := by simpa using List.find?_some hq
  have hany : (s.packets.any fun q => isMoved m q.cargo) = true :=
    List.any_eq_true.2 ⟨q, List.mem_of_find?_eq_some hq, hmoved⟩
  obtain ⟨helem, hpackets, hbinds⟩ := State.finishMove_spec (s := s.consume (isMoved m)) hl hr
  refine ⟨_, streamCommandComplete_done ht hphase hd ((State.completes_move hcode hm hconf hcol harrived).trans
    (by rw [if_pos hany])), by simp, ?_, ?_, ?_⟩
  · intro x hx
    rw [helem] at hx
    simpa using (List.mem_filter.1 hx).2
  · intro x hx
    rw [hpackets] at hx
    simpa using (List.mem_filter.1 hx).2
  · intro b hb hbcol hbload o ho
    rw [hbinds] at hb
    obtain ⟨x, -, rfl⟩ := List.mem_map.1 hb
    exact moveBind_leaves hne ho hbcol hbload

end

/-- Settles O53: each command by what it does to its targets, and each completion by what it waits for. -/
theorem longCommands : Obligations.LongCommands := by
  refine ⟨fun s die ticket c d h => ⟨?_, ?_, ?_⟩, ?_⟩
  · intro l hcode hfl harg hopd halign hl t
    have hkept := (s.saveBegun die ticket d c).saveReady_outsideSaves d c l
    have hctrls : (s.saveBegun die ticket d c).ctrls = s.ctrls := rfl
    refine stateSave_performs h hcode hfl harg hopd halign hl ⟨?_, ?_, fun hz hone htgt hmay => ?_, fun ho hone hmay => ?_⟩
    · rw [State.staging, stagings_of_saves hkept]
      exact congrArg Staging.area (State.staging_setStaging_same _ _ _ _)
    · rw [ctrls_of_loads (outsideLoads_of_saves hkept), hctrls]
    · rw [hone]
      exact State.saveReady_elem hz htgt hmay
    · rw [hone]
      exact State.saveReady_ma ho hmay
  · intro l hcode hfl harg hopd halign hl hmay helems hmas
    refine stateLoad_performs h hcode hfl harg hopd halign hl hmay helems hmas ⟨by simp [taken], ?_, fun hz hone htgt => ?_,
      fun ho hone => ?_⟩
    · rw [State.afterLoad_ctrls, ctrls_of_loads (outsideLoads_of_saves (State.loadAll_outsideSaves _ _ _ _))]
      rfl
    · rw [State.afterLoad_elem, hone, State.loadAll, if_neg (by omega), if_neg htgt]
      exact State.loadElem_elem _ _ _ _ _
    · rw [State.afterLoad_ma, hone, State.loadAll, if_pos ho]
      exact State.loadMa_ma _ _ _ _ _
  · intro p m l hcode hfl harg hopd hpos htgt hm hl hallow hquiet
    obtain ⟨hvalid, hne⟩ := State.moveAllowed_spec hallow
    have hslot : m.dslot < 8 := by
      obtain ⟨e, -, rfl⟩ := Option.map_eq_some_iff.1 hm
      exact Nat.mod_lt _ (by decide)
    refine rebalMove_performs h hcode hfl harg hopd hpos htgt hm hl hallow hquiet
      ⟨State.beginMove_phys _ _ _, fun k hk => State.beginMove_elem_other _ _ _ hk, ?_,
        fun hwf => State.beginMove_slot hwf hslot hvalid, fun b hb hcol y hy => State.beginMove_binds hne hb hcol hy⟩
    rw [State.beginMove_elem_dst]
    exact moveTarget_configured _ _ _
  · intro s die ticket t v ps d ht hphase c g hd
    refine ⟨fun hcode => streamCommandComplete_done ht hphase hd (State.completes_other hcode), ?_, ?_, ?_, ?_⟩
    · intro hcode
      refine ⟨fun hquiet => streamCommandComplete_done ht hphase hd ?_, fun ⟨n, hn, hbusy⟩ =>
        streamCommandComplete_later ht hphase hd ?_⟩
      · rw [State.completes_halt hcode, if_pos (List.all_eq_true.2 hquiet)]
      · rw [State.completes_halt hcode, if_neg fun hall => by simp [List.all_eq_true.1 hall n hn] at hbusy]
    · intro hcode
      refine ⟨fun harmed hall => ⟨_, streamCommandComplete_done ht hphase hd ((State.completes_switch hcode harmed).trans
        (if_pos hall)), ?_, ?_, rfl⟩, fun harmed hall => streamCommandComplete_later ht hphase hd
        ((State.completes_switch hcode harmed).trans (if_neg ?_)),
        fun harmed => streamCommandComplete_done ht hphase hd (State.completes_switched hcode harmed)⟩
      · exact congrArg Staging.armed (State.staging_setStaging_same _ _ _ _)
      · exact congrArg Staging.closed (State.staging_setStaging_same _ _ _ _)
      · rw [hall]
        decide
    · intro p m l r hcode hps hm hconf hcol hgo hl hr hne
      subst hps
      exact ⟨rebalMove_sends ht hphase hd hcode hm hconf hcol hgo, fun q =>
        rebalMove_arrives ht hphase hd hcode hm hconf hcol hgo hl hr hne⟩
    · intro p hcode hps x mhz
      subst hps
      refine ⟨_, streamCommandComplete_done ht hphase hd (State.completes_clock hcode), ?_, ?_, ?_, rfl⟩
      · exact congrArg Plot.mhz (State.plot_setPlot_same _ _ _)
      · exact congrArg Plot.asked (State.plot_setPlot_same _ _ _)
      · exact congrArg Plot.mv (State.plot_setPlot_same _ _ _)

end Sys2Proof.Machine
end
